-- ==== Sys2Proof/Word.lean ====
section
/-! DEFINITION. The word types of the model and the sparse maps in which State keeps its numbered units
(bytes of memory, registers, sessions, cores). Their operations are in Sys2Proof/Machine/SMap.lean. -/

namespace Sys2Proof

abbrev Byte := BitVec 8
abbrev W16 := BitVec 16
abbrev W32 := BitVec 32
abbrev W64 := BitVec 64

/-- Sparse data by key: strictly rising keys (`SMap.sorted`). Where a map has a value that an unlisted key reads
as, no entry lists that value (`SMap.canon`). -/
abbrev SMap (α : Type) := List (Nat × α)

/-- Memory: byte addresses with their bytes; an unlisted byte reads 0 (18, R427: SRAM and T1 are zeroed). -/
abbrev Mem := List Host.Cell

end Sys2Proof
end

