-- ==== Sys2Proof/Machine/StBase.lean ====
section
/-! DEFINITION. Plain-data types of the state that every block shares: the block header, event records and the paths
they are offered to, the host attachment and the mailboxes (02, 17 R411-R416). -/

namespace Sys2Proof.Machine

/-- BLK_STATE.state (02 R36). -/
inductive BState where | reset | stopped | running | draining | fenced | faulted
  deriving DecidableEq, Repr

def BState.code : BState → Nat
  | .reset => 0 | .stopped => 1 | .running => 2 | .draining => 3 | .fenced => 4 | .faulted => 5

/-- The header state of one block page (02 R34-R44). `commit` is the committed set that waits (commit_pending),
`partReset` and `stopReq` are the read values of those BLK_CTRL bits, `since` when the drain began, `recReq` that recovery
has been requested (R37). -/
structure Block where
  st : BState := .reset
  locked : Bool := false
  partReset : Bool := false
  stopReq : Bool := false
  commit : Option (SMap W32) := none
  errStat : W32 := 0
  errMask : W32 := 0
  errFirst : W32 := 0
  errInfo : W32 := 0
  errLoc : W64 := 0
  cfgRej : W32 := 0
  evtCnt : W32 := 0
  since : Nat := 0
  recReq : Bool := false
  deriving DecidableEq, Repr

/-- An event record (17 R411): `src` is bytes 8-11 (agent or 0x4000 + type, block instance from bit 16). -/
structure Event where
  time : Nat
  src : Nat
  code : Nat
  sev : Nat
  flags : Nat
  data : BitVec 128
  deriving DecidableEq, Repr

/-- A coalescing window of a path (17 R414). -/
structure EvtWin where
  src : Nat
  code : Nat
  opened : Nat
  count : Nat
  held : List Event
  omitted : Nat
  sevMax : Nat
  firstOm : Nat
  lastOm : Nat
  deriving DecidableEq, Repr

/-- One event path (17 R413-R416): windows (oldest first), queues, discards since the last EVT_LOST. -/
structure EvtPath where
  wins : List EvtWin := []
  queue : List Event := []
  prio : List Event := []
  lost : Option Event := none
  lostN : Nat := 0
  lostT : Nat := 0
  lostA : Nat := 0
  firstLost : Option Nat := none
  lastLost : Option Nat := none
  deriving DecidableEq, Repr

/-- A line of the device coherency cache (02 R20). -/
structure CLine where
  dirty : Bool
  excl : Bool
  data : List Byte
  deriving DecidableEq, Repr

/-- What an access to edge memory names: owner, slot, requester, content, session (11 R278, R282). -/
structure Access where
  owner : Nat := 0
  slot : Nat := 0
  req : Nat := 0
  content : Nat := 0
  session : Nat := 0
  deriving DecidableEq, Repr

/-- A device write of HDM lines that waits for a back-invalidation response (02 R23), or a ring's vector that waits behind
its index write-back (`vec`; 03 R64). Those of one `tag` (a ring's number, or another writer) keep their order. -/
structure HdmPend where
  tag : Nat
  acc : Access := {}
  addr : Nat := 0
  data : List Byte := []
  vec : Option Nat := none
  deriving DecidableEq, Repr

/-- The CXL function (02 R17-R33). `trained` that the link is up, `flit256` in 256-byte flit mode; `hostHeld` lines of the HDM
range that the host may hold, `bisnp` device writes, and vectors behind them, that wait for a snoop response. -/
structure HostSt where
  trained : Bool := false
  flit256 : Bool := false
  cache : SMap CLine := []
  hostHeld : List Nat := []
  bisnp : List HdmPend := []
  decCommitted : Bool := false
  decLocked : Bool := false
  decBase : Nat := 0
  ideIo : Option (BitVec 256) := none
  ideCm : Option (BitVec 256) := none
  doeBusy : Bool := false
  crsUntil : Nat := 0
  aerUnc : Bool := false
  rasLog : W64 := 0
  ptmNext : Nat := 0
  ptmValid : Bool := false
  msixTab : SMap (BitVec 128) := []
  msixPend : SMap Bool := []
  msixFMask : Bool := false
  deriving DecidableEq, Repr

/-- A mailbox (02 R49-R57): `holder` holds the claim while one is held, `stamp` is that of the current or last message. -/
structure Mbx where
  data : List W32 := List.replicate 16 0
  full : Bool := false
  claimed : Bool := false
  timeout : Bool := false
  claimExpired : Bool := false
  withdrawn : Bool := false
  withdrawRefused : Bool := false
  readStarted : Bool := false
  seq : Nat := 0
  holder : Nat := 0
  stamp : Nat := 0
  timeoutCfg : Nat := 0x64
  receiver : Nat := 0
  since : Nat := 0
  limit : Nat := 0
  deriving DecidableEq, Repr

/-- The mailboxes and the doorbell bits and masks of the AMP, the Steward and the BMC (the host's are registers). -/
structure MbxSt where
  box : SMap Mbx := []
  dbAmp : W32 := 0
  dbStw : W32 := 0
  dbBmc : W32 := 0
  maskAmp : W32 := 0xFFFFFFFF
  maskStw : W32 := 0xFFFFFFFF
  maskBmc : W32 := 0xFFFFFFFF
  deriving DecidableEq, Repr

end Sys2Proof.Machine
end

