-- ==== Sys2Proof/Machine/StAmp.lean ====
section
/-! DEFINITION. Plain-data types of the management plane (17, 18): the flight recorder, replay, the ledger, crash records, firmware,
SPDM, the sideband ring, bring-up. -/

namespace Sys2Proof.Machine

/-- A flight-recorder record as written (17 R422): `at_` is its byte position since the recorder
started, `aux` the step slot that an ADMIT record's request took, 4,096 more where its
temperature is 0. -/
structure FrRec where
  time : Nat
  ty : Nat
  part : Nat
  seq : Nat
  at_ : Nat
  payload : List Byte
  aux : Nat := 0
  deriving DecidableEq, Repr

/-- The flight recorder: region size in bytes since the last wafer reset, bytes written, records (oldest first); records
that its buffer in E0 holds (with their bytes), records discarded since it was full, time of the first (17 R421). -/
structure FrSt where
  size : Nat := 0
  head : Nat := 0
  recs : List FrRec := []
  buf : List (FrRec × List Byte) := []
  dropN : Nat := 0
  dropAt : Nat := 0
  deriving DecidableEq, Repr

/-- A sequence of a replay (17 R424): where its recorded steps name slot `src` from record `since` on, what it was, the
slot it takes in the target, its warm-up. -/
structure RpSeq where
  src : Nat
  since : Nat
  session : Nat
  req : Nat
  adapter : Nat
  ver : Nat
  slot : Nat
  need : Nat
  seed : Nat := 0
  greedy : Bool := false
  fed : Nat := 0
  diverged : Bool := false
  deriving DecidableEq, Repr

/-- A recorded step: kind, epoch, step number, Equinox number, entries (sequence of the replay, ntok, pos). -/
structure RpStep where
  kind : Nat
  epoch : Nat
  step : Nat
  eqx : Nat
  ents : List (Nat × Nat × Nat)
  deriving DecidableEq, Repr

/-- The replay in progress (17 R423-R426): steps still to inject, those in flight in the target. -/
structure RpSt where
  busy : Bool := false
  src : Nat := 0
  tgt : Nat := 0
  eqx0 : Nat := 0
  eqx1 : Nat := 0
  seqs : List RpSeq := []
  steps : List RpStep := []
  flying : List (Option RpStep) := []
  outN : Nat := 0
  deriving DecidableEq, Repr

/-- A crash record (17 R410): cause, device time, GLB_READY, the ERR words of the global, fault, power and thermal pages, the
last records offered to the ledger path. -/
structure CrashRec where
  cause : Nat
  time : Nat
  ready : Nat
  errs : List Nat
  last : List Event
  deriving DecidableEq, Repr

/-- What an entry of the ledger's in-service fault list names (14 R343, R354, 16 R379, R385, 11 R285, 18 R429). -/
inductive FaultLoc where
  | site (x : Nat) | element (x e : Nat) | link (x d : Nat) | tile (t : Nat) | slice (t n : Nat) | region (t r : Nat) | t1 (addr : Nat)
  deriving DecidableEq, Repr

/-- An entry of that list (17 R418): kind and location, code, time. -/
structure FaultEnt where
  loc : FaultLoc
  code : Nat
  time : Nat
  deriving DecidableEq, Repr

/-- The ledger (17 R417-R420): kinds of sites that differ from those set at manufacture; the in-service
fault list; records written and erases done in rotation over the 1,024 sectors; the rolling log, newest first; the
words that the latest checkpoint holds with the fields whose reset value is "ledger"; when it was written; input energy in W x 10 us; time
under power up to that checkpoint; CORE_ECC_CE per core at the last hourly entry, with its time; the hourly entries of the
last 30 days, newest first, and the lifetime totals; (time, core, growth) of each 0x2001; the latest ageing estimates with
their time, and those kept for each 30 days, newest first; training results that a warm
reset may use (kind 0 T1 channel, 1 mesh, 2 Merdutra port; index; the PHY training code's package); recalibrations of each tile,
which refine its thermal constants (15 R373); rails found CONTACT_SUSPECT with their time (14 R355); the last records offered
to the ledger path. -/
structure LedSt where
  kinds : SMap Nat := []
  faultList : List FaultEnt := []
  written : Nat := 0
  erases : Nat := 0
  log : List Event := []
  ckpt : SMap W32 := []
  ckptAt : Nat := 0
  energy : Nat := 0
  onTime : Nat := 0
  ceHour : SMap Nat := []
  ceHourAt : Nat := 0
  ceLog : List (Nat × SMap Nat) := []
  ceTotal : SMap Nat := []
  ceRate : List (Nat × Nat × Nat) := []
  ageing : SMap Nat := []
  ageLog : List (Nat × SMap Nat) := []
  agedAt : Nat := 0
  training : List (Nat × Nat × Nat) := []
  recals : SMap Nat := []
  suspects : List (Nat × Nat) := []
  recent : List Event := []
  deriving DecidableEq, Repr

/-! ### The management plane -/

/-- The AMP: without power, in its boot ROM, running its firmware, in ROM recovery (17 R403). -/
inductive AmpMode where | off | rom | up | recovery
  deriving DecidableEq, Repr

/-- A firmware package in a NOR slot (17 R401, R402): a number that its measurements follow; of its four components the
signing-key index and whether the signature verifies; its revocation list, and whether the root key signed that. -/
structure Pkg where
  id : Nat := 0
  keys : List Nat := [0, 0, 0, 0]
  good : List Bool := [true, true, true, true]
  revoke : Nat := 0
  rooted : Bool := false
  deriving DecidableEq, Repr

/-- A transfer through the BAR4 window (17 R404): length, next block, when the last block came, blocks received. -/
structure Upload where
  len : Nat
  next : Nat := 0
  last : Nat
  data : List Byte := []
  deriving DecidableEq, Repr

/-- A sideband command of the AMP that is unanswered (17 R396, R397): node, command, index, data, ring of the last try,
its time, tries, time of the first. -/
structure SbCmd where
  node : Nat
  cmd : Nat
  idx : Nat
  data : W32
  ring : Nat
  sent : Nat
  tries : Nat := 1
  first : Nat
  deriving DecidableEq, Repr

/-- An SPDM session (17 R405): transport 0 DOE, 1 MCTP; established, with mutual authentication, the SHAKE256 of the
requester's root key; key updates. -/
structure SpSess where
  id : Nat
  tr : Nat
  est : Bool := false
  wantBoth : Bool := false
  both : Bool := false
  root : BitVec 256 := 0
  updates : Nat := 0
  deriving DecidableEq, Repr

/-- A transport's SPDM connection: 0 none, 1 version, 2 capabilities, 3 algorithms negotiated; a large request in chunks
(handle, next number, bytes), a large response with its handle and next number. -/
structure SpConn where
  phase : Nat := 0
  chunkIn : Option (Nat × Nat × List Byte) := none
  chunkOut : Option (Nat × Nat × Nat) := none
  deriving DecidableEq, Repr

/-- The management plane. NOR slots 0 A and 1 B, the slot marked active and the one running, whether the active mark is
new; the key manifest; an update in progress, a transfer through the window; operator root hash; SPDM; IDE keys programmed
(0 CXL.io, 1 cachemem); since when SEC_ZEROISE is armed; the pins TAMPER_N, MGMT_SEL, PERST#, PA_PG, PA_PRSNT_N as levels acted on, ALARM_N as driven; endpoint ID; crash
records (newest first) and how many were written; sideband commands, unreachable nodes, node registers (node x 4096 + index), each node's
copy of device time (value, when it came); last time sync, last Steward heartbeat, the Steward treated as stopped;
when the bring-up stage began, the stage that a failed bring-up had reached, whether the bring-up is warm; 12V_MAIN out of range, T1 lost with it, 12V_AUX failed. -/
structure MgmtSt where
  amp : AmpMode := .off
  slots : SMap Pkg := [(0, {})]
  active : Nat := 0
  running : Nat := 0
  fresh : Bool := false
  manifestOk : Bool := true
  manifestKeys : Nat := 0xFFFF
  updating : Bool := false
  upload : Option Upload := none
  operator : Option (BitVec 256) := none
  conns : SMap SpConn := []
  sess : List SpSess := []
  ideProg : SMap (BitVec 256) := []
  armedAt : Option Nat := none
  tamper : Bool := false
  eid : Nat := 0
  i3c : Bool := true
  crash : List CrashRec := []
  crashN : Nat := 0
  bmcSent : Nat := 0
  cmds : List SbCmd := []
  dead : List Nat := []
  nodeReg : SMap W32 := []
  nodeTime : SMap (Nat × Nat) := []
  syncAt : Nat := 0
  hbAt : Nat := 0
  stwDead : Bool := false
  stageAt : Nat := 0
  reached : Nat := 0
  warm : Bool := false
  paPg : Bool := true
  paPrsnt : Bool := true
  mainBad : Bool := false
  t1Lost : Bool := false
  auxBad : Bool := false
  perst : Bool := true
  alarmLow : Bool := false
  deriving DecidableEq, Repr

end Sys2Proof.Machine
end

