-- ==== Sys2Proof/Machine/StCore.lean ====
section
/-! DEFINITION. Plain-data types of a core (07, 08, 09) and of the fabric's traffic (10). -/

namespace Sys2Proof.Machine

/-- An entry of a holder's local page list (06 R161): frame, KV head, layer, chain page index. -/
structure PEnt where
  frame : Nat
  head : Nat
  layer : Nat
  idx : Nat
  deriving DecidableEq, Repr

/-- An unretired queue transfer (07 R199-R201): direction, far address, region descriptor, tags of its WRITE packets
that are unanswered (13 R335), whether it has completed. -/
structure QXfer where
  store : Bool
  far : Nat
  desc : W64
  tags : List Nat := []
  done : Bool := false
  deriving DecidableEq, Repr

/-- A WAIT in progress (07 R201): target, count, its instruction word, since when. -/
structure CWait where
  target : Nat
  n : Nat
  insn : Nat
  since : Nat
  deriving DecidableEq, Repr

/-- A word as the debug port names it: bank group, bank, word index (R236); whether reading it finds an uncorrectable word
(R240, 16 R381). -/
structure BankAddr where
  grp : Nat
  bank : Nat
  word : Nat
  ue : Bool := false
  deriving DecidableEq, Repr

/-- An access of the AMP's debug port that waits for CORE_SPAD_EMERG.sel (09 R245): word, direction, bytes. -/
structure DbgReq where
  word : BankAddr
  write : Bool
  data : List Byte
  deriving DecidableEq, Repr

/-- A core. `on` island powered and clocked, `gated` its clock gated, `spad` scratchpad bytes, `plist` local page lists
by step slot, `g` general registers, `v` vector lanes (64 r + lane), `acc` accumulator words (4096 t + 64 row + column),
`qs` unretired transfers by queue, `inb` inbound counters, `lastRet` the time of the last
retirement, `pf` and `tf` that a program fault and a tag mismatch have happened since the core was loaded, `fcode` the code of the last fault, `fbads` the uncorrectable elements
reported since the last reset, `scrubs` the last elements urgent scrub rewrote with the time, `scrubRow` the row
patrol scrub reads next, `scrubAt` when it read the last, `ceMark` and `ceSaid` CORE_ECC_CE at the last sample and the last time 0x2001 was raised. -/
structure Core where
  on : Bool := false
  gated : Bool := false
  spad : Mem := []
  plist : SMap (List PEnt) := []
  g : SMap W64 := []
  v : SMap W32 := []
  acc : SMap W32 := []
  pc : Nat := 0
  qs : SMap (List QXfer) := []
  wait : Option CWait := none
  inb : SMap W32 := []
  lastRet : Nat := 0
  pf : Bool := false
  tf : Bool := false
  fcode : Nat := 0
  fbads : List Nat := []
  scrubs : List (Nat × Nat) := []
  dbg : List DbgReq := []
  scrubRow : Nat := 0
  scrubAt : Option Nat := none
  ceMark : Nat := 0
  ceSaid : Option Nat := none
  deriving DecidableEq, Repr

/-- What a flit carries: data, an acknowledgement, a FENCED acknowledgement, a STEP_INCOMPLETE notice; the barrier messages of
R255; a step token, a page grant, a STEP_DONE notice (R253). -/
inductive FlKind where | data | ack | fencedAck | incomplete | eqxReq | eqxGo | eqxArrive | token | grant | stepDone
  deriving DecidableEq, Repr

def FlKind.code : FlKind → Nat
  | .data => 0 | .ack => 1 | .fencedAck => 2 | .incomplete => 3 | .eqxReq => 4 | .eqxGo => 5 | .eqxArrive => 6 | .token => 7
  | .grant => 8 | .stepDone => 9

/-- A flit in the mesh (10 R252): packet and place in it, the fields of its tag, payload, the router it waits at with
the input it came by (4 the core, 5 the router's own), the output it is bound for (4 the local port) once it is routed, the legs of its detour left. -/
structure Flit where
  pid : Nat
  idx : Nat
  len : Nat
  kind : FlKind := .data
  vc : Nat
  barrier : Bool := false
  src : Nat
  dst : Nat
  seq : Nat := 0
  elem : Nat := 0
  ctr : Nat := 0
  cnt : Bool := false
  id : Nat := 0
  round : Nat := 0
  inc : Bool := false
  data : List Byte := []
  loc : Nat
  inp : Nat := 4
  out : Option Nat := none
  legs : List (Nat × Nat) := []
  detour : Bool := false
  deriving DecidableEq, Repr

/-- A kept packet of VC1 or VC4 (10 R268): its flits as first sent, since when it is unacknowledged, resends; for a multicast
packet of VC1 the members that have not acknowledged it. -/
structure Kept where
  seq : Nat
  flits : List Flit
  since : Nat
  tries : Nat := 0
  owed : List Nat := []
  deriving DecidableEq, Repr

/-- Sums of one flit index of a reduction round at a router (10 R266): inputs arrived, FP32 sum lanes, the lanes that have
saturated (R267), incomplete. -/
structure RedPart where
  ins : Nat := 0
  sum : List W32 := []
  sats : List Bool := []
  inc : Bool := false
  sent : Bool := false
  deriving DecidableEq, Repr

/-- A round at a router: number, first arrival, per flit index its sums, saturation already told, its packet number. -/
structure RedRound where
  round : Nat := 0
  first : Option Nat := none
  parts : SMap RedPart := []
  sat : Bool := false
  pid : Nat := 0
  deriving DecidableEq, Repr

/-- The link of an output port: packets in progress by channel, 64 times the packet number plus the next flit index; slot of
the last flit time, whether VC5 has had its flit time of the frame, make-up credits by flow, consecutive replays, the last 32 flits
sent, as tag and payload, when the last one left (10 R252-R254, R270). -/
structure LinkSt where
  prog : SMap Nat := []
  slot : Nat := 0
  vc5 : Bool := false
  credit : SMap Nat := []
  fails : Nat := 0
  replay : List (Nat × List Byte) := []
  last : Nat := 0
  deriving DecidableEq, Repr

/-- The mesh: flits, packet numbers, kept packets and sequence numbers by source, destination and channel (`pairKey`),
numbers delivered, destinations given up, rounds by site and ID, rounds a core has contributed, links by site and
port, the last second in which a router told of discards, flows by router (1024 site + flow) that hold fewer slots than they need
(R262), tiles whose routers hold the detour entries of bring-up (R271). -/
structure FabSt where
  flits : List Flit := []
  pids : Nat := 0
  kept : SMap (List Kept) := []
  nextSeq : SMap Nat := []
  rcvSeq : SMap Nat := []
  gaveUp : SMap Bool := []
  rounds : SMap RedRound := []
  contrib : SMap Nat := []
  links : SMap LinkSt := []
  dropSaid : SMap Nat := []
  degraded : SMap Bool := []
  detours : List Nat := []
  deriving DecidableEq, Repr

end Sys2Proof.Machine
end

