-- ==== Sys2Proof/Machine/StMem.lean ====
section
/-! DEFINITION. Plain-data types of edge memory and key slots (11), and the record of what leaves the device. -/

namespace Sys2Proof.Machine

/-- The metadata word of a 256-byte data unit (11 R278): owner 0 plain, 1 tenant, 2 model owner, 3 device. -/
structure Meta where
  owner : Nat := 0
  slot : Nat := 0
  gen : Nat := 0
  content : Nat := 0
  session : Nat := 0
  deriving DecidableEq, Repr

/-- A key slot (11 R288): the generation outlives the key. -/
structure KeySlot where
  key : Option (BitVec 512) := none
  gen : Nat := 0
  deriving DecidableEq, Repr

/-- The users of the extent pool (11 R280): the Steward's tree buffers and its tables, a session's token log, its spill object, a
partition's control copy, the mirror of a weight region, the edge-resident weights of a region, an adapter version. -/
inductive ExtUser where
  | trees | tables | log (sess : Nat) | spill (sess : Nat) | control (part : Nat) | mirror (part region : Nat)
  | edge (part region : Nat) | adapter (key : Nat)
  deriving DecidableEq, Repr

/-- Edge memory (11): plain content of the usable address space, metadata words, byte ranges (from, to, stamp) whose content no one
wrote under the metadata they now have, extents by user as runs (first, count), when each controller's patrol last read a group, key
slots of tenants, model owners and the device. -/
structure MemSt where
  t1 : Mem := []
  metas : SMap Meta := []
  junk : List (Nat × Nat × Nat) := []
  ext : List (ExtUser × List (Nat × Nat)) := []
  scrubAt : SMap Nat := []
  tenantKeys : SMap KeySlot := []
  ownerKeys : SMap KeySlot := []
  devKey : KeySlot := {}
  deriving DecidableEq, Repr

/-- The D2H requests of the device coherency cache (02 R20). -/
inductive D2h where | rdCurr | rdOwn | itoMWr | wOWrInv | dirtyEvict | cleanEvict
  deriving DecidableEq, Repr

/-- What the DOE mailbox serves (02 R18). -/
inductive DoeObj where | discovery | spdm | securedSpdm | cdat | ideKm
  deriving DecidableEq, Repr

/-- What the function reports at enumeration (02 R17, R18, R22): IDs and class code, what its DOE mailbox serves, which the
Discovery object lists, the HDM range's size in its DVSEC range registers and in its CDAT. -/
structure FnReport where
  vendor : Nat
  device : Nat
  cls : Nat
  doe : List DoeObj
  dvsecSize : Nat
  cdatSize : Nat
  deriving DecidableEq, Repr

/-- What leaves the device, or goes to a unit whose answer a later command brings: data returned by a read, an MSI-X
message, host memory traffic, responses on CXL.cache and CXL.mem, management-bus, SPDM and sideband frames, fabric and
link packets, notices between the device's own processors. -/
inductive Out where
  | readData (ag v : Nat)
  | msix (vector : Nat) (entry : BitVec 128)
  | hostRead (addr n : Nat)
  | hostWrite (addr : Nat) (data : List Byte)
  | hdmData (addr : Nat) (data : List Byte)
  | bisnp (line : Nat)
  | snoopRsp (line code : Nat) (data : List Byte)
  | d2h (req : D2h) (line : Nat)
  | enumerated (r : FnReport)
  | aer (addr : Nat)
  | mctp (kind : Nat) (data : List Nat)
  | spdm (transport code : Nat) (data : List Nat)
  | mail (m code : Nat) (data : List Nat)
  | frame (ring : Nat) (bits : BitVec 72)
  | flit (vc src dst : Nat) (data : List Nat)
  | link (port kind : Nat) (data : List Nat)
  | notice (src dst kind : Nat) (data : List Nat)
  | pin (name : Nat) (level : Bool)
  deriving DecidableEq, Repr

end Sys2Proof.Machine
end

