-- ==== Sys2Proof/Machine/StServ.lean ====
section
/-! DEFINITION. Plain-data types of the control plane: rings, sessions, requests, tenants, prefixes (03), partitions,
stages and step tokens (04), draft trees (05), the KV page pool (06), spill objects (11), loads, epochs and adapter
versions (12). -/

namespace Sys2Proof.Machine

/-- An open ring (03 R58-R68). `desc` is the 32-byte descriptor; `since`/`first` are R65's entries and time of the
first entry after the last vector, `held` the entries that a fetch read has delivered and that wait for a
token-buffer read, `last` is the time of the previous entry (or of the submission's read), `batch` that entries have been
written or consumed whose index write-back is still to come (R64), `failNext` that the device's next write to the ring will
not succeed (R463), `closed` that a submission ring has closed with fetched entries still to be processed (R68). -/
structure Ring where
  desc : BitVec 256
  prod : Nat := 0
  cons : Nat := 0
  closing : Bool := false
  fetch : Nat := 0
  since : Nat := 0
  first : Option Nat := none
  last : Nat := 0
  req : Option Nat := none
  held : List (List Byte) := []
  batch : Bool := false
  failNext : Bool := false
  closed : Bool := false
  deriving DecidableEq, Repr

inductive SessSt where | closed | warm | active | spilling | t1 | t2 | released
  deriving DecidableEq, Repr

def SessSt.code : SessSt → Nat
  | .closed => 0 | .warm => 1 | .active => 2 | .spilling => 3 | .t1 => 4 | .t2 => 5 | .released => 6

/-- One page record of a spill object (11 R290): chain, chain page index, page fields, the record's bytes. -/
structure SpillRec where
  chain : Nat
  idx : Nat
  firstPos : Nat
  fill : Nat
  aged : Bool
  merged : Bool
  trailer : Bool
  bytes : List Byte
  also : List Nat := []
  deriving DecidableEq, Repr

/-- A spill object and its descriptor (11 R290): tier 1 or 2, extents, the session's KV length, the slot generation,
chain lengths and removed counts, directory, page records, time to live; `t2` its extents of the host window (R295). -/
structure SpillObj where
  tier : Nat
  extents : Nat
  kvLen : Nat
  gen : Nat
  chains : List (Nat × Nat × Nat)
  recs : List SpillRec
  entered : Nat := 0
  expiry : Option Nat := none
  moving : Bool := false
  t2 : List Nat := []
  dir : List Byte := []
  tenant : Nat := 0
  deriving DecidableEq, Repr

/-- The directory of a spill object, padded to a data unit (11 R290). -/
def SpillObj.head (o : SpillObj) : List Byte := o.dir ++ List.replicate ((256 - o.dir.length % 256) % 256) 0#8

/-- The bytes of a spill object: directory, then page records, each from a data unit's start (11 R290). -/
def SpillObj.bytes (o : SpillObj) : List Byte :=
  o.head ++ (o.recs.map (·.bytes)).flatten

structure Session where
  st : SessSt := .closed
  tenant : Nat := 0
  part : Nat := 0
  policy : Nat := 0
  prio : Nat := 0
  pin : Bool := false
  kvLen : Nat := 0
  log : List W32 := []
  spillPend : Bool := false
  group : Option Nat := none
  shape : Nat := 0
  fmt : Nat := 0
  lastAd : Option (Nat × Nat) := none
  adGone : Bool := false
  evicted : Bool := false
  recompTo : Nat := 0
  obj : Option SpillObj := none
  idleAt : Nat := 0
  dkv : Nat := 0
  closing : Bool := false
  deriving DecidableEq, Repr

inductive ReqSt where | queued | deferred | restoring | prefill | decode | ending
  deriving DecidableEq, Repr

def ReqSt.code : ReqSt → Nat
  | .queued => 1 | .deferred => 2 | .restoring => 3 | .prefill => 4 | .decode => 5 | .ending => 6

/-- What a request is: a generation, a prefix registration, a rollback (03 R70, 05 R149). -/
inductive ReqKind where | generate | register | rollback
  deriving DecidableEq, Repr

/-- A live request (03 R85-R93). `cond` is the conditions field (bits of status codes and R77), `ready` says that the
previous token has returned to stage 0, `fpos` is the next prefill position to inject and `fend` where the prefill
ends, `newAt` where the request's new tokens start in the log, `mute` that no completion entry is written, `rst` that a
restore runs, `dropPend` that the session is chosen for dropping once its steps have left (06 R175). -/
structure Req where
  st : ReqSt
  kind : ReqKind
  session : Nat
  ring : Nat
  readAt : Nat
  toks : List W32
  maxNew : Nat := 0
  deadline : Option Nat := none
  handle : Nat := 0
  adapter : Nat := 0xFFFF
  ver : Nat := 0
  switched : Bool := false
  epoch : Option Nat := none
  flags : Nat := 0
  temp : Nat := 0
  topP : Nat := 0
  topK : Nat := 0
  seed : Nat := 0
  stop0 : Nat := 0xFFFFFFFF
  stop1 : Nat := 0xFFFFFFFF
  slot : Option Nat := none
  dslot : Option Nat := none
  dpart : Nat := 0
  delivered : Nat := 0
  cond : Nat := 0
  deferSince : Option Nat := none
  deferred : Nat := 0
  seq : Nat := 0
  adm : Nat := 0
  fpos : Nat := 0
  fend : Nat := 0
  newAt : Nat := 0
  charged : Bool := false
  ready : Bool := true
  inflight : Nat := 0
  mute : Bool := false
  sharedTo : Nat := 0
  rlen : Nat := 0
  rk : Nat := 0
  handleOut : Option Nat := none
  rst : Bool := false
  dropPend : Bool := false
  deriving DecidableEq, Repr

/-- A tenant (03 R88): `level` counts 1/256 token divided by 10^9, so that no refill loses a fraction. -/
structure Tenant where
  rate : Nat := 0
  burst : Nat := 0
  weight : Nat := 0x1000
  prio : Nat := 3
  enable : Bool := false
  group : Nat := 0
  level : Int := 0
  tLast : Nat := 0
  deriving DecidableEq, Repr

/-- A prefix-tree node (03 R95, R96): `parent` is none for a child of the root. -/
structure PNode where
  part : Nat
  scope : Nat
  parent : Option Nat
  key : Nat
  toks : List W32
  pages : List Nat
  cpages : List (Nat × List Nat)
  deriving DecidableEq, Repr

/-- A handle-table entry (03 R97, R98): the generation outlives the registration. -/
structure Handle where
  gen : Nat := 1
  live : Bool := false
  tenant : Nat := 0
  part : Nat := 0
  len : Nat := 0
  pages : List Nat := []
  chains : List (Nat × List Nat) := []
  node : Option Nat := none
  deriving DecidableEq, Repr

/-- The serving engine's tables (03). `turn` is the last tenant served per partition x 4 + priority (R87). -/
structure ServSt where
  rings : SMap Ring := []
  sess : SMap Session := []
  reqs : SMap Req := []
  tenants : SMap Tenant := []
  nodes : SMap PNode := []
  handles : SMap Handle := []
  turn : SMap Nat := []
  seq : Nat := 0
  adm : Nat := 0
  nodeSeq : Nat := 0
  evtLast : Nat := 0
  deriving DecidableEq, Repr

/-- A sequence entry of a step token (04 R110), with its context (R118) and the ancestor masks of the tree nodes it carries (05
R142). -/
structure Ent where
  slot : Nat
  ntok : Nat
  pos : Nat
  token : Nat
  adapter : Nat
  ver : Nat
  flags : Nat
  ctx : Nat := pos + ntok
  masks : List Nat := []
  deriving DecidableEq, Repr

/-- An entry of consecutive positions: its context is the last position plus 1 (04 R118). -/
def mkEnt (slot ntok pos token adapter ver flags : Nat) : Ent :=
  { slot := slot, ntok := ntok, pos := pos, token := token, adapter := adapter, ver := ver, flags := flags }

/-- A step token (04 R109). -/
structure Tok where
  kind : Nat
  count : Nat
  part : Nat
  epoch : Nat
  step : Nat
  positions : Nat
  context : Nat
  replay : Nat
  retry : Nat
  eqx : Nat
  ents : List Ent
  deriving DecidableEq, Repr

/-- SCHED_PART_STAT.pstate (04 R124). -/
inductive PState where | unloaded | loaded | running | equinox | paused | relocating | lost | draining
  deriving DecidableEq, Repr

def PState.code : PState → Nat
  | .unloaded => 0 | .loaded => 1 | .running => 2 | .equinox => 3 | .paused => 4 | .relocating => 5 | .lost => 6
  | .draining => 7

/-- A stage (04 R105, R112): leader and cores are logical indices; `run` is the step that runs, or has finished
(`done`) and is not handed on, `wait` the one complete at the input, `hold` that it has seen EQX_REQ and no EQX_GO, `outs` the steps handed
on whose STEP_DONE is on its way (R117), `timed`
the replay field of the step that timed out here, `again` that a timeout here has had no culprit before (16 R383). -/
structure Stage where
  leader : Nat := 0
  cores : List Nat := []
  run : Option Tok := none
  done : Bool := false
  incomplete : Bool := false
  wait : Option Tok := none
  faulted : Bool := false
  clock : Nat := 0
  outs : List Nat := []
  hold : Bool := false
  timed : Option Nat := none
  again : Bool := false
  deriving DecidableEq, Repr

/-- What a member of a span has reported at an Equinox (13 R333): place, faults, whether the epoch is ready, steps it
still holds. -/
structure SpanArr where
  pos : Nat
  faults : List Nat
  ready : Bool
  held : List Nat
  deriving DecidableEq, Repr

/-- An Equinox in progress (04 R121): number, causes, start, stages that have EQX_REQ, stages arrived, fault set, `phase`
2 arrival, 3 resume, 4 relocation, 5 EQX_APPLY sent, 6 applied at a member; at a span the epoch named, at
its head what its members have reported, and those that have relocated or, in phase 5, applied; `step4` when step 4 began;
`own` where a paused member of a span relocates by itself (13 R333). -/
structure Eqx where
  num : Nat
  causes : Nat
  start : Nat
  reqd : List Nat := []
  arrived : List Nat := []
  faults : List Nat := []
  spanIn : List SpanArr := []
  spanOk : List Nat := []
  sol : Nat := 0xFF
  phase : Nat := 1
  step4 : Nat := 0
  own : Bool := false
  deriving DecidableEq, Repr

/-- What step 3 of an Equinox records (04 R121): number, causes, steps held at each stage, fault set. -/
structure EqxRec where
  num : Nat
  causes : Nat
  held : List (List Nat)
  faults : List Nat
  deriving DecidableEq, Repr

/-- A core's KV region (06 R157): base, number of frames, whether the site is fused. -/
structure KvCore where
  base : Nat
  frames : Nat
  fused : Bool
  deriving DecidableEq, Repr

/-- What the placement section gives a core (12 R303 kind 8, 07 R208): entry points for an ordinary and for a fused site
(06 R159), whether it prefers a fused one, CORE_WREG, CORE_FWIN and CORE_QCFG words, KV region, epoch table address,
addresses of the primary and the alternate weight region and their size in bytes (R309), the far windows that cover edge-resident
weights with the region each is for, whose base counts from the stage's allocation (R303), the adapter region's address and 16 KiB
blocks (R316); `lists` is where the core's local page lists stand in its scratchpad
(06 R161) as a base byte and a number of 8-byte entries per step slot: the spec gives no address for them (log 73). -/
structure CoreImg where
  core : Nat
  entry : Nat
  entryFused : Nat
  fused : Bool := false
  fwins : List (Nat × Nat) := []
  qcfg : Nat := 0x07D003E8
  kv : Option KvCore := none
  lists : Option (Nat × Nat) := none
  epochTab : Nat := 0
  prim : Nat := 0
  alt : Nat := 0
  wlen : Nat := 0
  ewins : List (Nat × Nat) := []
  adBase : Nat := 0
  adBlocks : Nat := 0
  deriving DecidableEq, Repr

/-- Bytes of a core that T1 keeps (12 R309): `what` 0 the control copy, 1 + r the mirror of weight region r, 16 + slot x 256 +
version an adapter mirror; `kept` false where no mirror is kept; the model-owner slot with its generation that they were written
under (11 R288), their place among the bytes that are kept together. -/
structure CopyRec where
  what : Nat
  core : Nat
  addr : Nat
  data : List Byte
  kept : Bool := true
  owner : Nat := 0
  gen : Nat := 0
  off : Nat := 0
  deriving DecidableEq, Repr

/-- A patch record (07 R209). -/
structure Patch where
  kind : Nat
  width : Nat
  core : Nat
  off : Nat
  target : Nat
  win : Nat
  deriving DecidableEq, Repr

/-- A partition (04). `transit` are tokens on their way with the stage they go to, `leaving` those that have left
the last stage and await their results at the Steward. In a span (13 R331): its modules in stage order and this one's
place, at the head the steps that other members hold
(`away`), the clock it times the next member by (`awayClock`) and the pause holder bits of each (`spanHold`), at a member its step slots and the tokens whose pages it
could not place (`inbox`). `heldAt` since when the partition is paused, relocating or stopped (R126), `clockAt` since when the clocks of steps not started
stand (R117), `eqxRec` the last record of step 3; extents of the mirrors and of edge-resident weights by weight region, the first
extent of each stage (region, stage, extent) among the latter (12 R303, R309). -/
structure Part where
  ps : PState := .unloaded
  holders : Nat := 0
  draftOf : Nat := 0xFF
  stages : List Stage := []
  tiles : List Nat := []
  reserve : List Nat := []
  shape : Nat := 0
  span : List Nat := []
  spanPos : Nat := 0
  spanSeqs : SMap (Nat × Nat × Nat) := []
  away : List Tok := []
  awayClock : Nat := 0
  inbox : List Tok := []
  spanHold : SMap Nat := []
  bind : SMap Nat := []
  fusedPref : List Nat := []
  transit : List (Nat × Tok) := []
  leaving : List Tok := []
  abandoned : List Tok := []
  stepNum : Nat := 0
  eqxNum : Nat := 0
  eqx : Option Eqx := none
  causes : Nat := 0
  lastEqx : Nat := 0
  stopHeld : Bool := false
  mustEqx : Bool := false
  drainReloc : Bool := false
  noPrefill : Nat := 0
  replayOf : Bool := false
  solstice : Option Nat := none
  epCur : Nat := 0xFF
  epDrain : Nat := 0xFF
  epOther : Nat := 0xFF
  epFill : Bool := false
  retainAt : Option Nat := none
  altRegion : Bool := false
  regions : List Nat := [0xFF, 0xFF]
  mirrors : SMap Nat := []
  owner : Nat := 0
  mirrorEn : Bool := true
  ctlCopy : Nat := 0
  edges : List (Nat × Nat × Nat) := []
  edgeExts : SMap Nat := []
  imgs : List CoreImg := []
  copies : List CopyRec := []
  tscale : SMap W32 := []
  patches : List Patch := []
  lostDue : List Nat := []
  retireDue : List Nat := []
  heldAt : Option Nat := none
  clockAt : Option Nat := none
  eqxRec : Option EqxRec := none
  deriving DecidableEq, Repr

/-- A draft tree of a target step slot (05 R138-R145): nodes with parent and depth, levels drafted (`levels`) and draft
steps injected (`dInj`), verify chunks injected, outcomes as they arrive, chunks in flight of this tree and of those
before it (`old`), the draft step in flight (`dStep`). -/
structure TNode where
  token : Nat
  parent : Nat
  depth : Nat
  score : Nat := 1
  cands : List (Nat × Nat) := []
  deriving DecidableEq, Repr

structure Outcome where
  child : Nat
  bonus : Nat
  logprob : Nat
  deriving DecidableEq, Repr

structure Tree where
  part : Nat
  pos : Nat
  depth : Nat
  slot : Nat := 0
  session : Nat := 0
  widths : List Nat := []
  drafting : Bool := false
  nodes : List TNode := []
  levels : Nat := 0
  dInj : Nat := 0
  chunks : Nat := 0
  outs : SMap Outcome := []
  committed : Bool := false
  inflight : Nat := 0
  old : Nat := 0
  dStep : Option Nat := none
  deriving DecidableEq, Repr

/-- Trees by partition x 4096 + step slot, and the path moves a slot's stages still owe (05 R145): pairs of storage
positions, with the stages that have done them. -/
structure SpecSt where
  trees : SMap Tree := []
  moves : SMap (List (Nat × Nat)) := []
  moved : SMap (List Nat) := []
  deriving DecidableEq, Repr

inductive PageSt where | priv | shared | lost
  deriving DecidableEq, Repr

/-- A page-table entry that is not FREE (06 R161). `also`: the first positions of the pages whose live slots have been merged into
it (R174), by which the Steward knows what positions a merged page may hold. -/
structure Page where
  st : PageSt
  fill : Nat := 0
  refc : Nat := 1
  tenant : Nat := 0
  group : Nat := 0
  aged : Bool := false
  merged : Bool := false
  firstPos : Nat := 0
  slot : Nat := 0
  head : Nat := 0
  layer : Nat := 0
  stage : Nat := 0
  also : List Nat := []
  deriving DecidableEq, Repr

/-- A holder group of a (stage, layer, KV head) (06 R158): members are logical cores. -/
structure HGroup where
  stage : Nat
  layer : Nat
  head : Nat
  members : List Nat
  combiner : Nat
  deriving DecidableEq, Repr

/-- A chain (06 R160): length, removed count, pages. -/
structure Chain where
  len : Nat := 0
  removed : Nat := 0
  pages : List Nat := []
  wr : Nat := 0
  deriving DecidableEq, Repr

/-- What a page grant does at its holder (06 R161). -/
inductive GrantOp where | allocate | share | copy | release | truncate
  deriving DecidableEq, Repr

/-- A page grant on its way to a holder (06 R161). -/
structure Grant where
  part : Nat
  core : Nat
  op : GrantOp
  slot : Nat
  page : Nat
  src : Nat := 0
  slots : Nat := 0
  head : Nat := 0
  layer : Nat := 0
  idx : Nat := 0
  deriving DecidableEq, Repr

/-- The KV pool of a partition (06): chains by session x 65,536 + holder group. -/
structure KvPool where
  fmt : Nat := 0
  slots : Nat := 0
  cores : SMap KvCore := []
  groups : List HGroup := []
  pages : SMap Page := []
  chains : SMap Chain := []
  copies : List Grant := []
  hcfg : W32 := 0x02003800
  hcfg2 : W32 := 0x08004004
  lowHit : Bool := false
  deriving DecidableEq, Repr

inductive AdSt where | loading | loaded | newest | old | gone
  deriving DecidableEq, Repr

/-- An adapter version (12 R316-R319): LOADING is `loading` until the load completes and `loaded` until the next admission decision;
`gone` is reclaimed for the running load. Its blocks by core, its mirror extents, the number of its load. -/
structure AdVer where
  st : AdSt
  place : List (Nat × List Nat) := []
  extents : Nat := 0
  ord : Nat := 0
  deriving DecidableEq, Repr

/-- The load in progress (12 R305-R309): op 1-3, partition, its arguments, extents taken by user, bytes read and
in all, since when it has waited for a segment, the segment it reads (address, length), the weight region it fills, the
bytes read so far. -/
structure Load where
  op : Nat
  part : Nat
  slot : Nat
  owner : Nat
  epoch : Nat
  mirror : Bool
  ver : Nat := 0
  takes : List (ExtUser × Nat) := []
  report : Nat := 0
  done : Nat := 0
  length : Nat := 0
  needSince : Option Nat := none
  seg : Option (Nat × Nat) := none
  region : Nat := 0
  image : List Byte := []
  deriving DecidableEq, Repr

def Load.extents (l : Load) : Nat := l.takes.foldl (fun n e => n + e.2) 0

/-- Adapter versions by (partition x 1024 + slot) x 256 + version, last numbers issued, adapter loads so far, the running load (12). -/
structure WeSt where
  vers : SMap AdVer := []
  lastVer : SMap Nat := []
  loads : Nat := 0
  load : Option Load := none
  deriving DecidableEq, Repr

end Sys2Proof.Machine
end

