-- ==== Sys2Proof/Syntax.lean ====
section
/-! DEFINITION. The commands of the block: one constructor per row of spec/opcode_table.json, in the table's order.
Agents are the numbers of 02 R49, sites 108 y + x, tiles 9 r + c, pages the numbers of Machine/Pages.lean. What the
outside decides (data on a bus, a model's output, a sensor's reading) is an operand. -/

namespace Sys2Proof

open Sys2Proof.Machine (Stage HGroup CoreImg Tok Pkg BankAddr)

/-- A host snoop of the device cache (02 R20). -/
inductive Snoop where | data | inv | cur
  deriving DecidableEq, Repr

/-- A symbol of a stored word that reads wrong: word, symbol 0-34 (0-2 check, 3 + i data byte i), error pattern
(16 R376). -/
structure SymErr where
  word : Nat
  sym : Nat
  flip : Byte
  deriving DecidableEq, Repr

/-- A delivery at a site; whether the read of R240, of an element that the packet ends within, meets an uncorrectable word. -/
structure Inbound where
  site : Nat
  ue : Bool := false
  deriving DecidableEq, Repr

/-- A word that a core's read cannot correct (16 R381): scratchpad element, accumulator, vector register or control
state. -/
inductive WordErr where
  | spad (e : Nat)
  | acc
  | ctl
  deriving DecidableEq, Repr

/-- What SC-256 and SEC-DED find in the words an instruction reads (16 R377): words corrected, one that cannot be. -/
structure Ecc where
  ce : Nat := 0
  ue : Option WordErr := none
  deriving DecidableEq, Repr

/-- A device write to a ring that does not succeed (03 R463): the last one made, or the `next` one. -/
structure FailedWrite where
  ring : Nat
  next : Bool := false
  deriving DecidableEq, Repr

/-- A word of a session's token log that cannot be corrected (03 R86, R102): its index, and whether it is the metadata word of
its data unit that fails (code 0x2011) or the data word (0x2010). -/
structure BadWord where
  word : Nat
  isMeta : Bool := false
  deriving DecidableEq, Repr

/-- What a read of edge memory is for (11 R285), where the read itself decides something: an access under a named owner
and key slot by a requester (11 R282); a word of the Steward's tables: a page-table entry, a prefix-tree node, an entry
of the handle table, a tree buffer; an object on its way to T2. -/
inductive T1Use where
  | data (owner slot req : Nat)
  | pageTable (part page : Nat)
  | node (id : Nat)
  | handle (idx : Nat)
  | tree (part slot : Nat)
  | move (sess : Nat)
  deriving DecidableEq, Repr

/-- A token with the FP32 logarithm of its probability (03 R74, R79). -/
structure TokLp where
  tok : W32
  lp : W32
  deriving DecidableEq, Repr

/-- A token of a distribution at the last stage, after temperature, top_p and top_k: its weight, and its log-probability (03
R74). -/
structure TokP where
  tok : W32
  weight : Nat
  lp : W32
  deriving DecidableEq, Repr

/-- What the last stage computes for one sequence of a step: the distribution at each sampled position (04 R116); for a
draft level that at each node, tokens with weights (05 R139). -/
structure SeqRes where
  slot : Nat
  dists : List (List TokP)
  cands : List (List (Nat × Nat))
  deriving DecidableEq, Repr

/-- Cost coefficients of a stage: W, M, A, F, G (04 R118). -/
structure Cost where
  w : Nat
  m : Nat
  a : Nat
  f : Nat
  g : Nat
  deriving DecidableEq, Repr

/-- The MX tensor of a section of kind 4 (08 R230; the spec gives the section no layout): section index; element type (0 MXFP8
E4M3, 1 MXFP8 E5M2, 2 MXFP6 E3M2, 3 MXFP6 E2M3, 4 MXFP4, others MXINT8 or unknown); elements; where in the section the element
stream and the scale bytes begin; block size; whether blocks run along the contraction dimension; whether scales are E8M0; the
contraction length. -/
structure MxTensor where
  sec : Nat
  ty : Nat
  count : Nat
  elemOff : Nat := 0
  scaleOff : Nat
  block : Nat := 32
  contraction : Bool := true
  e8m0 : Bool := true
  len : Nat
  deriving DecidableEq, Repr

/-- What the router-table, placement and cost sections of an image (12 R303 kinds 6-8), which the spec lists without a
layout, and the span table say, and what the loader chooses: tiles and reserve, stages with their costs, cores with the
sites the loader binds them to, holder groups, router table entries (logical core, table, index, value), MX tensors, whether an
alternate weight region exists, the target of a draft, the modules of the span in stage order and this one's place among them, the
sections that the span table gives to a member: section, module, target there (13 R331). -/
structure Placement where
  tiles : List Nat := []
  reserve : List Nat := []
  stages : List Stage := []
  costs : List Cost := []
  cores : List CoreImg := []
  sites : List (Nat × Nat) := []
  groups : List HGroup := []
  tabs : List (Nat × Nat × Nat × Nat) := []
  mx : List MxTensor := []
  altRegion : Bool := false
  draftOf : Nat := 0xFF
  span : List Nat := []
  spanPos : Nat := 0
  secs : List (Nat × Nat × Nat) := []
  deriving DecidableEq, Repr

/-- A sequence of a step token at a span's member (13 R332): step slot, session, tenant, sharing group. -/
structure SpanSeq where
  slot : Nat
  sess : Nat
  tenant : Nat
  grp : Nat
  deriving DecidableEq, Repr

/-- What a CTRL packet says (13 R332, R333): the spec names these messages and gives no encoding of them
(notes/assumptions/32.md). `load` and `sect` bring an image's header and section table and the bytes of a section to the module that
owns its target (12 R306, 13 R331). -/
inductive SpanMsg where
  | token (t : Tok) (seqs : List SpanSeq)
  | results (step : Nat) (res : List SeqRes)
  | shortage (slot : Nat)
  | release (sess len : Nat) (edge : Bool)
  | cause (bit : Nat)
  | fault (stage : Nat)
  | eqxReq (n sol : Nat)
  | arrive (n : Nat) (faults : List Nat) (causes holders : Nat) (ready : Bool) (held : List Nat)
  | relocated (n : Nat) (found : Bool)
  | applySets (n : Nat) (drop : Bool)
  | applied (n : Nat)
  | holders (h : Nat)
  | go (n ep : Nat)
  | pause (n ep : Nat)
  | load (op slot owner epoch : Nat) (mirror : Bool) (head : List Byte)
  | sect (off : Nat) (data : List Byte)
  deriving DecidableEq, Repr

/-- The fields of a packet header (13 R327) with its data units. -/
structure Pkt where
  kind : Nat
  lane : Nat
  dst : Nat
  src : Nat
  e2e : Nat := 0
  window : Nat := 0
  gen : Nat := 0
  off : Nat := 0
  tag : Nat := 0
  red : Nat := 0
  data : List Byte := []
  deriving DecidableEq, Repr


/-- A rail in a telemetry sample (14 R341, R355): output and sensed voltage in uV, current in mA. -/
structure RailSample where
  rail : Nat
  vout : Nat
  vsense : Nat
  ma : Nat
  deriving DecidableEq, Repr

/-- An island's readings in a governor period (15 R359, R361): ring oscillator in tenths of a degree, power in mW. -/
structure IslSample where
  site : Nat
  ro : Nat
  mw : Nat
  deriving DecidableEq, Repr

/-- A diode's reading: tile, diode, tenths of a degree. -/
structure DiodeSample where
  tile : Nat
  diode : Nat
  temp : Nat
  deriving DecidableEq, Repr

/-- What a bring-up stage finds (18 R429, R431, R434): a rail that does not reach regulation, no reference, a tile's
clock generator without lock, a mesh link that fails training, a slice that fails its self-test, a tile's recalibration
readings, a core with too many bad rows, a T1 channel that fails, a core that fails its self-test, a stored training
result that is not valid or does not come up (kind 0 T1 channel, 1 mesh, 2 Merdutra port). -/
inductive Found where
  | rail (rail : Nat)
  | noRef
  | noLock (tile : Nat)
  | link (site port : Nat)
  | slice (tile n : Nat)
  | recal (tile : Nat) (diodes ros : List Nat)
  | rows (site : Nat)
  | channel (n : Nat)
  | core (site : Nat)
  | stored (kind n : Nat)
  deriving DecidableEq, Repr

/-- The commands. -/
inductive Instr where
  /-- REGISTER_WRITE (R40) -/
  | registerWrite (ag bar off n : Nat) (v : W64)
  /-- REG64_LOW_WRITE (R46) -/
  | reg64LowWrite (ag bar off : Nat) (v : W32)
  /-- REG64_HIGH_WRITE (R46) -/
  | reg64HighWrite (ag bar off : Nat) (v : W32)
  /-- REG64_LOW_READ (R47) -/
  | reg64LowRead (ag bar off n : Nat)
  /-- NARROW_OR_UNALIGNED_READ (R48) -/
  | narrowOrUnalignedRead (ag bar off n : Nat)
  /-- EARLY_ACCESS_DROP (R30) -/
  | earlyAccessDrop (bar off : Nat) (write : Bool)
  /-- UNMAPPED_OFFSET_ACCESS (R455) -/
  | unmappedOffsetAccess (bar off : Nat) (write : Bool)
  /-- SIDEBAND_PAGE_ACCESS (R456) -/
  | sidebandPageAccess (ag off : Nat) (write : Bool) (v : W32)
  /-- RUN (R36) -/
  | run (ag pg : Nat)
  /-- STOP_REQ (R36) -/
  | stopReq (ag pg : Nat)
  /-- PART_RESET (R36) -/
  | partReset (ag pg : Nat)
  /-- COMMIT (R41) -/
  | commit (ag pg : Nat)
  /-- LOCK (R44) -/
  | lock (ag pg : Nat)
  /-- BLOCK_INIT_DONE (R36) -/
  | blockInitDone (pg : Nat)
  /-- BLOCK_DRAIN_DONE (R36) -/
  | blockDrainDone (pg : Nat)
  /-- COMMITTED_SET_APPLY (R42) -/
  | committedSetApply (pg : Nat)
  /-- BLOCK_FAULT (R36) -/
  | blockFault (pg bit code : Nat) (loc : W64) (data : BitVec 128)
  /-- BLOCK_WATCHDOG (R440) -/
  | blockWatchdog (pg : Nat)
  /-- BLOCK_FENCE (R36) -/
  | blockFence (pg : Nat)
  /-- BLOCK_FENCE_RELEASE (R36) -/
  | blockFenceRelease (pg : Nat)
  /-- BLOCK_RECOVERY (R37) -/
  | blockRecovery (pg : Nat)
  /-- ERR_STAT_CLEAR (R39) -/
  | errStatClear (ag pg : Nat) (v : W32)
  /-- CFG_REJECT_CLEAR (R38) -/
  | cfgRejectClear (ag pg : Nat)
  /-- LINK_TRAIN (R19) -/
  | linkTrain (width speed : Nat) (flit256 : Bool)
  /-- FLR (R27) -/
  | flr
  /-- CONVENTIONAL_RESET (R27) -/
  | conventionalReset
  /-- CXL_RESET (R27) -/
  | cxlReset (memClr : Bool)
  /-- H2D_SNOOP (R20) -/
  | h2dSnoop (line : Nat) (op : Snoop)
  /-- BISNP_RESPONSE (R23) -/
  | bisnpResponse (line : Nat)
  /-- HDM_READ (R24) -/
  | hdmRead (addr : Nat) (errs : List SymErr)
  /-- HDM_WRITE (R436) -/
  | hdmWrite (addr : Nat) (data : List Byte)
  /-- PTM_DIALOGUE (R26) -/
  | ptmDialogue (hostTime : W64)
  /-- HDM_CFG_WRITE (R22) -/
  | hdmCfgWrite (ag : Nat) (v : W32)
  /-- DOORBELL_WRITE (R63) -/
  | doorbellWrite (off n : Nat) (v : W64)
  /-- MSIX_TABLE_WRITE (R462) -/
  | msixTableWrite (off n : Nat) (v : W64)
  /-- MBX_CLAIM (R51) -/
  | mbxClaim (ag m : Nat)
  /-- MBX_DATA_WRITE (R51) -/
  | mbxDataWrite (ag m k : Nat) (v : W32)
  /-- MBX_SEND (R51) -/
  | mbxSend (ag m : Nat) (v : W32)
  /-- MBX_DATA_READ (R52) -/
  | mbxDataRead (ag m k n : Nat)
  /-- MBX_RELEASE (R51) -/
  | mbxRelease (ag m : Nat)
  /-- MBX_WITHDRAW (R53) -/
  | mbxWithdraw (ag m : Nat)
  /-- MBX_CLAIM_EXPIRE (R51) -/
  | mbxClaimExpire (m : Nat)
  /-- MBX_MSG_TIMEOUT (R53) -/
  | mbxMsgTimeout (m : Nat)
  /-- MBX_CFG_WRITE (R54) -/
  | mbxCfgWrite (ag m : Nat) (v : W32)
  /-- HOST_DB_CLEAR (R54) -/
  | hostDbClear (ag : Nat) (v : W32)
  /-- HOST_DB_MASK_WRITE (R54) -/
  | hostDbMaskWrite (ag : Nat) (v : W32)
  /-- MBX_DELIVER (R56) -/
  | mbxDeliver (m : Nat)
  /-- MBX_DELIVER_RESPONSE (R56) -/
  | mbxDeliverResponse (m : Nat)
  /-- BMC_MAILBOX_MSG (R409) -/
  | bmcMailboxMsg (m : Nat) (data : List W32)
  /-- RING_OPEN (R61) -/
  | ringOpen (ag : Nat)
  /-- RING_CLOSE (R68) -/
  | ringClose (ag : Nat)
  /-- RING_CLOSE_DONE (R68) -/
  | ringCloseDone (ring : Nat)
  /-- RING_READ (R100) -/
  | ringRead (ag : Nat)
  /-- SUBMISSION_FETCH (R66) -/
  | submissionFetch (ring : Nat)
  /-- FETCH_READ_DONE (R66) -/
  | fetchReadDone (ring : Nat) (data : List Byte)
  /-- FETCH_READ_FAIL (R66) -/
  | fetchReadFail (ring : Nat)
  /-- TOKEN_BUF_READ_DONE (R73) -/
  | tokenBufReadDone (ring : Nat) (toks : List W32) (ok : Bool)
  /-- GENERATE (R70) -/
  | generate (ring : Nat) (e : List Byte)
  /-- CANCEL (R71) -/
  | cancel (ring : Nat) (e : List Byte)
  /-- SESSION_OPEN (R81) -/
  | sessionOpen (ring : Nat) (e : List Byte)
  /-- SESSION_CLOSE (R81) -/
  | sessionClose (ring : Nat) (e : List Byte)
  /-- SESSION_SPILL (R81) -/
  | sessionSpill (ring : Nat) (e : List Byte)
  /-- SESSION_CONFIG (R81) -/
  | sessionConfig (ring : Nat) (e : List Byte)
  /-- PREFIX_REGISTER (R98) -/
  | prefixRegister (ring : Nat) (e : List Byte)
  /-- PREFIX_RELEASE (R98) -/
  | prefixRelease (ring : Nat) (e : List Byte)
  /-- ROLLBACK (R149) -/
  | rollback (ring : Nat) (e : List Byte)
  /-- ADMISSION (R86) -/
  | admission (req : Nat) (badWord : Option BadWord)
  /-- RESTORE_DONE (R294) -/
  | restoreDone (req : Nat) (lost : List Nat)
  /-- STEP_BUILD (R87) -/
  | stepBuild (part : Nat)
  /-- STEP_COMMIT (R115) -/
  | stepCommit (part : Nat) (res : List SeqRes)
  /-- REQUEST_END (R85) -/
  | requestEnd (req : Nat)
  /-- ENTRY_WRITE_FAIL (R463) -/
  | entryWriteFail (w : FailedWrite)
  /-- COALESCE_TIMER (R65) -/
  | coalesceTimer (ring : Nat)
  /-- DEADLINE_EXPIRE (R92) -/
  | deadlineExpire (req : Nat)
  /-- TENANT_WRITE (R100) -/
  | tenantWrite (ag : Nat)
  /-- TENANT_READ (R100) -/
  | tenantRead (ag : Nat)
  /-- QUERY (R101) -/
  | query (ag : Nat) (v : W32)
  /-- T1_TTL_EXPIRE (R81) -/
  | t1TtlExpire (sess : Nat)
  /-- T2_TTL_EXPIRE (R81) -/
  | t2TtlExpire (sess : Nat)
  /-- SPILL_DONE (R291) -/
  | spillDone (sess : Nat)
  /-- T2_MOVE_DONE (R296) -/
  | t2MoveDone (sess : Nat)
  /-- T2_TRANSFER_FAIL (R297) -/
  | t2TransferFail (sess : Nat) (unread : List Nat)
  /-- STEP_TOKEN_ARRIVE (R111) -/
  | stepTokenArrive (part stage : Nat)
  /-- STAGE_STEP_START (R112) -/
  | stageStepStart (part stage : Nat)
  /-- STAGE_STEP_HANDOFF (R115) -/
  | stageStepHandoff (part stage : Nat)
  /-- STEP_DONE (R117) -/
  | stepDone (part stage step : Nat)
  /-- STEP_RERUN (R114) -/
  | stepRerun (part stage : Nat)
  /-- STAGE_TIMEOUT (R117) -/
  | stageTimeout (part stage : Nat)
  /-- EQX_START (R121) -/
  | eqxStart (part : Nat)
  /-- EQX_INTERVAL (R120) -/
  | eqxInterval (part : Nat)
  /-- EQX_REQ (R121) -/
  | eqxReq (part stage : Nat)
  /-- EQX_ARRIVE (R121) -/
  | eqxArrive (part stage : Nat)
  /-- EQX_GO (R121) -/
  | eqxGo (part stage : Nat)
  /-- SCHED_PAUSE (R126) -/
  | schedPause (ag part : Nat)
  /-- SCHED_RESUME (R125) -/
  | schedResume (ag part : Nat)
  /-- SCHED_EQX_REQ (R120) -/
  | schedEqxReq (ag part : Nat)
  /-- SPEC_OUTCOME (R144) -/
  | specOutcome (part slot node : Nat) (toks : List W32) (probs : List Nat) (lps : List W32)
  /-- TREE_PAGES_RELEASE (R146) -/
  | treePagesRelease (part slot : Nat)
  /-- PAGE_GRANT (R161) -/
  | pageGrant (part core : Nat)
  /-- PAGE_COPY_DONE (R164) -/
  | pageCopyDone (part core : Nat)
  /-- PAGE_AGE_EXAMINE (R173) -/
  | pageAgeExamine (part page : Nat)
  /-- KV_PAGE_QUERY (R178) -/
  | kvPageQuery (ag : Nat) (v : W32)
  /-- ADD (R187) -/
  | iAdd (site : Nat) (w : BitVec 56) (ecc : Ecc)
  /-- SUB (R187) -/
  | iSub (site : Nat) (w : BitVec 56) (ecc : Ecc)
  /-- AND (R187) -/
  | iAnd (site : Nat) (w : BitVec 56) (ecc : Ecc)
  /-- OR (R187) -/
  | iOr (site : Nat) (w : BitVec 56) (ecc : Ecc)
  /-- XOR (R187) -/
  | iXor (site : Nat) (w : BitVec 56) (ecc : Ecc)
  /-- SHL (R187) -/
  | iShl (site : Nat) (w : BitVec 56) (ecc : Ecc)
  /-- SHR (R187) -/
  | iShr (site : Nat) (w : BitVec 56) (ecc : Ecc)
  /-- SRA (R187) -/
  | iSra (site : Nat) (w : BitVec 56) (ecc : Ecc)
  /-- MUL (R187) -/
  | iMul (site : Nat) (w : BitVec 56) (ecc : Ecc)
  /-- MULH (R187) -/
  | iMulh (site : Nat) (w : BitVec 56) (ecc : Ecc)
  /-- MULHU (R187) -/
  | iMulhu (site : Nat) (w : BitVec 56) (ecc : Ecc)
  /-- DIVU (R187) -/
  | iDivu (site : Nat) (w : BitVec 56) (ecc : Ecc)
  /-- REMU (R187) -/
  | iRemu (site : Nat) (w : BitVec 56) (ecc : Ecc)
  /-- SLT (R187) -/
  | iSlt (site : Nat) (w : BitVec 56) (ecc : Ecc)
  /-- SLTU (R187) -/
  | iSltu (site : Nat) (w : BitVec 56) (ecc : Ecc)
  /-- MIN (R187) -/
  | iMin (site : Nat) (w : BitVec 56) (ecc : Ecc)
  /-- MAX (R187) -/
  | iMax (site : Nat) (w : BitVec 56) (ecc : Ecc)
  /-- MINU (R187) -/
  | iMinu (site : Nat) (w : BitVec 56) (ecc : Ecc)
  /-- MAXU (R187) -/
  | iMaxu (site : Nat) (w : BitVec 56) (ecc : Ecc)
  /-- CLZ (R187) -/
  | iClz (site : Nat) (w : BitVec 56) (ecc : Ecc)
  /-- POPC (R187) -/
  | iPopc (site : Nat) (w : BitVec 56) (ecc : Ecc)
  /-- MOV (R187) -/
  | iMov (site : Nat) (w : BitVec 56) (ecc : Ecc)
  /-- MOVHI (R187) -/
  | iMovhi (site : Nat) (w : BitVec 56) (ecc : Ecc)
  /-- SEL (R187) -/
  | iSel (site : Nat) (w : BitVec 56) (ecc : Ecc)
  /-- LD8U (R187) -/
  | iLd8u (site : Nat) (w : BitVec 56) (ecc : Ecc)
  /-- LD16U (R187) -/
  | iLd16u (site : Nat) (w : BitVec 56) (ecc : Ecc)
  /-- LD32U (R187) -/
  | iLd32u (site : Nat) (w : BitVec 56) (ecc : Ecc)
  /-- LD64 (R187) -/
  | iLd64 (site : Nat) (w : BitVec 56) (ecc : Ecc)
  /-- ST8 (R240) -/
  | iSt8 (site : Nat) (w : BitVec 56) (ecc : Ecc)
  /-- ST16 (R240) -/
  | iSt16 (site : Nat) (w : BitVec 56) (ecc : Ecc)
  /-- ST32 (R240) -/
  | iSt32 (site : Nat) (w : BitVec 56) (ecc : Ecc)
  /-- ST64 (R240) -/
  | iSt64 (site : Nat) (w : BitVec 56) (ecc : Ecc)
  /-- BEQ (R187) -/
  | iBeq (site : Nat) (w : BitVec 56) (ecc : Ecc)
  /-- BNE (R187) -/
  | iBne (site : Nat) (w : BitVec 56) (ecc : Ecc)
  /-- BLT (R187) -/
  | iBlt (site : Nat) (w : BitVec 56) (ecc : Ecc)
  /-- BGE (R187) -/
  | iBge (site : Nat) (w : BitVec 56) (ecc : Ecc)
  /-- BLTU (R187) -/
  | iBltu (site : Nat) (w : BitVec 56) (ecc : Ecc)
  /-- BGEU (R187) -/
  | iBgeu (site : Nat) (w : BitVec 56) (ecc : Ecc)
  /-- JAL (R187) -/
  | iJal (site : Nat) (w : BitVec 56) (ecc : Ecc)
  /-- JALR (R187) -/
  | iJalr (site : Nat) (w : BitVec 56) (ecc : Ecc)
  /-- SYSRD (R189) -/
  | iSysrd (site : Nat) (w : BitVec 56) (ecc : Ecc)
  /-- SYSWR (R189) -/
  | iSyswr (site : Nat) (w : BitVec 56) (ecc : Ecc)
  /-- FENCE (R189) -/
  | iFence (site : Nat) (w : BitVec 56) (ecc : Ecc)
  /-- NOP (R187) -/
  | iNop (site : Nat) (w : BitVec 56) (ecc : Ecc)
  /-- VADD (R227) -/
  | iVadd (site : Nat) (w : BitVec 56) (ecc : Ecc)
  /-- VSUB (R227) -/
  | iVsub (site : Nat) (w : BitVec 56) (ecc : Ecc)
  /-- VMUL (R227) -/
  | iVmul (site : Nat) (w : BitVec 56) (ecc : Ecc)
  /-- VFMA (R227) -/
  | iVfma (site : Nat) (w : BitVec 56) (ecc : Ecc)
  /-- VMAX (R227) -/
  | iVmax (site : Nat) (w : BitVec 56) (ecc : Ecc)
  /-- VMIN (R227) -/
  | iVmin (site : Nat) (w : BitVec 56) (ecc : Ecc)
  /-- VABS (R227) -/
  | iVabs (site : Nat) (w : BitVec 56) (ecc : Ecc)
  /-- VNEG (R227) -/
  | iVneg (site : Nat) (w : BitVec 56) (ecc : Ecc)
  /-- VEXP (R228) -/
  | iVexp (site : Nat) (w : BitVec 56) (ecc : Ecc)
  /-- VLOG (R228) -/
  | iVlog (site : Nat) (w : BitVec 56) (ecc : Ecc)
  /-- VRCP (R228) -/
  | iVrcp (site : Nat) (w : BitVec 56) (ecc : Ecc)
  /-- VRSQ (R228) -/
  | iVrsq (site : Nat) (w : BitVec 56) (ecc : Ecc)
  /-- VSQRT (R228) -/
  | iVsqrt (site : Nat) (w : BitVec 56) (ecc : Ecc)
  /-- VTANH (R228) -/
  | iVtanh (site : Nat) (w : BitVec 56) (ecc : Ecc)
  /-- VCVT (R229) -/
  | iVcvt (site : Nat) (w : BitVec 56) (ecc : Ecc)
  /-- VCMP (R227) -/
  | iVcmp (site : Nat) (w : BitVec 56) (ecc : Ecc)
  /-- VSEL (R187) -/
  | iVsel (site : Nat) (w : BitVec 56) (ecc : Ecc)
  /-- VAND (R187) -/
  | iVand (site : Nat) (w : BitVec 56) (ecc : Ecc)
  /-- VOR (R187) -/
  | iVor (site : Nat) (w : BitVec 56) (ecc : Ecc)
  /-- VXOR (R187) -/
  | iVxor (site : Nat) (w : BitVec 56) (ecc : Ecc)
  /-- VSHL (R187) -/
  | iVshl (site : Nat) (w : BitVec 56) (ecc : Ecc)
  /-- VSHR (R187) -/
  | iVshr (site : Nat) (w : BitVec 56) (ecc : Ecc)
  /-- VRSUM (R228) -/
  | iVrsum (site : Nat) (w : BitVec 56) (ecc : Ecc)
  /-- VRMAX (R227) -/
  | iVrmax (site : Nat) (w : BitVec 56) (ecc : Ecc)
  /-- VPERM (R187) -/
  | iVperm (site : Nat) (w : BitVec 56) (ecc : Ecc)
  /-- VBCAST (R187) -/
  | iVbcast (site : Nat) (w : BitVec 56) (ecc : Ecc)
  /-- VMOVG (R187) -/
  | iVmovg (site : Nat) (w : BitVec 56) (ecc : Ecc)
  /-- VMOVS (R187) -/
  | iVmovs (site : Nat) (w : BitVec 56) (ecc : Ecc)
  /-- VARGMAX (R188) -/
  | iVargmax (site : Nat) (w : BitVec 56) (ecc : Ecc)
  /-- VTOPK16 (R188) -/
  | iVtopk16 (site : Nat) (w : BitVec 56) (ecc : Ecc)
  /-- VLD (R187) -/
  | iVld (site : Nat) (w : BitVec 56) (ecc : Ecc)
  /-- VST (R187) -/
  | iVst (site : Nat) (w : BitVec 56) (ecc : Ecc)
  /-- VLDB (R187) -/
  | iVldb (site : Nat) (w : BitVec 56) (ecc : Ecc)
  /-- VSTM (R187) -/
  | iVstm (site : Nat) (w : BitVec 56) (ecc : Ecc)
  /-- QLD (R199) -/
  | iQld (site : Nat) (w : BitVec 56) (ecc : Ecc)
  /-- QST (R199) -/
  | iQst (site : Nat) (w : BitVec 56) (ecc : Ecc)
  /-- WAIT (R201) -/
  | iWait (site : Nat) (w : BitVec 56) (ecc : Ecc)
  /-- WAIT_RETIRE (R201) -/
  | waitRetire (site : Nat)
  /-- QUEUE_TRANSFER_DONE (R200) -/
  | queueTransferDone (site q : Nat) (data : List Byte) (errs : List SymErr)
  /-- QWAIT_TIMEOUT (R202) -/
  | qwaitTimeout (site : Nat)
  /-- TMM (R190) -/
  | iTmm (site : Nat) (w : BitVec 56) (ecc : Ecc)
  /-- TOUT (R224) -/
  | iTout (site : Nat) (w : BitVec 56) (ecc : Ecc)
  /-- TLD (R193) -/
  | iTld (site : Nat) (w : BitVec 56) (ecc : Ecc)
  /-- TRV (R193) -/
  | iTrv (site : Nat) (w : BitVec 56) (ecc : Ecc)
  /-- TWV (R193) -/
  | iTwv (site : Nat) (w : BitVec 56) (ecc : Ecc)
  /-- TCLR (R193) -/
  | iTclr (site : Nat) (w : BitVec 56) (ecc : Ecc)
  /-- FATT (R194) -/
  | iFatt (site : Nat) (w : BitVec 56) (ecc : Ecc)
  /-- SEND (R258) -/
  | iSend (site : Nat) (w : BitVec 56) (ecc : Ecc)
  /-- FSEND (R259) -/
  | iFsend (site : Nat) (w : BitVec 56) (ecc : Ecc)
  /-- MSEND (R258) -/
  | iMsend (site : Nat) (w : BitVec 56) (ecc : Ecc)
  /-- RSEND (R259) -/
  | iRsend (site : Nat) (w : BitVec 56) (ecc : Ecc)
  /-- CSEND (R258) -/
  | iCsend (site : Nat) (w : BitVec 56) (ecc : Ecc)
  /-- CNTADD (R258) -/
  | iCntadd (site : Nat) (w : BitVec 56) (ecc : Ecc)
  /-- CNTRD (R258) -/
  | iCntrd (site : Nat) (w : BitVec 56) (ecc : Ecc)
  /-- FFENCE (R258) -/
  | iFfence (site : Nat) (w : BitVec 56) (ecc : Ecc)
  /-- ISLAND_WATCHDOG (R206) -/
  | islandWatchdog (site : Nat)
  /-- CORE_ACC_OVF_CLEAR (R192) -/
  | coreAccOvfClear (ag site : Nat) (v : W64)
  /-- SR_CTR_WRITE (R226) -/
  | srCtrWrite (ag site : Nat) (v : W64)
  /-- SPAD_CNT_CLEAR (R246) -/
  | spadCntClear (ag site : Nat)
  /-- SPAD_MAXHOLD_CLEAR (R244) -/
  | spadMaxholdClear (ag site : Nat)
  /-- SPAD_HOLD_WATCHDOG (R244) -/
  | spadHoldWatchdog (site port req cycles : Nat)
  /-- URGENT_SCRUB (R245) -/
  | urgentScrub (site e : Nat)
  /-- DEBUG_ACCESS (R245) -/
  | debugAccess (site : Nat) (e : BankAddr) (write : Bool) (data : List Byte)
  /-- CORE_PATROL_SCRUB (R380) -/
  | corePatrolScrub (site : Nat) (ce : List Nat) (ue : Option Nat)
  /-- LINK_REPLAY (R252) -/
  | linkReplay (site port : Nat)
  /-- FLIT_FORWARD (R251) -/
  | flitForward (site port slot : Nat) (ue : Bool)
  /-- PACKET_DELIVERY (R257) -/
  | packetDelivery (site : Inbound)
  /-- MCAST_FLIT (R264) -/
  | mcastFlit (site : Nat)
  /-- RED_FLIT_ARRIVE (R266) -/
  | redFlitArrive (site : Nat)
  /-- RED_ROUND_TIMEOUT (R266) -/
  | redRoundTimeout (site id : Nat)
  /-- STEP_INCOMPLETE (R266) -/
  | stepIncomplete (site : Nat)
  /-- E2E_ACK (R268) -/
  | e2eAck (site : Nat)
  /-- E2E_RETRY_TIMER (R268) -/
  | e2eRetryTimer (site dst vc : Nat)
  /-- LINK_DEAD (R270) -/
  | linkDead (site port : Nat)
  /-- FAB_TABLE_READ (R272) -/
  | fabTableRead (ag tile : Nat)
  /-- FAB_TABLE_WRITE (R272) -/
  | fabTableWrite (ag tile : Nat)
  /-- T1_READ (R285) -/
  | t1Read (use : T1Use) (unit : Nat) (errs : List SymErr)
  /-- T1_WRITE (R277) -/
  | t1Write (owner slot content session req addr : Nat) (data : List Byte)
  /-- REFRESH (R284) -/
  | refresh (n : Nat) (hot : Bool)
  /-- T1_PATROL_SCRUB (R286) -/
  | t1PatrolScrub (n : Nat) (errs : List SymErr)
  /-- EMC_HOLD_WATCHDOG (R283) -/
  | emcHoldWatchdog (n req ns : Nat)
  /-- T2_ENABLE (R295) -/
  | t2Enable (ag : Nat)
  /-- T2_DISABLE (R298) -/
  | t2Disable (ag : Nat)
  /-- T2_DRAIN_DONE (R298) -/
  | t2DrainDone
  /-- KEY_QUERY (R300) -/
  | keyQuery (ag : Nat) (v : W32)
  /-- LOAD_BASE (R309) -/
  | loadBase (ag part : Nat)
  /-- LOAD_EPOCH (R311) -/
  | loadEpoch (ag part : Nat)
  /-- LOAD_ADAPTER (R316) -/
  | loadAdapter (ag part : Nat)
  /-- ADAPTER_REMOVE (R317) -/
  | adapterRemove (ag part : Nat)
  /-- LOAD_NEXT_SEGMENT (R305) -/
  | loadNextSegment (ag : Nat)
  /-- LOAD_ABORT (R307) -/
  | loadAbort (ag : Nat)
  /-- LOAD_SEGMENT_CONSUMED (R305) -/
  | loadSegmentConsumed (err : Nat)
  /-- LOAD_SEG_TIMEOUT (R305) -/
  | loadSegTimeout
  /-- LOAD_DONE (R309) -/
  | loadDone (p : Placement)
  /-- ADAPTER_NEWEST (R317) -/
  | adapterNewest (part slot : Nat)
  /-- EPOCH_RETAIN_EXPIRE (R315) -/
  | epochRetainExpire (part : Nat)
  /-- EPOCH_FREE (R315) -/
  | epochFree (part : Nat)
  /-- ADAPTER_QUERY (R320) -/
  | adapterQuery (ag : Nat) (v : W32)
  /-- LINK_FRAME (R324) -/
  | linkFrame (port : Nat) (frame : List Byte) (ce ue : Nat)
  /-- PORT_RETRAIN (R324) -/
  | portRetrain (port : Nat)
  /-- PORT_TRAIN_DONE (R324) -/
  | portTrainDone (port : Nat) (up : Bool) (plane : Nat)
  /-- PORT_ENABLE (R322) -/
  | portEnable (ag port : Nat) (on : Bool)
  /-- PORT_RETRAIN_CMD (R324) -/
  | portRetrainCmd (ag port : Nat)
  /-- MLK_WRITE (R336) -/
  | mlkWrite (port lane : Nat)
  /-- MLK_WRITE_APPLY (R336) -/
  | mlkWriteApply (port lane : Nat)
  /-- MLK_WRITE_TIMEOUT (R336) -/
  | mlkWriteTimeout (port lane : Nat)
  /-- MLK_ACK (R329) -/
  | mlkAck (port : Nat)
  /-- MLK_NAK (R335) -/
  | mlkNak (port : Nat)
  /-- MLK_CTRL (R332) -/
  | mlkCtrl (port lane part : Nat) (msg : SpanMsg)
  /-- MLK_RED (R332) -/
  | mlkRed (port site : Nat)
  /-- MLK_RETRY_TIMER (R329) -/
  | mlkRetryTimer (tag : Nat)
  /-- PEER_LOST (R330) -/
  | peerLost (m : Nat)
  /-- PEER_HEARD (R330) -/
  | peerHeard (m : Nat)
  /-- WIN_OPEN (R334) -/
  | winOpen (ag : Nat)
  /-- WIN_CLOSE (R337) -/
  | winClose (ag : Nat)
  /-- WIN_CLOSE_DONE (R337) -/
  | winCloseDone (win : Nat)
  /-- WIN_READ (R334) -/
  | winRead (ag : Nat)
  /-- GOVERNOR_PERIOD (R362) -/
  | governorPeriod (islands : List IslSample) (diodes : List DiodeSample)
  /-- STEP_CHANGE_DONE (R347) -/
  | stepChangeDone (site : Nat)
  /-- TELEMETRY_SAMPLE (R355) -/
  | telemetrySample (watts : Nat) (rails : List RailSample) (blocks : List (Nat × Nat))
  /-- CONTACT_TRIP (R355) -/
  | contactTrip (rail : Nat)
  /-- CONTACT_SUSPECT (R355) -/
  | contactSuspect (rail : Nat)
  /-- TRIM_SLICE_FAIL (R343) -/
  | trimSliceFail (tile n : Nat)
  /-- CLK_LOCK_LOSS (R350) -/
  | clkLockLoss (tile : Nat)
  /-- CLK_RELOCK_RETRY (R350) -/
  | clkRelockRetry (tile : Nat) (locked : Bool)
  /-- REF_CLOCK_LOSS (R350) -/
  | refClockLoss
  /-- REGION_TURN_ON (R352) -/
  | regionTurnOn (tile region : Nat)
  /-- REGION_TURN_ON_WAIT_END (R353) -/
  | regionTurnOnWaitEnd (tile : Nat)
  /-- REGION_POWERED (R352) -/
  | regionPowered (tile : Nat)
  /-- REGION_TURN_OFF (R352) -/
  | regionTurnOff (tile region : Nat)
  /-- REGION_SHORT (R354) -/
  | regionShort (tile : Nat)
  /-- EFUSE_TRIP (R354) -/
  | efuseTrip (tile : Nat)
  /-- RAIL_OFF (R340) -/
  | railOff
  /-- RAIL_FAULT (R340) -/
  | railFault (rail : Nat)
  /-- JUNCTION_TRIP (R365) -/
  | junctionTrip (site temp : Nat) (diode : Bool)
  /-- HEAT_DARK (R363) -/
  | heatDark (tile : Nat)
  /-- HEAT_DARK_EXIT (R364) -/
  | heatDarkExit (tile : Nat)
  /-- SENSOR_DISAGREE (R366) -/
  | sensorDisagree (site : Nat)
  /-- COOLANT_SAMPLE (R370) -/
  | coolantSample (flow dp inlet outlet : Nat)
  /-- COOL_FAIL_ASSERT (R446) -/
  | coolFailAssert
  /-- SHUTDOWN_TIMEOUT (R371) -/
  | shutdownTimeout
  /-- RECAL_REQ (R373) -/
  | recalReq (ag tile : Nat)
  /-- RECAL_DONE (R373) -/
  | recalDone (tile : Nat) (diodes ros : List Nat)
  /-- CE_RATE_SAMPLE (R378) -/
  | ceRateSample (site : Nat)
  /-- RELOCATION_DONE (R121) -/
  | relocationDone (part : Nat) (fails bad : List Nat)
  /-- STW_HEARTBEAT (R389) -/
  | stwHeartbeat
  /-- STW_WDOG_EXPIRE (R389) -/
  | stwWdogExpire
  /-- AMP_WATCHDOG (R390) -/
  | ampWatchdog
  /-- WAFER_WATCHDOG (R391) -/
  | waferWatchdog
  /-- SB_READ (R396); `crcOk` of a sideband frame is the CRC-8 it carries, which the node judges. -/
  | sbRead (src dst idx : Nat) (crcOk : Byte)
  /-- SB_WRITE (R396) -/
  | sbWrite (src dst idx : Nat) (data : W32) (crcOk : Byte)
  /-- SB_RESPONSE (R396) -/
  | sbResponse (src idx : Nat) (data : W32) (crcOk : Byte)
  /-- SB_CLOCK_GATE (R396) -/
  | sbClockGate (crcOk : Byte)
  /-- SB_TIME_SYNC (R399) -/
  | sbTimeSync (node hops value : Nat) (crcOk : Byte)
  /-- SB_ALARM (R396) -/
  | sbAlarm (src idx : Nat) (data : W32) (crcOk : Byte)
  /-- TIME_SYNC_TIMER (R399) -/
  | timeSyncTimer
  /-- SB_RETRY_TIMER (R397) -/
  | sbRetryTimer (node idx : Nat)
  /-- CAL_OFFSET_WRITE (R400) -/
  | calOffsetWrite (ag : Nat) (v : BitVec 64)
  /-- AMP_RESTART (R404) -/
  | ampRestart (ag : Nat)
  /-- ROM_BOOT (R403) -/
  | romBoot
  /-- UPDATE (R404) -/
  | update (off len : Nat) (g : Pkg)
  /-- UPDATE_START (R404) -/
  | updateStart (len : Nat)
  /-- UPDATE_BLOCK (R404) -/
  | updateBlock (ix : Nat) (g : Pkg)
  /-- UPDATE_TRANSFER_TIMEOUT (R404) -/
  | updateTransferTimeout
  /-- PLDM_FW_UPDATE (R409) -/
  | pldmFwUpdate (len : Nat) (g : Pkg)
  /-- GET_VERSION (R405) -/
  | getVersion (tr : Nat)
  /-- GET_CAPABILITIES (R405) -/
  | getCapabilities (tr : Nat)
  /-- NEGOTIATE_ALGORITHMS (R405) -/
  | negotiateAlgorithms (tr : Nat) (ok : Bool)
  /-- GET_DIGESTS (R405) -/
  | getDigests (tr : Nat)
  /-- GET_CERTIFICATE (R405) -/
  | getCertificate (tr slot off len : Nat)
  /-- CHALLENGE (R405) -/
  | challenge (tr slot : Nat)
  /-- GET_MEASUREMENTS (R406) -/
  | getMeasurements (tr ix : Nat) (sign : Bool)
  /-- KEY_EXCHANGE (R405) -/
  | keyExchange (tr slot : Nat) (both : Bool)
  /-- FINISH (R405) -/
  | finish (sess : Nat) (ok : Bool) (root : BitVec 256)
  /-- HEARTBEAT (R405) -/
  | heartbeat (sess : Nat)
  /-- KEY_UPDATE (R405) -/
  | keyUpdate (sess : Nat)
  /-- END_SESSION (R405) -/
  | endSession (sess : Nat)
  /-- CHUNK_SEND (R405) -/
  | chunkSend (tr handle seq : Nat) (data : List Byte) (last : Bool)
  /-- CHUNK_GET (R405) -/
  | chunkGet (tr handle seq : Nat)
  /-- SET_OPERATOR (R407) -/
  | setOperator (sess : Nat) (root : BitVec 256)
  /-- KEY_LOAD (R407) -/
  | keyLoad (sess kind slot : Nat) (key : BitVec 512)
  /-- KEY_CLEAR (R289) -/
  | keyClear (sess kind slot : Nat)
  /-- ZEROISE (R407) -/
  | zeroise (sess : Nat)
  /-- TAMPER_ASSERT (R446) -/
  | tamperAssert
  /-- ZEROISE_ARM (R407) -/
  | zeroiseArm (ag : Nat)
  /-- ZEROISE_RUN (R407) -/
  | zeroiseRun (ag : Nat)
  /-- ZEROISE_DISARM (R407) -/
  | zeroiseDisarm (ag v : Nat)
  /-- ZEROISE_ARM_EXPIRE (R407) -/
  | zeroiseArmExpire
  /-- MEAS_SELECT (R406) -/
  | measSelect (ag ix : Nat)
  /-- MCTP_CONTROL (R409) -/
  | mctpControl (cmd arg : Nat)
  /-- PLDM_POLL_EVENT (R409) -/
  | pldmPollEvent
  /-- PLDM_SENSOR_READ (R409) -/
  | pldmSensorRead (pdr : Bool) (id : Nat)
  /-- PLDM_FRU_READ (R409) -/
  | pldmFruRead (off len : Nat)
  /-- CRASH_READ (R410) -/
  | crashRead (off len : Nat)
  /-- EVT_WINDOW_CLOSE (R414) -/
  | evtWindowClose (path : Nat)
  /-- EVT_LOST (R416) -/
  | evtLost (path : Nat)
  /-- EVENT_RING_PASS (R413) -/
  | eventRingPass
  /-- BMC_EVENT_SEND (R409) -/
  | bmcEventSend
  /-- LEDGER_RECORD_WRITE (R419) -/
  | ledgerRecordWrite
  /-- LEDGER_CHECKPOINT (R419) -/
  | ledgerCheckpoint
  /-- LEDGER_WINDOW_COPY (R420) -/
  | ledgerWindowCopy (ag region off : Nat)
  /-- REPLAY_START (R423) -/
  | replayStart (ag : Nat)
  /-- REPLAY_ABORT (R426) -/
  | replayAbort (ag : Nat)
  /-- REPLAY_DONE (R424) -/
  | replayDone
  /-- POWER_ON (R433) -/
  | powerOn (vaonKept i3c : Bool)
  /-- WARM_RESET (R434) -/
  | warmReset (ag : Nat)
  /-- COLD_RESET (R433) -/
  | coldReset (ag : Nat)
  /-- BRINGUP_STAGE_DONE (R427) -/
  | bringupStageDone (found : List Found)
  /-- BRINGUP_STAGE_TIMEOUT (R430) -/
  | bringupStageTimeout
  /-- PERST_ASSERT (R428) -/
  | perstAssert (low : Bool)
  /-- CLUSTER_RESET (R437) -/
  | clusterReset (ag tile mask : Nat)
  /-- TILE_RESET (R437) -/
  | tileReset (ag tile : Nat)
  /-- MAIN_12V_FAIL (R450) -/
  | main12vFail
  /-- PA_PG_LOSS (R450) -/
  | paPgLoss
  /-- AUX_12V_FAIL (R450) -/
  | aux12vFail
  /-- RC_READ (R11) -/
  | rcRead (ag bar off : Nat)
  /-- HDM_DECODER_COMMIT (R18) -/
  | hdmDecoderCommit (base : Nat) (lockOn : Bool)
  /-- IDE_KM (R25) -/
  | ideKm (sess : Nat) (cm : Bool) (op : Nat) (key : BitVec 256)
  /-- MSIX_FUNCTION_MASK_WRITE (R462) -/
  | msixFunctionMaskWrite (mask : Bool)
  /-- VMIN_SAMPLE (R356) -/
  | vminSample (tile mv place : Nat)
  /-- SUPPLY_DROOP (R348) -/
  | supplyDroop (site permille cycles : Nat)
  /-- TAMPER_RELEASE (R446) -/
  | tamperRelease
  /-- COOL_FAIL_RELEASE (R359) -/
  | coolFailRelease
  /-- MAIN_12V_RESTORE (R450) -/
  | main12vRestore
  /-- PA_PG_RESTORE (R449) -/
  | paPgRestore
  /-- REF_CLOCK_RESTORE (R350) -/
  | refClockRestore
  deriving DecidableEq, Repr

end Sys2Proof
end

