-- ==== Sys2Proof/Config.lean ====
section
/-! DEFINITION. What one module of the part fixes (fuses) and the FREE VALUES, constants with no body:
no proof can see what they are, and a statement holds whatever they are (notes/assumptions/4.md, 6.md). -/

namespace Sys2Proof.Config

/-- Measurements 1-6, 32 bytes each as one number (17 R406): the value that measurement `i` of package `p` has. -/
opaque measurement : (index : Nat) → (package : Nat) → BitVec 256

/-- The n-th fresh 64-bit value a step draws where the spec leaves one to the device (03 R70: a seed of 0). -/
opaque fresh : Nat → W64

/-- Scalar results the spec does not state: opcode, operands (07 R187: division by zero, shifts of 64 and above,
the operand roles of MOVHI and SEL). -/
opaque scalar : (op : Nat) → W64 → W64 → W64 → W64

/-- Lane `l` of a vector result the spec does not state: opcode, modifier byte, lane, the lanes of both sources and
of the destination before (07 R187: VPERM, VBCAST, VSEL, VLDB, VARGMAX, VTOPK16; for VSTM, bit 0 says whether lane `l` is
stored). -/
opaque lane : (op : Nat) → (mod : Nat) → (l : Nat) → List W32 → List W32 → List W32 → W32

/-- VCMP (07 R187, 08 R227: the comparison's encoding and that of its result are not given): which of the six comparisons an
instruction makes (folded with mod 6: 0 equal, 1 not equal, 2 less, 3 not above, 4 above, 5 not less), and the lane word that
says whether it holds for the low and the high half (for a 32-bit lane both say the same). -/
opaque cmpCode : (mod : Nat) → (imm : Nat) → Nat
opaque cmpWord : (mod : Nat) → (lo hi : Bool) → (old : W32) → W32

/-- The scalar result of a vector instruction that names a general register (VMOVG) where its lane is not stated. -/
opaque laneG : (op : Nat) → (mod : Nat) → (imm : W32) → List W32 → W64

/-- Bits of an entry that the spec states no content for (03 R79: position and logprob of a version-1 completion
entry and of a version-1 acknowledgement). -/
opaque entryFill : Nat → W64

/-- Whether the device reads a ring line of host memory with RdOwn, which leaves a copy in its cache, or with RdCurr (02 R20
names both requests and not their use). -/
opaque readsOwn : (line : Nat) → Bool

/-- Random numbers of the last stage (04 R116, 05 R139, R143; the generator is not described): which token of a distribution
is drawn, a uniform number in units of 2^-64, the key of a token in the draw without replacement. -/
opaque pick : (weights : List (Nat × Nat)) → (seed pos node : Nat) → Nat
opaque uniform : (seed pos node j : Nat) → BitVec 64
opaque gumbel : (seed pos node token q : Nat) → Nat

/-- A byte of K or V that a stage computes for a position (04 R113): what a program computes is the program's; a re-run of the
same step gives the same. -/
opaque kvByte : (part step group pos off : Nat) → BitVec 8

/-- The time in ns that the head of a span allows the member at a place for a step of so many positions and so much context (13 R332:
the head's cost registers hold its own stages' coefficients only, 04 R131). -/
opaque memberEst : (part place positions context : Nat) → Nat

/-- Sahust's PCI-SIG vendor ID (02 R17: reported, its number is not given). -/
opaque vendorId : BitVec 16

/-- Event code of a mailbox timeout (02 R53 raises an event and gives no code). -/
opaque mbxTimeoutCode : BitVec 16

/-- ERR_STAT bit and event code of a block watchdog by block type (02 R36: recorded and raised, neither is given). -/
opaque watchdogErr : (type : Nat) → Nat × Nat

/-- Which of the FP32 values within 2 units in the last place of the exact value a transcendental function returns, folded by
their number (08 R228). -/
opaque ulps : (fn : Nat) → W32 → Nat

/-- exp(-t / tau) of the thermal forecast in units of 2^-32, for island `site` after the n-th recalibration of its tile (15 R361, R373:
tau is fused and refined). -/
opaque thermalDecay : (site n : Nat) → (us : Nat) → Nat

/-- The island's and the tile's thermal resistance in mK per W after the n-th recalibration (15 R361, R373). -/
opaque thermalR : (site n : Nat) → Nat
opaque thermalRt : (tile n : Nat) → Nat

/-- Per-tile fused voltage V(s) in mV below nominal, 0-40 in the spec; folded with mod 41 (14 R344). -/
opaque vFuse : (tile : Nat) → (step : Nat) → Nat

/-- Fused path resistance in micro-ohm and offset in microvolt of rail `r` (14 R355). -/
opaque rPath : (rail : Nat) → Nat
opaque vOfs : (rail : Nat) → Int

/-- What a byte of a data unit holds that was written in part by another owner, or under another key, than its other bytes (11
R277, R287: the read-modify-write finds nothing that its own key deciphers). -/
opaque junkByte : (stamp addr : Nat) → BitVec 8

/-- A new device key (11 R288: generated afresh by the AMP at every wafer reset). -/
opaque deviceKey : Nat → BitVec 512

/-- The type byte and the data units of a CTRL packet that carries message `kind` with the given numbers: the spec names
the messages and not their encoding (13 R327, R332). -/
opaque ctrlType : (kind : Nat) → BitVec 8
opaque ctrlData : (kind : Nat) → List Nat → List (BitVec 8)

/-- Frames that a virtual lane of a Merdutra port may send before a credit comes back (13 R325 names credits, not their number). -/
opaque linkCredits : (lane : Nat) → Nat

/-- The module and the reduction ID to which a reduction goes on that leaves the mesh at router `site` (13 R332: no table
entry holds them). -/
opaque redModule : (part site id : Nat) → Nat
opaque redIdThere : (part site id : Nat) → Nat

/-- The current limit in A of supply block `b`, read over PMBus at bring-up (14 R341). -/
opaque blockLimit : (b : Nat) → Nat

/-- The ageing estimate of a tile in units of 0.01 per cent at the n-th measurement (17 R418). -/
opaque drift : (tile n : Nat) → Nat

/-- Bytes whose layout the spec does not give: of crash record `n` (17 R410), of the ledger's regions 1, 2 and 4 at
checkpoint `n` (17 R420), of the FRU data and the PDR repository (17 R409), of the certificate chain, digests and signed
SPDM answers (17 R405). -/
opaque crashByte : (n off : Nat) → BitVec 8
opaque ledgerByte : (region n off : Nat) → BitVec 8
opaque fruByte : (off : Nat) → BitVec 8
opaque pdrByte : (off : Nat) → BitVec 8
opaque certByte : (off : Nat) → BitVec 8
opaque spdmData : (code n : Nat) → Nat

end Sys2Proof.Config
end

