-- ==== Sys2Proof/Machine/Pages.lean ====
section
/-! DEFINITION. The block pages of BAR0 and BAR4 (20 R454-R458): which page lies where, what kind and instance it is,
and what its header says of it. A page number is the BAR0 offset / 4 KiB; BAR4 pages follow from 65,536 on. -/

namespace Sys2Proof.Machine

/-- The kinds of block page (20 R454, R458). -/
inductive PKind where
  | glob | fault | mgmt | serv | epoch | acc | kv | sched | replay | tile | fab | core | emc | map | port | group
  | pwrG | pwrT | thmG | thmT | sec | mbx | hostDb | early
  deriving DecidableEq, Repr

/-- Field class (00 R10); `n` is the dash of a field with none. -/
inductive Cls where | n | s | e | l
  deriving DecidableEq, Repr

/-- Access type (00 R11). -/
inductive Acc where | ro | rw | wo | w1c | w1s | rc
  deriving DecidableEq, Repr

structure Field where
  lo : Nat
  w : Nat
  cls : Cls
  acc : Acc
  rst : Nat
  keep : Bool
  deriving DecidableEq, Repr

structure RegDef where
  off : Nat
  n : Nat
  stride : Nat
  wide : Bool
  fields : List Field
  deriving DecidableEq, Repr

/-- BLK_ID.type (20 R454, R458). -/
def PKind.type : PKind → Nat
  | .glob => 0x001 | .fault => 0x002 | .mgmt => 0x003 | .serv => 0x010 | .epoch => 0x011 | .acc => 0x012
  | .kv => 0x013 | .sched => 0x014 | .replay => 0x015 | .tile => 0x020 | .fab => 0x021 | .core => 0x030
  | .emc => 0x040 | .map => 0x041 | .port => 0x050 | .group => 0x051 | .pwrG => 0x060 | .pwrT => 0x061
  | .thmG => 0x062 | .thmT => 0x063 | .sec => 0x070 | .mbx => 0x080 | .hostDb => 0x081 | .early => 0x082

/-- The E column of 20 R454: the page has E-class fields, and can be locked. -/
def PKind.shadowed : PKind → Bool
  | .glob | .replay | .tile | .map | .port | .pwrT | .thmT | .sec | .mbx | .hostDb | .early => false
  | _ => true

/-- BLK_CAP.resettable (20 R454): core and scheduler pages only. -/
def PKind.resettable : PKind → Bool
  | .core | .sched => true
  | _ => false

/-- Bring-up stage from which the page responds (20 R454, R458). -/
def PKind.fromStage : PKind → Nat
  | .glob | .fault | .mgmt | .sec | .mbx | .hostDb | .early => 1
  | _ => 4

/-- Page numbers of the single pages. -/
def pgGlob : Nat := 0
def pgFault : Nat := 2
def pgMgmt : Nat := 3
def pgServ : Nat := 0x100
def pgEpoch : Nat := 0x101
def pgAcc : Nat := 0x102
def pgKv : Nat := 0x103
def pgSched (p : Nat) : Nat := 0x104 + p
def pgReplay : Nat := 0x114
def pgTile (t : Nat) : Nat := 0x1000 + 16 * t
def pgFab (t : Nat) : Nat := 0x1002 + 16 * t
def pgCore (site : Nat) : Nat := 0x2000 + site
def pgEmc (n : Nat) : Nat := 0x5000 + n
def pgMap : Nat := 0x5030
def pgPort (p : Nat) : Nat := 0x6000 + p
def pgGroup : Nat := 0x6010
def pgPwrG : Nat := 0x7000
def pgPwrT (t : Nat) : Nat := 0x7010 + t
def pgThmG : Nat := 0x7080
def pgThmT (t : Nat) : Nat := 0x7090 + t
def pgSec : Nat := 0x8000
def pgMbx : Nat := 0x10000
def pgHostDb : Nat := 0x10001
def pgEarly : Nat := 0x10006

/-- Sites: 108 y + x, on a grid of 108 by 96 (01). -/
def sites : Nat := 10368

/-- The Steward as a destination: it lies behind E0's edge link, west of column 0 at row 47 (10 R250). -/
def steward : Nat := sites
def tiles : Nat := 72
def siteX (site : Nat) : Nat := site % 108
def siteY (site : Nat) : Nat := site / 108
def siteAt (x y : Nat) : Nat := 108 * y + x
/-- Tile 9r + c of a site, and its tile-local index 12 ly + lx (20 R454). -/
def siteTile (site : Nat) : Nat := 9 * (siteY site / 12) + siteX site / 12
def siteLocal (site : Nat) : Nat := 12 * (siteY site % 12) + siteX site % 12
/-- The site of tile `t` at local index `l`. -/
def siteOf (t l : Nat) : Nat := siteAt (12 * (t % 9) + l % 12) (12 * (t / 9) + l / 12)

/-- Kind and number of a page: tile, site, controller, port, partition (20 R454, R458); none where no block is (R455). -/
def pageInfo (pg : Nat) : Option (PKind × Nat) :=
  if pg = 0 then some (.glob, 0)
  else if pg = 2 then some (.fault, 0)
  else if pg = 3 then some (.mgmt, 0)
  else if pg = 0x100 then some (.serv, 0)
  else if pg = 0x101 then some (.epoch, 0)
  else if pg = 0x102 then some (.acc, 0)
  else if pg = 0x103 then some (.kv, 0)
  else if 0x104 ≤ pg ∧ pg < 0x114 then some (.sched, pg - 0x104)
  else if pg = 0x114 then some (.replay, 0)
  else if 0x1000 ≤ pg ∧ pg < 0x1480 then
    (if (pg - 0x1000) % 16 = 0 then some (.tile, (pg - 0x1000) / 16)
     else if (pg - 0x1000) % 16 = 2 then some (.fab, (pg - 0x1000) / 16) else none)
  else if 0x2000 ≤ pg ∧ pg < 0x2000 + sites then some (.core, pg - 0x2000)
  else if 0x5000 ≤ pg ∧ pg < 0x5030 then some (.emc, pg - 0x5000)
  else if pg = 0x5030 then some (.map, 0)
  else if 0x6000 ≤ pg ∧ pg < 0x6010 then some (.port, pg - 0x6000)
  else if pg = 0x6010 then some (.group, 0)
  else if pg = 0x7000 then some (.pwrG, 0)
  else if 0x7010 ≤ pg ∧ pg < 0x7058 then some (.pwrT, pg - 0x7010)
  else if pg = 0x7080 then some (.thmG, 0)
  else if 0x7090 ≤ pg ∧ pg < 0x70D8 then some (.thmT, pg - 0x7090)
  else if pg = 0x8000 then some (.sec, 0)
  else if pg = 0x10000 then some (.mbx, 0)
  else if pg = 0x10001 then some (.hostDb, 0)
  else if pg = 0x10006 then some (.early, 0)
  else none

/-- BLK_ID.instance: the number within the kind, the tile-local index for a core (20 R454). -/
def pageInstance (k : PKind) (n : Nat) : Nat := if k = .core then siteLocal n else n

/-- Edge tile of a port (13 R322). -/
def portEdge (p : Nat) : Nat := if p < 8 then 1 + p / 2 else 7 + (p - 8) / 2

/-- Sideband node of the block of a page (17 R396, R399): a compute tile's own, 72 + k for edge tile Ek, the Steward's at E0; a
block of the wafer as a whole has the AMP's. -/
def pageNode (pg : Nat) : Nat :=
  match pageInfo pg with
  | some (.tile, n) | some (.fab, n) | some (.pwrT, n) | some (.thmT, n) => n
  | some (.core, n) => siteTile n
  | some (.emc, n) => 72 + n / 4
  | some (.port, n) => 72 + portEdge n
  | some (.serv, _) | some (.epoch, _) | some (.acc, _) | some (.kv, _) | some (.sched, _) | some (.replay, _) => 72
  | _ => 78

/-- BLK_ID (02 R34): layout 0x01, instance, type. -/
def blkId (k : PKind) (n : Nat) : W32 := BitVec.ofNat 32 (k.type * 2 ^ 20 + pageInstance k n * 2 ^ 8 + 1)

/-- BLK_CAP (02 R34): shadowed, resettable, lockable, events; pages and block_cap read 0. -/
def blkCap (k : PKind) : W32 :=
  BitVec.ofNat 32 ((if k.shadowed then 5 else 0) + (if k.resettable then 2 else 0) + 8)

/-- The page of an access: BAR 0 below 256 MiB, BAR 4 below 64 KiB (02 R29). -/
def pageOfAccess (bar off : Nat) : Nat := if bar = 4 then 0x10000 + off / 4096 else off / 4096

/-- Key of a 32-bit register word: its page, the unit a selector names there (02 R461), its page offset. -/
def regKey (pg unit off : Nat) : Nat := pg * 2 ^ 20 + unit * 2 ^ 12 + off

end Sys2Proof.Machine
end

