-- ==== Sys2Proof/Machine/RegTable.lean ====
section
/-! DEFINITION. The registers of 20 R459: every register of every block page beyond the common header, with its
fields, their class, access type and reset value, as the register tables of the chapters give them. Fields whose
reset column reads "ledger" or "fuse" are marked `keep`: no reset touches them, and the value here is the one the
model's fresh ledger holds (notes/assumptions/7.md; CORE_ID and GLB_STEPPING are computed where they are read, Views.lean). -/

namespace Sys2Proof.Machine

/-- A field: lowest bit, width, class (00 R10), access (00 R11), reset value, kept over resets. -/
def fd (lo w : Nat) (cls : Cls) (acc : Acc) (rst : Nat) (keep : Bool := false) : Field :=
  { lo := lo, w := w, cls := cls, acc := acc, rst := rst, keep := keep }

/-- `n` registers of one shape from offset `off`, `stride` apart. -/
def rg (off n stride : Nat) (wide : Bool) (fields : List Field) : RegDef :=
  { off := off, n := n, stride := stride, wide := wide, fields := fields }

/-- Registers of the glob pages (02 R462). -/
def regsGlob : List RegDef := [
  -- GLB_READY
  rg 0x100 1 4 false [fd 0 4 .n .ro 0, fd 4 1 .n .ro 0, fd 16 16 .n .ro 0],
  -- GLB_LINK_STAT
  rg 0x104 1 4 false [fd 0 5 .n .ro 0, fd 5 3 .n .ro 0, fd 8 1 .n .ro 0, fd 9 1 .n .ro 0, fd 10 1 .n .ro 0, fd 11 1 .n .ro 0, fd 12 1 .n .ro 0, fd 13 1 .n .ro 0],
  -- GLB_HDM_CFG
  rg 0x108 1 4 false [fd 0 9 .l .rw 0x40 true, fd 16 9 .n .ro 0x40 true],
  -- GLB_PTM_CTRL
  rg 0x10C 1 4 false [fd 0 1 .l .rw 0, fd 4 12 .l .rw 0xA],
  -- GLB_PTM_OFFSET
  rg 0x110 1 8 true [fd 0 64 .n .ro 0],
  -- GLB_DB_STRAY
  rg 0x118 1 4 false [fd 0 20 .n .ro 0, fd 20 11 .n .ro 0, fd 31 1 .l .w1c 0],
  -- GLB_STEPPING
  rg 0x120 1 4 false [fd 0 4 .n .ro 0 true, fd 8 8 .n .ro 0 true, fd 16 8 .n .ro 0 true],
  -- GLB_RESET
  rg 0x140 1 4 false [fd 0 2 .l .wo 0, fd 16 16 .l .wo 0],
  -- GLB_RESET_STAT
  rg 0x144 1 4 false [fd 0 2 .n .ro 0 true, fd 2 3 .n .ro 0 true, fd 5 1 .n .ro 0, fd 6 1 .l .w1c 0, fd 16 16 .n .ro 0 true],
  -- GLB_STAGE_MS1 .. GLB_STAGE_MS5
  rg 0x150 5 4 false [fd 0 24 .n .ro 0]]

/-- Registers of the early pages (02 R462). -/
def regsEarly : List RegDef := [
  -- AMP_EARLY_STAT
  rg 0x100 1 4 false [fd 0 4 .n .ro 0, fd 16 16 .n .rc 0],
  -- GLB_READY_MIRROR
  rg 0x104 1 4 false [fd 0 4 .n .ro 0, fd 4 1 .n .ro 0, fd 16 16 .n .ro 0],
  -- AMP_LDG_SEL
  rg 0x200 1 4 false [fd 0 3 .l .rw 0, fd 4 15 .l .rw 0, fd 31 1 .n .ro 0],
  -- the window
  rg 0x800 512 4 false [fd 0 32 .n .ro 0]]

/-- Registers of the hostDb pages (02 R54). -/
def regsHostDb : List RegDef := [
  -- AMP_DB_HOST_STAT
  rg 0x100 1 4 false [fd 0 32 .l .w1c 0],
  -- AMP_DB_HOST_MASK
  rg 0x104 1 4 false [fd 0 32 .l .rw 0xFFFFFFFF]]

/-- Registers of the serv pages (03 R99). -/
def regsServ : List RegDef := [
  -- SVC_CFG
  rg 0x100 1 4 false [fd 0 1 .s .rw 0x1, fd 1 1 .s .rw 0],
  -- SVC_SCHED_CFG
  rg 0x104 1 4 false [fd 0 4 .e .rw 0x4, fd 4 2 .e .rw 0x1],
  -- SVC_TTL_CFG
  rg 0x108 1 4 false [fd 0 16 .e .rw 0x258, fd 16 16 .e .rw 0x5A0],
  -- SVC_RING_SEL
  rg 0x110 1 4 false [fd 0 20 .l .rw 0],
  -- SVC_RING_CMD
  rg 0x114 1 4 false [fd 0 2 .l .wo 0],
  -- SVC_RING_STAT
  rg 0x118 1 4 false [fd 0 1 .n .ro 0, fd 1 2 .n .ro 0, fd 4 4 .n .ro 0, fd 8 24 .n .ro 0],
  -- SVC_RING_DESC0 .. SVC_RING_DESC7
  rg 0x120 8 4 false [fd 0 32 .l .rw 0],
  -- SVC_TEN_SEL
  rg 0x140 1 4 false [fd 0 12 .l .rw 0],
  -- SVC_TEN_CMD
  rg 0x144 1 4 false [fd 0 2 .l .wo 0],
  -- SVC_TEN_STAT
  rg 0x148 1 4 false [fd 0 1 .n .ro 0],
  -- SVC_TEN_RATE
  rg 0x14C 1 4 false [fd 0 32 .l .rw 0],
  -- SVC_TEN_BURST
  rg 0x150 1 4 false [fd 0 23 .l .rw 0],
  -- SVC_TEN_CFG
  rg 0x154 1 4 false [fd 0 16 .l .rw 0x1000, fd 16 2 .l .rw 0x3, fd 18 1 .l .rw 0, fd 20 8 .l .rw 0],
  -- SVC_TEN_LEVEL
  rg 0x158 1 4 false [fd 0 32 .n .ro 0],
  -- SVC_QRY_SEL
  rg 0x160 1 4 false [fd 0 16 .l .rw 0, fd 16 1 .l .rw 0, fd 31 1 .n .ro 0],
  -- SVC_QRY_D0 .. SVC_QRY_D3
  rg 0x164 4 4 false [fd 0 32 .n .ro 0],
  -- SVC_CNT_ADMIT .. SVC_CNT_LATE
  rg 0x180 8 4 false [fd 0 32 .n .ro 0]]

/-- Registers of the sched pages (04 R130). -/
def regsSched : List RegDef := [
  -- SCHED_PART_STAT
  rg 0x100 1 4 false [fd 0 4 .n .ro 0, fd 8 4 .n .ro 0, fd 16 8 .n .ro 0, fd 24 8 .n .ro 0xFF],
  -- SCHED_MAX_CTX
  rg 0x104 1 4 false [fd 0 32 .n .ro 0],
  -- SCHED_TILE_MASK0 .. SCHED_TILE_MASK2
  rg 0x108 3 4 false [fd 0 32 .n .ro 0],
  -- SCHED_RSV_MASK0 .. SCHED_RSV_MASK2
  rg 0x114 3 4 false [fd 0 32 .n .ro 0],
  -- SCHED_CTRL
  rg 0x120 1 4 false [fd 0 1 .l .w1s 0, fd 1 1 .l .wo 0, fd 2 1 .l .wo 0],
  -- SCHED_EQX_CFG
  rg 0x124 1 4 false [fd 0 16 .e .rw 0x3E8, fd 16 4 .e .rw 0x2],
  -- SCHED_STEP_CFG
  rg 0x128 1 4 false [fd 0 16 .e .rw 0x25E4, fd 16 7 .e .rw 0x40],
  -- SCHED_EQX_STAT
  rg 0x12C 1 4 false [fd 0 24 .n .ro 0, fd 24 6 .n .ro 0],
  -- SCHED_EQX_TIME
  rg 0x130 1 4 false [fd 0 32 .n .ro 0],
  -- SCHED_STEP_NUM
  rg 0x134 1 4 false [fd 0 32 .n .ro 0],
  -- SCHED_INFLIGHT
  rg 0x138 1 4 false [fd 0 9 .n .ro 0, fd 16 13 .n .ro 0],
  -- SCHED_COST_SEL
  rg 0x140 1 4 false [fd 0 8 .l .rw 0],
  -- SCHED_COST_W
  rg 0x144 1 4 false [fd 0 32 .e .rw 0],
  -- SCHED_COST_M
  rg 0x148 1 4 false [fd 0 32 .e .rw 0],
  -- SCHED_COST_A
  rg 0x14C 1 4 false [fd 0 32 .e .rw 0],
  -- SCHED_COST_F
  rg 0x150 1 4 false [fd 0 32 .e .rw 0],
  -- SCHED_COST_G
  rg 0x154 1 4 false [fd 0 32 .e .rw 0],
  -- SCHED_CNT_STEPS .. SCHED_CNT_BUDGET
  rg 0x180 8 4 false [fd 0 32 .n .ro 0]]

/-- Registers of the acc pages (05 R151). -/
def regsAcc : List RegDef := [
  -- SPEC_SEL
  rg 0x100 1 4 false [fd 0 4 .l .rw 0],
  -- SPEC_PCFG
  rg 0x104 1 4 false [fd 0 4 .e .rw 0, fd 4 1 .e .rw 0],
  -- SPEC_WIDTH0
  rg 0x108 1 4 false [fd 0 32 .e .rw 0x4040404],
  -- SPEC_WIDTH1
  rg 0x10C 1 4 false [fd 0 32 .e .rw 0x3040404],
  -- SPEC_WIDTH2 .. SPEC_WIDTH3
  rg 0x110 2 4 false [fd 0 32 .e .rw 0],
  -- SPEC_STAT
  rg 0x118 1 4 false [fd 0 1 .n .ro 0, fd 16 13 .n .ro 0],
  -- SPEC_CNT_TREES .. SPEC_CNT_ROLLBACK
  rg 0x180 5 4 false [fd 0 32 .n .ro 0]]

/-- Registers of the kv pages (06 R177). -/
def regsKv : List RegDef := [
  -- SVC_KV_SEL
  rg 0x100 1 4 false [fd 0 4 .l .rw 0],
  -- SVC_KV_CFG
  rg 0x104 1 4 false [fd 0 1 .e .rw 0, fd 8 7 .e .rw 0x38, fd 16 16 .e .rw 0x200],
  -- SVC_KV_CFG2
  rg 0x108 1 4 false [fd 0 8 .e .rw 0x4, fd 8 10 .e .rw 0x40, fd 24 8 .e .rw 0x8],
  -- SVC_KV_LOW
  rg 0x10C 1 4 false [fd 0 32 .e .rw 0],
  -- SVC_KV_POOL0 .. SVC_KV_POOL3
  rg 0x110 4 4 false [fd 0 32 .n .ro 0],
  -- SVC_KV_FMT
  rg 0x120 1 4 false [fd 0 1 .n .ro 0, fd 8 8 .n .ro 0],
  -- SVC_KV_PQ
  rg 0x130 1 4 false [fd 0 32 .l .rw 0],
  -- SVC_KV_PD0
  rg 0x134 1 4 false [fd 0 2 .n .ro 0, fd 2 7 .n .ro 0, fd 9 1 .n .ro 0, fd 10 1 .n .ro 0, fd 14 1 .n .ro 0, fd 15 1 .n .ro 0, fd 16 16 .n .ro 0],
  -- SVC_KV_PD1
  rg 0x138 1 4 false [fd 0 12 .n .ro 0, fd 12 8 .n .ro 0],
  -- SVC_KV_PD2
  rg 0x13C 1 4 false [fd 0 32 .n .ro 0],
  -- SVC_KV_PD3
  rg 0x140 1 4 false [fd 0 12 .n .ro 0, fd 12 4 .n .ro 0, fd 16 8 .n .ro 0, fd 24 8 .n .ro 0],
  -- SVC_KV_CNT_ALLOC .. SVC_KV_CNT_LOST
  rg 0x180 8 4 false [fd 0 32 .n .ro 0]]

/-- Registers of the core pages (07 R210). -/
def regsCore : List RegDef := [
  -- CORE_ID
  rg 0x100 1 4 false [fd 0 7 .n .ro 0 true, fd 8 7 .n .ro 0 true, fd 15 1 .n .ro 0 true, fd 16 2 .n .ro 0 true],
  -- CORE_BIND
  rg 0x104 1 4 false [fd 0 14 .s .rw 0, fd 16 4 .s .rw 0, fd 20 8 .s .rw 0, fd 31 1 .s .rw 0],
  -- CORE_ENTRY
  rg 0x108 1 4 false [fd 0 25 .s .rw 0],
  -- CORE_PC
  rg 0x10C 1 4 false [fd 0 25 .n .ro 0],
  -- CORE_CLK
  rg 0x110 1 4 false [fd 0 4 .n .ro 0, fd 4 4 .n .ro 0],
  -- CORE_QCFG
  rg 0x114 1 4 false [fd 0 16 .e .rw 0x3E8, fd 16 16 .e .rw 0x7D0],
  -- CORE_WREG0 .. CORE_WREG3
  rg 0x120 4 4 false [fd 0 14 .s .rw 0, fd 16 14 .s .rw 0, fd 31 1 .s .rw 0],
  -- CORE_ACC_OVF
  rg 0x130 1 8 true [fd 0 64 .l .w1c 0],
  -- CORE_SB_STAT
  rg 0x138 1 4 false [fd 0 6 .n .ro 0, fd 8 6 .n .ro 0],
  -- CORE_Q_OUT0 .. CORE_Q_OUT3
  rg 0x140 4 4 false [fd 0 30 .n .ro 0],
  -- CORE_FAULT_PC
  rg 0x150 1 4 false [fd 0 25 .n .ro 0],
  -- CORE_FAULT_INSN
  rg 0x158 1 8 true [fd 0 64 .n .ro 0],
  -- CORE_FAULT_RANGE
  rg 0x160 1 8 true [fd 0 20 .n .ro 0, fd 20 20 .n .ro 0, fd 40 6 .n .ro 0],
  -- CORE_FAULT_FAR
  rg 0x168 1 8 true [fd 0 64 .n .ro 0],
  -- CORE_SR_CTR
  rg 0x170 1 8 true [fd 0 64 .l .rw 0],
  -- CORE_FWIN_BASE0 .. CORE_FWIN_BASE7
  rg 0x180 8 16 true [fd 0 1 .s .rw 0, fd 1 1 .s .rw 0, fd 2 1 .s .rw 0, fd 3 1 .s .rw 0, fd 12 36 .s .rw 0],
  -- CORE_FWIN_LIM0 .. CORE_FWIN_LIM7
  rg 0x188 8 16 true [fd 12 36 .s .rw 0, fd 48 12 .s .rw 0, fd 60 2 .s .rw 0],
  -- CORE_CNT_RETIRE .. CORE_CNT_TMM_BUSY
  rg 0x200 4 4 false [fd 0 32 .n .ro 0],
  -- CORE_ECC_CE
  rg 0x210 1 4 false [fd 0 32 .n .ro 0],
  -- CORE_ECC_UE
  rg 0x214 1 4 false [fd 0 32 .n .ro 0],
  -- CORE_SPAD_ARB_NEAR
  rg 0x300 1 4 false [fd 0 2 .e .rw 0x1, fd 2 2 .e .rw 0x1, fd 4 2 .e .rw 0x1, fd 6 2 .e .rw 0, fd 8 2 .e .rw 0x2, fd 10 2 .e .rw 0x2, fd 12 2 .e .rw 0, fd 14 2 .e .rw 0x2, fd 16 2 .e .rw 0x3],
  -- CORE_SPAD_ARB_FAR
  rg 0x304 1 4 false [fd 0 2 .e .rw 0x1, fd 2 2 .e .rw 0x1, fd 4 2 .e .rw 0x1, fd 6 2 .e .rw 0, fd 8 2 .e .rw 0x2, fd 10 2 .e .rw 0x2, fd 12 2 .e .rw 0, fd 14 2 .e .rw 0x2, fd 16 2 .e .rw 0x3],
  -- CORE_SPAD_EMERG
  rg 0x308 1 4 false [fd 0 1 .l .rw 0, fd 1 1 .n .ro 0],
  -- CORE_SPAD_HOLD
  rg 0x30C 1 4 false [fd 0 24 .l .rw 0x4000],
  -- CORE_SPAD_MAXHOLD
  rg 0x310 1 4 false [fd 0 24 .n .ro 0, fd 24 4 .n .ro 0, fd 28 1 .n .ro 0, fd 31 1 .l .w1c 0],
  -- CORE_SPAD_CNT_CTRL
  rg 0x314 1 4 false [fd 0 1 .l .rw 0x1, fd 1 1 .l .wo 0],
  -- CORE_SPAD_CNT_BEAT_NEAR .. CORE_SPAD_CNT_LONG
  rg 0x318 7 4 false [fd 0 32 .n .ro 0],
  -- CORE_SPAD_BANK0 .. CORE_SPAD_BANK95
  rg 0x400 96 4 false [fd 0 32 .n .ro 0]]

/-- Registers of the fab pages (10 R271). -/
def regsFab : List RegDef := [
  -- FAB_CFG
  rg 0x100 1 4 false [fd 0 16 .e .rw 0x64, fd 16 4 .e .rw 0x4],
  -- FAB_CFG2
  rg 0x104 1 4 false [fd 0 16 .e .rw 0x14, fd 16 8 .e .rw 0x2],
  -- FAB_TSEL
  rg 0x110 1 4 false [fd 0 8 .l .rw 0, fd 8 4 .l .rw 0, fd 12 10 .l .rw 0],
  -- FAB_TDATA0 .. FAB_TDATA3
  rg 0x114 4 4 false [fd 0 32 .l .rw 0],
  -- FAB_TCMD
  rg 0x124 1 4 false [fd 0 2 .l .wo 0],
  -- FAB_TSTAT
  rg 0x128 1 4 false [fd 0 1 .n .ro 0, fd 1 1 .l .w1c 0],
  -- FAB_CNT_FLIT_VC0 .. FAB_CNT_FLIT_VC5
  rg 0x180 6 4 false [fd 0 32 .n .ro 0],
  -- FAB_CNT_PREEMPT .. FAB_CNT_DROP
  rg 0x198 8 4 false [fd 0 32 .n .ro 0]]

/-- Registers of the emc pages (11 R298). -/
def regsEmc : List RegDef := [
  -- EMC_STAT
  rg 0x100 1 4 false [fd 0 1 .n .ro 0, fd 1 1 .n .ro 0, fd 2 1 .n .ro 0],
  -- EMC_ARB
  rg 0x104 1 4 false [fd 0 2 .e .rw 0x1, fd 2 2 .e .rw 0x1, fd 4 2 .e .rw 0, fd 6 2 .e .rw 0x2, fd 8 2 .e .rw 0x2, fd 10 2 .e .rw 0x2, fd 12 2 .e .rw 0x3],
  -- EMC_HOLD
  rg 0x108 1 4 false [fd 0 24 .l .rw 0x4E20],
  -- EMC_MAXHOLD
  rg 0x10C 1 4 false [fd 0 24 .n .ro 0, fd 24 3 .n .ro 0, fd 31 1 .l .w1c 0],
  -- EMC_SCRUB
  rg 0x110 1 4 false [fd 0 8 .e .rw 0x18],
  -- EMC_SCRUB_POS
  rg 0x114 1 4 false [fd 0 24 .n .ro 0, fd 24 8 .n .ro 0],
  -- EMC_CNT_CE .. EMC_CNT_LONG
  rg 0x180 9 4 false [fd 0 32 .n .ro 0]]

/-- Registers of the map pages (11 R300). -/
def regsMap : List RegDef := [
  -- EMC_POOL_TOTAL
  rg 0x100 1 4 false [fd 0 27 .n .ro 0],
  -- EMC_POOL_FREE
  rg 0x104 1 4 false [fd 0 27 .n .ro 0],
  -- EMC_POOL_CFG
  rg 0x108 1 4 false [fd 0 24 .l .rw 0x10000, fd 24 1 .l .rw 0x1],
  -- EMC_T2_BASE
  rg 0x110 1 8 true [fd 16 48 .l .rw 0],
  -- EMC_T2_SIZE
  rg 0x118 1 4 false [fd 0 13 .l .rw 0],
  -- EMC_T2_CTRL
  rg 0x11C 1 4 false [fd 0 1 .l .rw 0, fd 1 1 .n .ro 0],
  -- EMC_T2_FREE
  rg 0x120 1 4 false [fd 0 29 .n .ro 0],
  -- EMC_KEY_SEL
  rg 0x130 1 4 false [fd 0 12 .l .rw 0, fd 12 2 .l .rw 0x1],
  -- EMC_KEY_STAT
  rg 0x134 1 4 false [fd 0 1 .n .ro 0, fd 1 1 .n .ro 0, fd 16 16 .n .ro 0],
  -- EMC_CNT_SPILL .. EMC_CNT_NOROOM
  rg 0x180 6 4 false [fd 0 32 .n .ro 0]]

/-- Registers of the epoch pages (12 R319). -/
def regsEpoch : List RegDef := [
  -- SVC_WE_SEL
  rg 0x100 1 4 false [fd 0 4 .l .rw 0],
  -- SVC_WE_NEXT
  rg 0x104 1 4 false [fd 0 8 .e .rw 0xFF, fd 8 1 .e .rw 0],
  -- SVC_WE_STAT
  rg 0x108 1 4 false [fd 0 8 .n .ro 0xFF, fd 8 8 .n .ro 0xFF, fd 16 8 .n .ro 0xFF, fd 24 1 .n .ro 0, fd 25 1 .n .ro 0],
  -- SVC_WE_RETAIN
  rg 0x10C 1 4 false [fd 0 16 .e .rw 0x7D0],
  -- SVC_SOLSTICE_DONE
  rg 0x110 1 4 false [fd 0 16 .l .w1c 0],
  -- SVC_LD_CMD
  rg 0x140 1 4 false [fd 0 3 .l .wo 0, fd 3 4 .l .wo 0],
  -- SVC_LD_ARG
  rg 0x144 1 4 false [fd 0 10 .l .rw 0, fd 10 6 .l .rw 0, fd 16 8 .l .rw 0, fd 24 1 .l .rw 0x1],
  -- SVC_LD_ADDR
  rg 0x148 1 8 true [fd 0 64 .l .rw 0],
  -- SVC_LD_LEN
  rg 0x150 1 8 true [fd 0 64 .l .rw 0],
  -- SVC_LD_REPORT
  rg 0x158 1 8 true [fd 0 64 .l .rw 0],
  -- SVC_LD_STAT
  rg 0x160 1 4 false [fd 0 1 .n .ro 0, fd 1 1 .n .ro 0, fd 2 1 .n .ro 0, fd 3 1 .n .ro 0, fd 16 16 .n .ro 0],
  -- SVC_LD_CFG
  rg 0x164 1 4 false [fd 0 16 .l .rw 0x3C],
  -- SVC_AD_SEL
  rg 0x170 1 4 false [fd 0 10 .l .rw 0],
  -- SVC_AD_STAT
  rg 0x174 1 4 false [fd 0 8 .n .ro 0, fd 8 3 .n .ro 0, fd 11 1 .n .ro 0, fd 12 1 .n .ro 0, fd 16 16 .n .ro 0],
  -- SVC_WE_CNT_LOAD .. SVC_WE_CNT_RECLAIM
  rg 0x180 5 4 false [fd 0 32 .n .ro 0]]

/-- Registers of the port pages (13 R338). -/
def regsPort : List RegDef := [
  -- MLK_PORT_STAT
  rg 0x100 1 4 false [fd 0 3 .n .ro 0, fd 3 1 .n .ro 0, fd 4 4 .n .ro 0],
  -- MLK_PORT_CTRL
  rg 0x104 1 4 false [fd 0 1 .l .rw 0x1, fd 1 1 .l .wo 0],
  -- MLK_CNT_FEC_CE .. MLK_CNT_RETRAIN
  rg 0x180 4 4 false [fd 0 32 .n .ro 0]]

/-- Registers of the group pages (13 R338). -/
def regsGroup : List RegDef := [
  -- MLK_GROUP
  rg 0x100 1 4 false [fd 0 6 .s .rw 0 true, fd 8 7 .s .rw 0 true, fd 16 16 .s .rw 0 true],
  -- MLK_CFG
  rg 0x104 1 4 false [fd 0 12 .e .rw 0x32, fd 12 20 .e .rw 0x7D0],
  -- MLK_PEER_SEL
  rg 0x108 1 4 false [fd 0 6 .l .rw 0],
  -- MLK_PEER_STAT
  rg 0x10C 1 4 false [fd 0 1 .n .ro 0, fd 1 5 .n .ro 0, fd 16 16 .n .ro 0],
  -- MLK_SPAN_SEL
  rg 0x110 1 4 false [fd 0 4 .l .rw 0],
  -- MLK_SPAN_CFG
  rg 0x114 1 4 false [fd 0 1 .s .rw 0, fd 1 1 .s .rw 0, fd 2 6 .s .rw 0, fd 8 4 .s .rw 0, fd 12 4 .s .rw 0],
  -- MLK_WIN_SEL
  rg 0x120 1 4 false [fd 0 8 .l .rw 0],
  -- MLK_WIN_CMD
  rg 0x124 1 4 false [fd 0 2 .l .wo 0],
  -- MLK_WIN_STAT
  rg 0x128 1 4 false [fd 0 2 .n .ro 0, fd 2 1 .n .ro 0, fd 3 1 .n .ro 0, fd 16 16 .n .ro 0x1],
  -- MLK_WIN_D0 .. MLK_WIN_D7
  rg 0x130 8 4 false [fd 0 32 .l .rw 0],
  -- MLK_WIN_REJ
  rg 0x150 1 4 false [fd 0 32 .n .ro 0],
  -- MLK_RMAP_SEL
  rg 0x160 1 4 false [fd 0 6 .l .rw 0, fd 8 8 .l .rw 0],
  -- MLK_RMAP_DATA
  rg 0x164 1 4 false [fd 0 16 .l .rw 0x1, fd 16 16 .n .ro 0],
  -- MLK_CNT_RETX .. MLK_CNT_LOST
  rg 0x180 3 4 false [fd 0 32 .n .ro 0]]

/-- Registers of the pwrG pages (14 R357). -/
def regsPwrG : List RegDef := [
  -- PWR_RAIL_STAT
  rg 0x100 1 4 false [fd 0 1 .n .ro 0x1, fd 1 1 .n .ro 0, fd 2 1 .n .ro 0, fd 3 1 .n .ro 0, fd 4 1 .n .ro 0, fd 5 1 .n .ro 0, fd 6 1 .n .ro 0],
  -- PWR_SEQ_CFG
  rg 0x104 1 4 false [fd 0 4 .e .rw 0x2, fd 8 7 .e .rw 0x5A, fd 16 16 .e .rw 0x1388],
  -- PWR_CAP
  rg 0x108 1 4 false [fd 0 16 .e .rw 0x6978],
  -- PWR_MODULE
  rg 0x10C 1 4 false [fd 0 16 .n .ro 0, fd 16 12 .n .ro 0],
  -- PWR_BLK_SEL
  rg 0x110 1 4 false [fd 0 5 .l .rw 0],
  -- PWR_BLK_STAT
  rg 0x114 1 4 false [fd 0 12 .n .ro 0, fd 16 12 .n .ro 0],
  -- PWR_CONTACT_CFG
  rg 0x118 1 4 false [fd 0 8 .e .rw 0x19, fd 8 8 .e .rw 0x3C, fd 16 8 .e .rw 0xA, fd 24 8 .e .rw 0x1]]

/-- Registers of the pwrT pages (14 R357). -/
def regsPwrT : List RegDef := [
  -- PWR_TILE_STAT
  rg 0x100 1 4 false [fd 0 3 .n .ro 0, fd 4 4 .n .ro 0xF, fd 8 1 .n .ro 0 true, fd 9 1 .l .w1c 0, fd 10 1 .n .ro 0, fd 11 1 .n .ro 0, fd 16 6 .n .ro 0 true],
  -- PWR_TRIM_FAIL
  rg 0x108 1 8 true [fd 0 56 .n .ro 0 true],
  -- PWR_VRAIL
  rg 0x110 1 4 false [fd 0 10 .n .ro 0, fd 16 10 .n .ro 0],
  -- PWR_TILE_I
  rg 0x114 1 4 false [fd 0 10 .n .ro 0, fd 16 8 .n .ro 0],
  -- PWR_VMIN
  rg 0x118 1 4 false [fd 0 10 .n .ro 0x3FF, fd 16 8 .n .ro 0xFF, fd 31 1 .l .w1c 0],
  -- PWR_VMIN_TIME
  rg 0x120 1 8 true [fd 0 64 .n .ro 0],
  -- PWR_CNT_WAIT .. PWR_CNT_ONOFF
  rg 0x180 4 4 false [fd 0 32 .n .ro 0]]

/-- Registers of the thmG pages (15 R373). -/
def regsThmG : List RegDef := [
  -- THM_COOL_STAT
  rg 0x100 1 4 false [fd 0 11 .n .ro 0, fd 16 11 .n .ro 0],
  -- THM_FLOW
  rg 0x104 1 4 false [fd 0 12 .n .ro 0, fd 12 12 .n .ro 0, fd 24 1 .n .ro 0],
  -- THM_COOL_CFG
  rg 0x108 1 4 false [fd 0 12 .e .rw 0x1E0, fd 16 5 .e .rw 0],
  -- THM_COOL_STATE
  rg 0x10C 1 4 false [fd 0 3 .n .ro 0, fd 16 16 .n .ro 0x6978],
  -- THM_LIMITS
  rg 0x110 1 4 false [fd 0 8 .e .rw 0x5F, fd 8 4 .e .rw 0x3, fd 16 16 .e .rw 0x14],
  -- THM_WINTER_CFG
  rg 0x114 1 4 false [fd 0 1 .e .rw 0x1, fd 8 8 .e .rw 0x32, fd 16 4 .e .rw 0x5]]

/-- Registers of the thmT pages (15 R373). -/
def regsThmT : List RegDef := [
  -- THM_TILE_STAT
  rg 0x100 1 4 false [fd 0 3 .n .ro 0, fd 4 8 .n .ro 0, fd 12 8 .n .ro 0, fd 20 8 .n .ro 0],
  -- THM_DIODE0 .. THM_DIODE11
  rg 0x110 12 4 false [fd 0 11 .n .ro 0, fd 11 1 .n .ro 0 true, fd 12 1 .n .ro 0],
  -- THM_SITE_SEL
  rg 0x140 1 4 false [fd 0 8 .l .rw 0],
  -- THM_SITE_D0
  rg 0x144 1 4 false [fd 0 11 .n .ro 0, fd 11 1 .n .ro 0, fd 12 1 .n .ro 0, fd 16 8 .n .ro 0, fd 24 4 .n .ro 0, fd 28 1 .n .ro 0, fd 29 1 .n .ro 0, fd 31 1 .n .ro 0],
  -- THM_SITE_D1
  rg 0x148 1 4 false [fd 0 11 .n .ro 0, fd 16 4 .n .ro 0],
  -- THM_CYC0 .. THM_CYC2
  rg 0x150 3 4 false [fd 0 32 .n .ro 0 true],
  -- THM_RECAL
  rg 0x160 1 4 false [fd 0 1 .l .wo 0, fd 1 1 .n .ro 0],
  -- THM_CNT_LOWER .. THM_CNT_DISAGREE
  rg 0x180 4 4 false [fd 0 32 .n .ro 0]]

/-- Registers of the fault pages (16 R391). -/
def regsFault : List RegDef := [
  -- GLB_FLT_CFG
  rg 0x100 1 4 false [fd 0 1 .l .rw 0x1, fd 1 1 .l .rw 0x1, fd 8 8 .l .rw 0x64, fd 16 8 .l .rw 0xA],
  -- GLB_SCRUB_CFG
  rg 0x104 1 4 false [fd 0 8 .e .rw 0xA, fd 16 16 .l .rw 0x3E8],
  -- GLB_RELOC_STAT
  rg 0x108 1 4 false [fd 0 1 .n .ro 0, fd 4 4 .n .ro 0, fd 8 2 .n .ro 0, fd 16 16 .n .ro 0],
  -- GLB_RELOC_LAST
  rg 0x10C 1 4 false [fd 0 14 .n .ro 0, fd 16 4 .n .ro 0],
  -- GLB_RELOC_SITES
  rg 0x110 1 4 false [fd 0 7 .n .ro 0, fd 8 7 .n .ro 0, fd 16 7 .n .ro 0, fd 24 7 .n .ro 0],
  -- GLB_RELOC_PAGES
  rg 0x114 1 4 false [fd 0 32 .n .ro 0],
  -- GLB_RELOC_TIME
  rg 0x118 1 4 false [fd 0 32 .n .ro 0],
  -- GLB_SPARE_SEL
  rg 0x120 1 4 false [fd 0 7 .l .rw 0],
  -- GLB_SPARE_STAT
  rg 0x124 1 4 false [fd 0 5 .n .ro 0 true, fd 8 5 .n .ro 0 true, fd 16 5 .n .ro 0 true],
  -- GLB_CNT_CE .. GLB_CNT_SCRUB_UE
  rg 0x180 5 4 false [fd 0 32 .n .ro 0]]

/-- Registers of the mgmt pages (17 R426). -/
def regsMgmt : List RegDef := [
  -- AMP_STAT
  rg 0x100 1 4 false [fd 0 1 .n .ro 0, fd 1 1 .n .ro 0, fd 2 1 .n .ro 0, fd 3 1 .n .ro 0, fd 4 8 .n .ro 0, fd 16 8 .n .ro 0 true],
  -- AMP_CTRL
  rg 0x104 1 4 false [fd 0 1 .l .wo 0],
  -- AMP_TIME
  rg 0x108 1 8 true [fd 0 64 .n .ro 0],
  -- AMP_CAL_OFFSET
  rg 0x110 1 8 true [fd 0 64 .l .rw 0],
  -- AMP_CAL_STAT
  rg 0x118 1 4 false [fd 0 1 .n .ro 0],
  -- AMP_EVT_CFG
  rg 0x120 1 4 false [fd 0 3 .e .rw 0x2, fd 4 3 .e .rw 0x3, fd 8 1 .l .rw 0x1],
  -- AMP_EVT_STAT
  rg 0x124 1 4 false [fd 0 13 .n .ro 0, fd 16 15 .n .ro 0],
  -- AMP_FR_CFG
  rg 0x130 1 4 false [fd 0 7 .l .rw 0x8 true, fd 8 1 .l .rw 0x1],
  -- AMP_FR_SEQ
  rg 0x138 1 4 false [fd 0 32 .n .ro 0],
  -- AMP_FR_GAPS
  rg 0x13C 1 4 false [fd 0 32 .n .ro 0],
  -- AMP_LDG_STAT
  rg 0x140 1 4 false [fd 0 17 .n .ro 0 true, fd 17 1 .n .ro 0 true]]

/-- Registers of the sec pages (17 R426). -/
def regsSec : List RegDef := [
  -- SEC_BOOT_STAT
  rg 0x100 1 4 false [fd 0 1 .n .ro 0, fd 1 1 .n .ro 0, fd 2 1 .n .ro 0, fd 3 4 .n .ro 0, fd 16 16 .n .ro 0],
  -- SEC_REVOKE
  rg 0x104 1 4 false [fd 0 16 .n .ro 0 true],
  -- SEC_MEAS_SEL
  rg 0x110 1 4 false [fd 0 3 .l .rw 0x1],
  -- SEC_MEAS_D0 .. SEC_MEAS_D7
  rg 0x114 8 4 false [fd 0 32 .n .ro 0],
  -- SEC_SPDM_STAT
  rg 0x140 1 4 false [fd 0 3 .n .ro 0, fd 3 1 .n .ro 0 true, fd 4 1 .n .ro 0],
  -- SEC_ZEROISE
  rg 0x144 1 4 false [fd 0 16 .l .wo 0, fd 16 1 .n .ro 0]]

/-- Registers of the replay pages (17 R426). -/
def regsReplay : List RegDef := [
  -- SVC_RP_PART
  rg 0x100 1 4 false [fd 0 4 .l .rw 0, fd 4 4 .l .rw 0],
  -- SVC_RP_EQX0 .. SVC_RP_EQX1
  rg 0x104 2 4 false [fd 0 32 .l .rw 0],
  -- SVC_RP_OUT
  rg 0x110 1 8 true [fd 0 64 .l .rw 0],
  -- SVC_RP_MAX
  rg 0x118 1 4 false [fd 0 32 .l .rw 0],
  -- SVC_RP_CTRL
  rg 0x11C 1 4 false [fd 0 1 .l .wo 0, fd 1 1 .l .wo 0],
  -- SVC_RP_STAT
  rg 0x120 1 4 false [fd 0 1 .n .ro 0, fd 1 1 .n .ro 0, fd 16 16 .n .ro 0],
  -- SVC_RP_CHECKED
  rg 0x124 1 4 false [fd 0 32 .n .ro 0],
  -- SVC_RP_DIVERGED
  rg 0x128 1 4 false [fd 0 32 .n .ro 0],
  -- SVC_RP_EXCLUDED
  rg 0x12C 1 4 false [fd 0 32 .n .ro 0],
  -- SVC_RP_UNCHECKED
  rg 0x130 1 4 false [fd 0 32 .n .ro 0]]

/-- Registers of the tile pages (18 R441). -/
def regsTile : List RegDef := [
  -- TILE_RESET
  rg 0x100 1 4 false [fd 0 9 .l .wo 0, fd 9 1 .l .wo 0, fd 16 1 .n .ro 0]]

/-- The registers of a kind of page. -/
def regsOf : PKind → List RegDef
  | .glob => regsGlob
  | .early => regsEarly
  | .hostDb => regsHostDb
  | .serv => regsServ
  | .sched => regsSched
  | .acc => regsAcc
  | .kv => regsKv
  | .core => regsCore
  | .fab => regsFab
  | .emc => regsEmc
  | .map => regsMap
  | .epoch => regsEpoch
  | .port => regsPort
  | .group => regsGroup
  | .pwrG => regsPwrG
  | .pwrT => regsPwrT
  | .thmG => regsThmG
  | .thmT => regsThmT
  | .fault => regsFault
  | .mgmt => regsMgmt
  | .sec => regsSec
  | .replay => regsReplay
  | .tile => regsTile
  | .mbx => []

/-- The definition that covers page offset `off` (word aligned), the register's own offset and whether `off` is its high word. -/
def findReg (off : Nat) : List RegDef → Option (RegDef × Nat × Bool)
  | [] => none
  | d :: r =>
    if d.off ≤ off && decide (off < d.off + d.n * d.stride) then
      let i := (off - d.off) / d.stride
      let o := d.off + i * d.stride
      if off = o then some (d, o, false)
      else if d.wide && decide (off = o + 4) then some (d, o, true)
      else findReg off r
    else findReg off r

def regAt (k : PKind) (off : Nat) : Option (RegDef × Nat × Bool) := findReg off (regsOf k)

/-- Reset value of a register as one number, with the kept fields at their ledger default. -/
def RegDef.reset (d : RegDef) : Nat := d.fields.foldl (fun v f => v + f.rst * 2 ^ f.lo) 0

/-- What a 32-bit word of a page resets to. -/
def resetWord (k : PKind) (off : Nat) : W32 :=
  match regAt k off with
  | none => 0
  | some (d, _, hi) => BitVec.ofNat 32 (if hi then RegDef.reset d / 2 ^ 32 else RegDef.reset d)

end Sys2Proof.Machine
end

