-- ==== Sys2Proof/Machine/SMap.lean ====
section
/-! DEFINITION. The operations over sparse maps: find, put, del, and get and set where an unlisted key reads as a
default. A write keeps the canonical form: setting the default removes the entry. -/

namespace Sys2Proof

def SMap.find {α : Type} : SMap α → Nat → Option α
  | [], _ => none
  | (k, v) :: r, j => if j = k then some v else SMap.find r j

def SMap.put {α : Type} : SMap α → Nat → α → SMap α
  | [], j, x => [(j, x)]
  | (k, v) :: r, j, x =>
    if j < k then (j, x) :: (k, v) :: r
    else if j = k then (j, x) :: r
    else (k, v) :: SMap.put r j x

def SMap.del {α : Type} : SMap α → Nat → SMap α
  | [], _ => []
  | (k, v) :: r, j => if j = k then SMap.del r j else (k, v) :: SMap.del r j

/-- What key `j` reads as, `d` when it is not listed. -/
def SMap.get {α : Type} (m : SMap α) (d : α) (j : Nat) : α := (SMap.find m j).getD d

/-- Write `x` at `j`; the default `d` is never listed. -/
def SMap.set {α : Type} [DecidableEq α] (m : SMap α) (d : α) (j : Nat) (x : α) : SMap α :=
  if x = d then SMap.del m j else SMap.put m j x

def SMap.upd {α : Type} [DecidableEq α] (m : SMap α) (d : α) (j : Nat) (f : α → α) : SMap α :=
  SMap.set m d j (f (SMap.get m d j))

/-- Change an entry that is there; nothing otherwise. -/
def SMap.mod {α : Type} : SMap α → Nat → (α → α) → SMap α
  | [], _, _ => []
  | (k, v) :: r, j, f => if j = k then (k, f v) :: r else (k, v) :: SMap.mod r j f

/-- Apply `f` to every entry. -/
def SMap.mapAll {α : Type} (m : SMap α) (f : Nat → α → α) : SMap α := List.map (fun e => (e.1, f e.1 e.2)) m

/-- Keep the entries that satisfy `p`. -/
def SMap.keep {α : Type} (m : SMap α) (p : Nat → α → Bool) : SMap α := List.filter (fun e => p e.1 e.2) m

/-- Strictly rising keys, all above `lo` when one is given. -/
def SMap.above {α : Type} : Nat → SMap α → Bool
  | _, [] => true
  | lo, (k, _) :: r => decide (lo < k) && SMap.above k r

def SMap.sorted {α : Type} : SMap α → Bool
  | [] => true
  | (k, _) :: r => SMap.above k r

/-- The canonical form of a map with a default. -/
def SMap.canon {α : Type} [DecidableEq α] (m : SMap α) (d : α) : Bool :=
  SMap.sorted m && List.all m (fun e => !decide (e.2 = d))

/-- The lowest number below `n`, from `i` on, that `used` does not contain (`fuel` numbers are tried). -/
def firstFree (used : Nat → Bool) : (fuel i : Nat) → Option Nat
  | 0, _ => none
  | f + 1, i => if used i then firstFree used f (i + 1) else some i

/-- Bytes `a .. a + n - 1` of a memory. -/
def Mem.read (m : Mem) (a n : Nat) : List Byte := (List.range n).map fun i => SMap.get m 0#8 (a + i)

/-- Write a byte string at `a`. -/
def Mem.write (m : Mem) (a : Nat) : List Byte → Mem
  | [] => m
  | b :: r => Mem.write (SMap.set m 0#8 a b) (a + 1) r

def Mem.wf (m : Mem) : Bool := SMap.canon m 0#8

/-- Little-endian number of a byte string (00 R7). -/
def leNat : List Byte → Nat
  | [] => 0
  | b :: r => b.toNat + 256 * leNat r

/-- The `n` little-endian bytes of a number. -/
def leBytes : (n v : Nat) → List Byte
  | 0, _ => []
  | n + 1, v => BitVec.ofNat 8 v :: leBytes n (v / 256)

/-- Bits `lo .. lo + w - 1` of a number. -/
def bitsOf (v lo w : Nat) : Nat := (v >>> lo) % 2 ^ w

/-- `v` with bits `lo .. lo + w - 1` replaced by `x`. -/
def putBits (v lo w x : Nat) : Nat := v - (bitsOf v lo w) * 2 ^ lo + (x % 2 ^ w) * 2 ^ lo

def bitAt (v i : Nat) : Bool := bitsOf v i 1 == 1

/-- `min (a + 1) top`: a saturating counter. -/
def satInc (a top : Nat) : Nat := if a < top then a + 1 else a

/-- The signed value of the low `w` bits of `v`. -/
def signedOf (v w : Nat) : Int := if bitAt v (w - 1) then (v % 2 ^ w : Int) - (2 ^ w : Nat) else (v % 2 ^ w : Nat)

end Sys2Proof
end

