-- ==== Sys2Proof/Machine/StLink.lean ====
section
/-! DEFINITION. Plain-data types of the Merdutra links (13). -/

namespace Sys2Proof.Machine

/-- One virtual lane's received frames at a port that no packet command has taken (bodies of 256 bytes), frames of a
discarded packet still to come, whether the WRITE header in front has been checked (13 R323, R327, R336). -/
structure LaneIn where
  frames : List (List Byte) := []
  drop : Nat := 0
  checked : Bool := false
  deriving DecidableEq, Repr

/-- A port's link layer (13 R323-R326): next number to send, unacknowledged frames, number expected, the frame last
replayed with its consecutive replays, times of uncorrectable codewords and of retrains, start of the training, by lane the credits
returned and spent and the bodies that wait to be sent, the last of lanes 1-3 that won the port (R325), received lanes, time each
peer was last heard here. -/
structure MPort where
  next : Nat := 0
  tx : List (Nat × List Byte) := []
  rx : Nat := 0
  replayed : Option (Nat × Nat) := none
  ues : List Nat := []
  retrains : List Nat := []
  since : Nat := 0
  credits : SMap Nat := []
  spent : SMap Nat := []
  queues : SMap (List (List Byte)) := []
  turn : Nat := 3
  lanes : SMap LaneIn := []
  heard : SMap Nat := []
  deriving DecidableEq, Repr

/-- A packet sent and not acknowledged (13 R329): times of the first and the last sending, the core and queue of its
transfer (13 R335), what a CTRL packet says. -/
structure PktTx where
  pkt : Pkt
  first : Nat
  since : Nat
  own : Option (Nat × Nat) := none
  msg : Option (Nat × SpanMsg) := none
  deriving DecidableEq, Repr

/-- A peer (13 R329, R330): reachable, lost, when it was last heard, L_m in ns. -/
structure MPeer where
  reach : Bool := false
  lost : Bool := false
  last : Option Nat := none
  lat : Nat := 0
  deriving DecidableEq, Repr

/-- A remote window (13 R334, R337): 0 CLOSED, 1 OPEN, 2 CLOSING. -/
structure RWin where
  st : Nat := 0
  gen : Nat := 1
  err : Bool := false
  desc : BitVec 256 := 0
  deriving DecidableEq, Repr

/-- An accepted WRITE in flight (13 R336): its source, lane, number and window, when its header came, its header where
its last unit has arrived. -/
structure Flight where
  src : Nat
  lane : Nat
  e2e : Nat
  win : Nat
  since : Nat
  whole : Bool := false
  deriving DecidableEq, Repr

/-- A packet that waits for its turn in e2e order: the packet, or a refused one (13 R328). -/
structure InPkt where
  pkt : Pkt
  refused : Option Nat := none
  msg : Option (Nat × SpanMsg) := none
  deriving DecidableEq, Repr

/-- The links (13): ports, unacknowledged packets, next numbers by peer x 4 + lane, numbers expected and reorder buffers by
the same, the last refusals by the same with their code, peers, windows, in-flight WRITEs, the next port in rotation, the next tag, packets of reserved kinds, what other modules have sent of images: source, partition, message;
reduction flits at an edge link that wait for the rest of their round (R332). -/
structure MlkSt where
  ports : SMap MPort := []
  tx : List PktTx := []
  next : SMap Nat := []
  want : SMap Nat := []
  held : SMap (List InPkt) := []
  refused : SMap (List (Nat × Nat)) := []
  peers : SMap MPeer := []
  wins : SMap RWin := []
  flights : List Flight := []
  rot : Nat := 0
  tag : Nat := 0
  badKinds : Nat := 0
  recv : List (Nat × Nat × SpanMsg) := []
  redOut : List Flit := []
  deriving DecidableEq, Repr

end Sys2Proof.Machine
end

