-- ==== Sys2Proof/Machine/StPwr.lean ====
section
/-! DEFINITION. Plain-data types of power, clocks and cooling (14, 15). Temperatures are in thousandths of a degree where
the governor computes them, in tenths where a sensor reads them. -/

namespace Sys2Proof.Machine

/-- An island (15 R359-R368): ring-oscillator reading and its offset, failed and disagree marks with the times since which
the pair has differed or agreed, power in mW, forecast and model estimate, thermal cap, since when it is hot at cap 0,
tripped, since when it is cool, heater mode. -/
structure Isl where
  ro : Int := 0
  ofs : Int := 0
  roFail : Bool := false
  disagree : Bool := false
  diffSince : Option Nat := none
  okSince : Option Nat := none
  mw : Nat := 0
  fcst : Int := 0
  model : Int := 0
  tcap : Nat := 15
  hotSince : Option Nat := none
  tripped : Bool := false
  coolSince : Option Nat := none
  heater : Bool := false
  deriving DecidableEq, Repr

/-- A turn-on of a region of a tile (14 R352, R353): a local index, 144 + cluster, or 153 + local index for a router
island; since when it waits, when its stages began, whether it runs four times slower,
whether a turn-off has come for it meanwhile. -/
structure TurnOn where
  region : Nat
  waitFrom : Option Nat := none
  start : Nat := 0
  slow : Bool := false
  off : Bool := false
  deriving DecidableEq, Repr

/-- A tile: heat state (0 none, 1 MOVING, 2 HEAT_DARK), caps of R345, when a generator in holdover retries, islands
whose cap was lowered (latest first), turn-ons (the first runs), regions isolated, since when its diodes are cool, start
of a recalibration, trough and peak of the thermal cycle, clusters in heater mode, whether 0x5055 has been raised, the mask of a TILE_RESET
that is running and whether its islands have been switched off, the slice for whose failure the next governor period acts on the
tile's whole set (14 R343), the setpoint in effect in mV (R341, R347). -/
structure TileP where
  heat : Nat := 0
  sliceCap : Nat := 15
  contactCap : Nat := 15
  powerCap : Nat := 15
  clockCap : Nat := 15
  retryAt : Nat := 0
  lowered : List Nat := []
  seqs : List TurnOn := []
  iso : List Nat := []
  coolAt : Option Nat := none
  recalAt : Option Nat := none
  trough : Option Nat := none
  peak : Option Nat := none
  heaters : Nat := 0
  noMove : Bool := false
  reset : Option Nat := none
  begun : Bool := false
  sliceDue : Option Nat := none
  rail : Nat := 0
  deriving DecidableEq, Repr

/-- Since when a rail's excess drop is above warn_mv and above trip_mv, and whether that has been acted on (14 R355). -/
structure RailT where
  warnSince : Option Nat := none
  tripSince : Option Nat := none
  warned : Bool := false
  tripped : Bool := false
  deriving DecidableEq, Repr

/-- Power and cooling: islands, tiles, rails; tiles whose power cap was lowered (latest first), since when power is below
98 per cent of the cap; flow samples of the last 100 ms, inlet and outlet, since when the present state's way back holds,
since when the inlet is above 45 degrees, start of a shutdown; the tiles whose rail-off is due. -/
structure PwrSt where
  isl : SMap Isl := []
  tile : SMap TileP := []
  rails : SMap RailT := []
  order : List Nat := []
  lowSince : Option Nat := none
  flows : List (Nat × Nat) := []
  tin : Nat := 0
  tout : Nat := 0
  okSince : Option Nat := none
  hotSince : Option Nat := none
  shutAt : Option Nat := none
  railOff : List Nat := []
  deriving DecidableEq, Repr

end Sys2Proof.Machine
end

