-- ==== Sys2Proof/Machine/State.lean ====
section
/-! DEFINITION. The state of the block: everything the spec gives the module, as plain data, and the state right
after power is applied. -/

namespace Sys2Proof.Machine

/-- Why the machine stops with a fault. -/
inductive Fault where
  /-- Raised by a command that names a unit the module does not have: a site, tile, port, controller, partition, page
  or address outside the ranges of the spec. Safe: the command is ill formed, no agent can send it. -/
  | noSuchUnit
  deriving DecidableEq, Repr

/-- Why a command has no meaning. -/
inductive Refusal where
  /-- Raised by an arm of `exec` whose command is not modelled yet. Safe. -/
  | notModelled (mnemonic : String)
  deriving DecidableEq, Repr

/-- The state of the module. `regs` holds the register words that differ from their reset value (`regKey`), `shadow`
the shadows that differ from them and `fresh` the bits of S fields written since the last commit (02 R41), `stage64` and `snap64` the latches of 02 R46 and R47 by agent and key; `b0` is the
stepping that its fuses give: true B0, false A1 (00 R2, 07 GLB_STEPPING; notes/assumptions/60.md). -/
structure State where
  now : Nat
  regs : SMap W32
  shadow : SMap W32
  fresh : SMap W32
  blocks : SMap Block
  stage64 : SMap W32
  snap64 : SMap W32
  paths : SMap EvtPath
  host : HostSt
  mbx : MbxSt
  serv : ServSt
  parts : SMap Part
  spec : SpecSt
  kv : SMap KvPool
  we : WeSt
  mem : MemSt
  cores : SMap Core
  fab : FabSt
  mlk : MlkSt
  pwr : PwrSt
  fr : FrSt
  rp : RpSt
  led : LedSt
  mg : MgmtSt
  b0 : Bool
  out : List Out
  free : Nat
  pending : List Instr
  deriving DecidableEq, Repr

/-- The module right after power is applied, before its ROM has run: every register at its reset value, nothing in
any memory, every queue empty. -/
def State.reset : State where
  now := 0
  regs := []
  shadow := []
  fresh := []
  blocks := []
  stage64 := []
  snap64 := []
  paths := []
  host := {}
  mbx := {}
  serv := {}
  parts := []
  spec := {}
  kv := []
  we := {}
  mem := {}
  cores := []
  fab := {}
  mlk := {}
  pwr := {}
  fr := {}
  rp := {}
  led := {}
  mg := {}
  b0 := true
  out := []
  free := 0
  pending := []

end Sys2Proof.Machine
end

