-- ==== Sys2Proof/Machine/Ops.lean ====
section
/-! DEFINITION. The shared operations over the state: the frame in which every command runs, register words, block
headers and errors (02 R34-R44, R460), event records and the paths they are offered to (17 R411-R416), MSI-X
messages (02 R462), free values. -/

namespace Sys2Proof.Machine

/-! ### Frames -/

def State.withPending (s : State) (q : List Instr) : State := { s with pending := q }

/-- One tick of the 25 MHz crystal (17 R398): what a step does while no command is pending (notes/assumptions/1.md). -/
def State.idle (s : State) : State := { s with now := (s.now + 40) % 2 ^ 64 }

/-- What running a command answers. -/
abbrev Res := Host.Outcome State Fault Refusal

/-- A command's effect: device time and the queue are not its to change (17 R398). -/
def run (f : State → State) (s : State) : Res :=
  .next { f s with now := s.now, pending := s.pending }

/-- As `run`, on a unit that exists; a command that names none stops with `noSuchUnit`. -/
def act (ok : Bool) (f : State → State) (s : State) : Res :=
  if ok then run f s else .fault .noSuchUnit

/-- `f` where the condition holds; otherwise the command finds nothing to do (notes/assumptions/2.md). -/
def when (c : Bool) (f : State → State) (s : State) : State := if c then f s else s

def State.emit (s : State) (o : Out) : State := { s with out := s.out ++ [o] }

/-- An entry of the ledger's in-service fault list, which has 65,536 (17 R418). -/
def State.enterFault (s : State) (loc : FaultLoc) (code : Nat) : State :=
  let e : FaultEnt := { loc := loc, code := code, time := s.now }
  { s with led := { s.led with faultList := List.take 65536 (s.led.faultList ++ [e]) } }

/-- Draw the next free value: the index that `Config`'s constants are applied to (notes/assumptions/4.md). -/
def State.draw (s : State) : State := { s with free := s.free + 1 }

/-! ### Agents (02 R49) -/

def agAmp : Nat := 0x0001
def agStw : Nat := 0x0002
def agBmc : Nat := 0x0003
def agHost : Nat := 0x0010
def agCore (site : Nat) : Nat := 0x1000 + site
def agentOk (ag : Nat) : Bool := ag = 1 || ag = 2 || ag = 3 || ag = 0x10 || (0x1000 ≤ ag && decide (ag < 0x1000 + sites))

/-! ### Register words -/

/-- The page kind of a register key, and what the word resets to. The 2^14 units of the remote map (13 R335) reach into
the page numbers behind the group page, where no page is. -/
def keyReset (key : Nat) : W32 :=
  match pageInfo (key / 2 ^ 20) with
  | none => if pgGroup < key / 2 ^ 20 ∧ key / 2 ^ 20 < pgGroup + 64 then resetWord .group (key % 2 ^ 12) else 0
  | some (k, _) => resetWord k (key % 2 ^ 12)

def State.regK (s : State) (key : Nat) : W32 := SMap.get s.regs (keyReset key) key
def State.setRegK (s : State) (key : Nat) (v : W32) : State :=
  { s with regs := SMap.set s.regs (keyReset key) key v }

/-- The value in force of the register word at page `pg`, unit `u`, offset `off`. -/
def State.reg (s : State) (pg u off : Nat) : W32 := s.regK (regKey pg u off)
def State.regN (s : State) (pg u off : Nat) : Nat := (s.reg pg u off).toNat
def State.setReg (s : State) (pg u off : Nat) (v : W32) : State := s.setRegK (regKey pg u off) v
def State.setRegN (s : State) (pg u off v : Nat) : State := s.setReg pg u off (BitVec.ofNat 32 v)

/-- A field of a register word. -/
def State.fld (s : State) (pg u off lo w : Nat) : Nat := bitsOf (s.regN pg u off) lo w
def State.setFld (s : State) (pg u off lo w x : Nat) : State :=
  s.setRegN pg u off (putBits (s.regN pg u off) lo w x)

/-- A 64-bit register as its two words. -/
def State.reg64 (s : State) (pg u off : Nat) : Nat := s.regN pg u off + 2 ^ 32 * s.regN pg u (off + 4)
def State.setReg64 (s : State) (pg u off v : Nat) : State :=
  (s.setRegN pg u off v).setRegN pg u (off + 4) (v / 2 ^ 32)

/-- Add to a counter that wraps at 2^32. -/
def State.bump (s : State) (pg u off : Nat) (n : Nat := 1) : State :=
  s.setReg pg u off (s.reg pg u off + BitVec.ofNat 32 n)

/-! ### Block headers -/

def State.blk (s : State) (pg : Nat) : Block := SMap.get s.blocks {} pg
def State.setBlk (s : State) (pg : Nat) (b : Block) : State := { s with blocks := SMap.set s.blocks {} pg b }
def State.modBlk (s : State) (pg : Nat) (f : Block → Block) : State := s.setBlk pg (f (s.blk pg))

def Cls.code : Cls → Nat
  | .s => 0 | .e => 1 | .l => 2 | .n => 3

/-- One CFG_REJECT record: offset, class and reason of the last, the saturating count, valid, and ERR_STAT bit 31
(02 R38, R40). -/
def Block.reject (b : Block) (off cls reason : Nat) : Block :=
  let n := satInc (bitsOf b.cfgRej.toNat 16 15) 0x7FFF
  { b with
    cfgRej := BitVec.ofNat 32 (off % 4096 + cls * 2 ^ 12 + reason * 2 ^ 14 + n * 2 ^ 16 + 2 ^ 31)
    errStat := b.errStat ||| 0x80000000#32 }

def State.reject (s : State) (pg off cls reason : Nat) : State := s.modBlk pg fun b => b.reject off cls reason

/-! ### MSI-X (02 R462) -/

/-- A table entry; mask bit 1 until written (notes/assumptions/8.md). -/
def msixReset : BitVec 128 := BitVec.ofNat 128 (2 ^ 96)
def State.msixEntry (s : State) (v : Nat) : BitVec 128 := SMap.get s.host.msixTab msixReset v
def msixHeld (s : State) (v : Nat) : Bool := s.host.msixFMask || (s.msixEntry v).getLsbD 96

/-- Send a vector's message, or set its pending bit while a mask holds it back. -/
def State.msix (s : State) (v : Nat) : State :=
  if msixHeld s v then { s with host := { s.host with msixPend := SMap.set s.host.msixPend false v true } }
  else s.emit (.msix v (s.msixEntry v))

/-! ### Ring descriptors (03 R60) -/

def dBits (d : BitVec 256) (lo w : Nat) : Nat := bitsOf d.toNat lo w
def dBase (d : BitVec 256) : Nat := dBits d 0 64
def dLog2 (d : BitVec 256) : Nat := dBits d 64 5
def dKind (d : BitVec 256) : Nat := dBits d 72 2
def dFmt (d : BitVec 256) : Nat := dBits d 74 2
def dLoc (d : BitVec 256) : Nat := dBits d 76 1
def dVec (d : BitVec 256) : Nat := dBits d 80 11
def dIrq (d : BitVec 256) : Bool := dBits d 95 1 = 1
def dCoCount (d : BitVec 256) : Nat := dBits d 96 8
def dCoUs (d : BitVec 256) : Nat := dBits d 112 16
def dRestrict (d : BitVec 256) : Nat := dBits d 128 16
def dAux (d : BitVec 256) : Nat := dBits d 160 20
def dAuxValid (d : BitVec 256) : Bool := dBits d 191 1 = 1
def dWb (d : BitVec 256) : Nat := dBits d 192 64
/-- An event ring's class mask admits class `c`; bit 8 admits traces. -/
def dAdmits (d : BitVec 256) (c : Nat) : Bool := dBits d (160 + c) 1 = 1
def dTraces (d : BitVec 256) : Bool := dBits d 168 1 = 1
/-- Entry size by kind: submission 128, token output 16, event 32 (03 R59). -/
def dEntry (d : BitVec 256) : Nat := if dKind d = 0 then 128 else if dKind d = 1 then 16 else 32

/-! ### Events (17 R411-R416) -/

def alarmCodes : List Nat := [0x4022, 0x4028, 0x4029, 0x4078, 0x5003, 0x5011, 0x5020, 0x5021, 0x5030, 0x5032, 0x5051, 0x5055,
  0x5062, 0x5063, 0x5070, 0x5082, 0x5083, 0x6020]
def traceCodes : List Nat := [0x3002, 0x4024, 0x6011, 0x6021]
def warnCodes : List Nat := [0x2001, 0x2006, 0x2030, 0x2031, 0x3008, 0x4023, 0x4025, 0x4026, 0x4040, 0x4052, 0x4075,
  0x4079, 0x5001, 0x5002, 0x5010, 0x5012, 0x5031, 0x5040, 0x5052, 0x5053, 0x5054, 0x5060, 0x5061, 0x6012, 0x6023]

/-- Severity of a code (17 R412): 0 trace, 1 notice, 2 warning, 3 error, 4 alarm (notes/assumptions/9.md). -/
def sevOf (code : Nat) : Nat :=
  if 0x7000 ≤ code || alarmCodes.contains code then 4
  else if traceCodes.contains code then 0
  else if code = 0x4071 || code = 0x4076 then 1
  else if warnCodes.contains code then 2
  else 3

/-- Bytes 8-11 of a record raised by a page's block: its agent, or 0x4000 + type; its instance (17 R411, 02 R49). -/
def eventSrc (k : PKind) (n : Nat) : Nat :=
  let a := match k with
    | .serv | .epoch | .acc | .kv | .sched | .replay => agStw
    | .core => agCore n
    | _ => 0x4000 + k.type
  a + pageInstance k n * 2 ^ 16

def pageSrc (pg : Nat) : Nat :=
  match pageInfo pg with
  | some (k, n) => eventSrc k n
  | none => agAmp

/-- Remove the oldest trace of a queue. -/
def dropTrace : List Event → Option (List Event)
  | [] => none
  | e :: r => if e.sev = 0 then some r else (dropTrace r).map fun q => e :: q

def EvtPath.discard (p : EvtPath) (e : Event) (now : Nat) : EvtPath :=
  { p with
    lostN := if e.sev = 0 then p.lostN else p.lostN + 1
    lostT := if e.sev = 0 then p.lostT + 1 else p.lostT
    lostA := if e.sev = 4 then p.lostA + 1 else p.lostA
    firstLost := some (p.firstLost.getD now) }

/-- A record meets a path's queue (17 R415): `cap` entries, and `pcap` in the priority queue where there is one. -/
def EvtPath.enqueue (cap pcap now : Nat) (p : EvtPath) (e : Event) : EvtPath :=
  if e.sev = 4 ∧ 0 < pcap then
    (if p.prio.length < pcap then { p with prio := p.prio ++ [e] } else p.discard e now)
  else if p.queue.length < cap then { p with queue := p.queue ++ [e] }
  else match dropTrace p.queue with
    | some q => { (p.discard { e with sev := 0 } now) with queue := q ++ [e] }
    | none => p.discard e now

def EvtWin.countRecord (w : EvtWin) : Event :=
  { time := w.lastOm, src := w.src, code := w.code, sev := w.sevMax, flags := 1,
    data := BitVec.ofNat 128 (w.omitted % 2 ^ 32 + w.firstOm % 2 ^ 64 * 2 ^ 32) }

/-- A window closes: its count record, then the held records with flag 2 (17 R414). -/
def EvtPath.closeWin (cap pcap now : Nat) (p : EvtPath) (w : EvtWin) : EvtPath :=
  let p1 := if w.omitted = 0 then p else p.enqueue cap pcap now w.countRecord
  (w.held.map fun e => { e with flags := e.flags ||| 4 }).foldl (fun q e => q.enqueue cap pcap now e) p1

/-- The 17th record of a window and later: the latest 16 are held, a displaced one is omitted (17 R414). -/
def EvtWin.hold (w : EvtWin) (e : Event) : EvtWin :=
  match w.held with
  | [] => { w with count := w.count + 1, held := [e] }
  | o :: r =>
    if w.held.length < 16 then { w with count := w.count + 1, held := w.held ++ [e] }
    else { w with
      count := w.count + 1, held := r ++ [e], omitted := w.omitted + 1, sevMax := Nat.max w.sevMax o.sev,
      firstOm := if w.omitted = 0 then o.time else w.firstOm, lastOm := o.time }

def winFor (e : Event) (w : EvtWin) : Bool := w.src = e.src && w.code = e.code

/-- One second, in ns. -/
def sec : Nat := 1000000000
def ms : Nat := 1000000
def us : Nat := 1000

/-- Close the windows whose second is over. -/
def EvtPath.closeDue (cap pcap now : Nat) (p : EvtPath) : EvtPath :=
  (p.wins.filter fun w => decide (w.opened + sec ≤ now)).foldl (fun q w => q.closeWin cap pcap now w)
    { p with wins := p.wins.filter fun w => decide (now < w.opened + sec) }

/-- A record is offered to a path that admits it (17 R414, R415). -/
def EvtPath.offer (cap pcap now : Nat) (p0 : EvtPath) (e : Event) : EvtPath :=
  if e.sev = 0 ∨ e.code = 0x4070 ∨ (e.sev = 4 ∧ 0 < pcap) then p0.enqueue cap pcap now e
  else
    let p := p0.closeDue cap pcap now
    match p.wins.find? (winFor e) with
    | some w =>
      if w.count < 16 then
        { (p.enqueue cap pcap now e) with
          wins := p.wins.map fun v => if winFor e v then { v with count := v.count + 1 } else v }
      else { p with wins := p.wins.map fun v => if winFor e v then v.hold e else v }
    | none =>
      let p1 := match p.wins with
        | o :: r => if p.wins.length < 1024 then p else ({ p with wins := r } : EvtPath).closeWin cap pcap now o
        | [] => p
      let w : EvtWin := ⟨e.src, e.code, now, 1, [], 0, 0, 0, 0⟩
      { (p1.enqueue cap pcap now e) with wins := p1.wins ++ [w] }

/-- Path numbers: 0 the BMC, 1 the ledger, 2 + r event ring r; with their queue sizes (17 R413). -/
def pathCap (p : Nat) : Nat := if p = 0 then 4096 else if p = 1 then 16384 else 1024
def pathPrio (p : Nat) : Nat := if p = 0 then 256 else 0

def State.offerTo (s : State) (p : Nat) (e : Event) : State :=
  { s with paths := SMap.upd s.paths {} p fun q => q.offer (pathCap p) (pathPrio p) s.now e }

def bmcMin (s : State) : Nat := s.fld pgMgmt 0 0x120 0 3
def ledgerMin (s : State) : Nat := s.fld pgMgmt 0 0x120 4 3

/-- The open event rings that take a record by class mask and trace bit (17 R413). -/
def admitting (s : State) (e : Event) : List Nat :=
  (s.serv.rings.filter fun r =>
    decide (dKind r.2.desc = 2) && !r.2.closing && dAdmits r.2.desc (e.code / 4096) &&
    (decide (e.sev ≠ 0) || dTraces r.2.desc)).map (·.1)

/-- The ledger path; the last 1,024 records offered to it go into a crash record (17 R410). -/
def State.toLedger (s : State) (e : Event) : State :=
  let s1 := s.offerTo 1 e
  { s1 with led := { s1.led with recent := (s1.led.recent ++ [e]).drop (s1.led.recent.length + 1 - 1024) } }

/-- Offer a record to every path that admits it; `only` limits its event rings to the one given, if it is open
(17 R413). An alarm-class record fires vector 32 (02 R33). -/
def State.offer (s : State) (e : Event) (only : Option (Option Nat) := none) : State :=
  let rings := match only with
    | none => admitting s e
    | some none => []
    | some (some r) =>
      match SMap.find s.serv.rings r with
      | some g => if dKind g.desc = 2 && !g.closing then [r] else []
      | none => []
  let s1 := if e.sev ≠ 0 ∧ bmcMin s ≤ e.sev then s.offerTo 0 e else s
  let s2 := if e.sev ≠ 0 ∧ ledgerMin s ≤ e.sev then s1.toLedger e else s1
  let s3 := rings.foldl (fun t r => t.offerTo (2 + r) e) s2
  if e.sev = 4 then s3.msix 32 else s3

/-- What the copy of device time at a sideband node shows now (17 R399). -/
def State.nodeNow (s : State) (n : Nat) : Nat := match SMap.find s.mg.nodeTime n with
  | some e => e.1 + (s.now - e.2)
  | none => s.now

/-- Raise an event from source `src`, counted in the EVT_CNT of page `pg` and stamped at its block's node (17 R399). -/
def State.raiseFrom (s : State) (pg src code : Nat) (data : BitVec 128) (only : Option (Option Nat) := none) : State :=
  let s1 := s.modBlk pg fun b => { b with evtCnt := b.evtCnt + 1 }
  s1.offer { time := s.nodeNow (pageNode pg), src := src, code := code, sev := sevOf code, flags := 0, data := data } only

/-- Raise an event of a page's own block. -/
def State.raise (s : State) (pg code : Nat) (data : BitVec 128 := 0) : State := s.raiseFrom pg (pageSrc pg) code data

/-- Record an error in a header (02 R39): the first loads ERR_FIRST, ERR_INFO and ERR_LOC, later ones count. -/
def Block.error (b : Block) (bit code : Nat) (loc : W64) (info : W32) : Block :=
  let b1 := { b with errStat := b.errStat ||| (1#32 <<< bit) }
  if b.errStat &&& 0x7FFFFFFF#32 = 0 then
    { b1 with errFirst := BitVec.ofNat 32 (code % 2 ^ 16), errInfo := info, errLoc := loc }
  else
    let n := satInc (bitsOf b.errFirst.toNat 16 16) 0xFFFF
    { b1 with errFirst := BitVec.ofNat 32 (putBits b.errFirst.toNat 16 16 n) }

/-- An ERR_STAT bit sets with its event (02 R38, R39, R460): ERR_MASK suppresses the event unless it is of alarm class;
`quiet` for a bit whose event another block raises, `only` for events bound to one event ring. -/
def State.err (s : State) (pg bit code : Nat) (loc : Nat := 0) (data : BitVec 128 := 0) (quiet : Bool := false)
    (only : Option (Option Nat) := none) : State :=
  let masked := (s.blk pg).errMask.getLsbD bit && decide (sevOf code ≠ 4)
  let s1 := s.modBlk pg fun b => b.error bit code (BitVec.ofNat 64 loc) (data.truncate 32)
  if quiet || masked then s1 else s1.raiseFrom pg (pageSrc pg) code data only

/-- Little-endian packing of event data fields: (byte offset, value). -/
def pack (l : List (Nat × Nat)) : BitVec 128 := BitVec.ofNat 128 (l.foldl (fun a e => a + e.2 * 2 ^ (8 * e.1)) 0)

end Sys2Proof.Machine
end

