-- ==== Sys2Proof/Machine/Ports.lean ====
section
/-! DEFINITION. The ports of a scratchpad: bank groups, banks, word indexes, beats and their counters (09 R235-R247). -/

namespace Sys2Proof.Machine

def bankGroup (e : Nat) : Nat := e / 64 / 2048
def bankOf (e : Nat) : Nat := (e / 64 + e % 64) % 16

/-- The word index of an element in its bank (R236). -/
def wordIndex (e : Nat) : Nat := 4 * (e / 64 % 2048) + e % 64 / 16

/-- Groups 0-5, 16 banks each, 8,192 words each (R235). -/
def BankAddr.ok (a : BankAddr) : Bool := decide (a.grp < 6) && decide (a.bank < 16) && decide (a.word < 8192)

/-- The element that a bank holds at a word index: its row, and in the run of 16 columns the one of that diagonal. -/
def BankAddr.elem (a : BankAddr) : Nat :=
  let row := 2048 * a.grp + a.word / 4
  64 * row + 16 * (a.word % 4) + (a.bank + 16 - row % 16) % 16

/-- Elements that `n` bytes at an address touch. -/
def byteElems (a n : Nat) : List Nat := (List.range ((a + n - 1) / 32 - a / 32 + 1)).map fun k => a / 32 + k

/-- Those of them that a write of the bytes covers in part (R240). -/
def partElems (a n : Nat) : List Nat := (byteElems a n).filter fun e => decide (32 * e < a) || decide (a + n < 32 * e + 32)

/-- The next beat of a port's elements: at most 16, in one group. -/
def beatOf (l : List Nat) : List Nat := match l with
  | [] => []
  | e :: _ => (l.take 16).takeWhile fun x => bankGroup x = bankGroup e

/-- Split a port's elements into beats. -/
def beats : (fuel : Nat) → List Nat → List (List Nat)
  | 0, _ => []
  | f + 1, l => if l.isEmpty then [] else let b := beatOf l; b :: beats f (l.drop (Nat.max 1 b.length))

/-- How many elements of a beat fall in each bank where that is 2 or more. -/
def conflicts (b : List Nat) : List (Nat × Nat) :=
  ((List.range 16).map fun k => (k, (b.filter fun e => bankOf e = k).length)).filter fun e => 2 ≤ e.2

/-- Count one beat at port `far` (0 near, 1 far). -/
def countBeat (site far : Nat) (b : List Nat) (s : State) : State :=
  let p := pgCore site
  let c := conflicts b
  let x := c.foldl (fun a e => Nat.max a (e.2 - 1)) 0
  let s1 := (s.bump p 0 (0x318 + 4 * far)).bump p 0 (0x320 + 4 * far) x
  c.foldl (fun t e => t.bump p 0 (0x400 + 4 * (16 * bankGroup (b.headD 0) + e.1)) (e.2 - 1)) s1

/-- The beats of an operand at both ports, counted while CORE_SPAD_CNT_CTRL.en is 1 (R238, R246). -/
def countOperand (site : Nat) (es : List Nat) (s : State) : State :=
  if s.fld (pgCore site) 0 0x314 0 1 = 0 then s
  else
    let near := es.filter fun e => bankGroup e = 0
    let far := es.filter fun e => bankGroup e ≠ 0
    let s1 := (beats near.length near).foldl (fun t b => countBeat site 0 b t) s
    (beats far.length far).foldl (fun t b => countBeat site 1 b t) s1

/-- Operands of one command at the ports, one after the other: no beat holds elements of two (R237). -/
def countOperands (site : Nat) (l : List (List Nat)) (s : State) : State := l.foldl (fun t es => countOperand site es t) s

/-- The beats of a write of `n` bytes: a read beat of the elements it covers in part, then the write beats (R240). -/
def storeBeats (site a n : Nat) (s : State) : State := countOperands site [partElems a n, byteElems a n] s

end Sys2Proof.Machine
end

