-- ==== Sys2Proof/Machine/Fp.lean ====
section
/-! DEFINITION. Binary floating-point formats with infinities and NaN (08 R213-R219): exact decoding and
round-to-nearest-even encoding. -/

namespace Sys2Proof.Machine

/-- A decoded number: NaN, an infinity, or plus or minus m times 2 to the e. -/
inductive Fp where
  | nan
  | inf (neg : Bool)
  | fin (neg : Bool) (m : Nat) (e : Int)
  deriving DecidableEq, Repr

/-- Decode a format with `ew` exponent and `mw` fraction bits. -/
def fpDecode (ew mw bits : Nat) : Fp :=
  let neg := bits / 2 ^ (ew + mw) % 2 = 1
  let ex := bits / 2 ^ mw % 2 ^ ew
  let fr := bits % 2 ^ mw
  let bias : Int := 2 ^ (ew - 1) - 1
  if ex = 2 ^ ew - 1 then (if fr = 0 then .inf neg else .nan)
  else if ex = 0 then .fin neg fr (1 - bias - mw)
  else .fin neg (2 ^ mw + fr) (ex - bias - mw)

/-- `m / 2^d` rounded to nearest, ties to even; `sticky` says that the exact value lies strictly above `m`. -/
def rneShift (m d : Nat) (sticky : Bool) : Nat :=
  let q := m / 2 ^ d
  let r := m % 2 ^ d
  if d = 0 then q
  else if 2 ^ d < 2 * r ∨ (2 * r = 2 ^ d ∧ (sticky = true ∨ q % 2 = 1)) then q + 1 else q

/-- The quantum exponent of m times 2 to the e in a format: that of its last place, not below the subnormals'. -/
def fpQuantum (ew mw m : Nat) (e : Int) : Int :=
  max (Nat.log2 m + e - mw) (2 - 2 ^ (ew - 1) - mw)

/-- Assemble a rounded significand at quantum `q`; past the largest finite value it is an infinity. -/
def fpPack (ew mw : Nat) (neg : Bool) (mant : Nat) (q : Int) : Nat :=
  let sgn := if neg then 2 ^ (ew + mw) else 0
  let mant' := if 2 ^ (mw + 1) ≤ mant then mant / 2 else mant
  let q' := if 2 ^ (mw + 1) ≤ mant then q + 1 else q
  if mant' < 2 ^ mw then sgn + mant'
  else
    let ex := (q' + mw + (2 ^ (ew - 1) - 1)).toNat
    if 2 ^ ew - 1 ≤ ex then sgn + (2 ^ ew - 1) * 2 ^ mw
    else sgn + ex * 2 ^ mw + (mant' - 2 ^ mw)

/-- Round the exact value m times 2 to the e (slightly more, if `sticky`) to the format. -/
def fpRound (ew mw : Nat) (neg : Bool) (m : Nat) (e : Int) (sticky : Bool := false) : Nat :=
  if m = 0 then (if neg then 2 ^ (ew + mw) else 0)
  else
    let q := fpQuantum ew mw m e
    if q ≤ e then fpPack ew mw neg (m * 2 ^ (e - q).toNat) q
    else fpPack ew mw neg (rneShift m (q - e).toNat sticky) q

/-- The canonical NaN: quiet, positive (08 R214). -/
def fpNan (ew mw : Nat) : Nat := (2 ^ ew - 1) * 2 ^ mw + 2 ^ (mw - 1)

def fpInf (ew mw : Nat) (neg : Bool) : Nat := (if neg then 2 ^ (ew + mw) else 0) + (2 ^ ew - 1) * 2 ^ mw

/-- Encode a decoded number in a format. -/
def fpEncode (ew mw : Nat) : Fp → Nat
  | .nan => fpNan ew mw
  | .inf neg => fpInf ew mw neg
  | .fin neg m e => fpRound ew mw neg m e

end Sys2Proof.Machine
end

