-- ==== Sys2Proof/Machine/Views.lean ====
section
/-! DEFINITION. What the structured state reads as in registers, which unit a selector names (02 R461), and the values
that the fields' descriptions refuse (02 R40, ground 5). -/

namespace Sys2Proof.Machine

/-- The unit whose registers the word `off` reads and writes: the one the page's selector names (02 R461). -/
def unitOf (s : State) (pg : Nat) (k : PKind) (off : Nat) : Nat :=
  match k with
  | .kv => if (0x104 ≤ off ∧ off < 0x130) ∨ 0x180 ≤ off then s.fld pg 0 0x100 0 4 else 0
  | .epoch => if (0x104 ≤ off ∧ off < 0x110) ∨ 0x180 ≤ off then s.fld pg 0 0x100 0 4 else 0
  | .acc => if 0x104 ≤ off then s.fld pg 0 0x100 0 4 else 0
  | .sched => if 0x144 ≤ off ∧ off < 0x158 then s.fld pg 0 0x140 0 8 else 0
  | .group =>
    if off = 0x10C then s.fld pg 0 0x108 0 6
    else if off = 0x114 then s.fld pg 0 0x110 0 4
    else if off = 0x128 ∨ off = 0x150 then s.fld pg 0 0x120 0 8
    else if off = 0x164 then s.fld pg 0 0x160 0 6 * 256 + s.fld pg 0 0x160 8 8
    else 0
  | .pwrG => if off = 0x114 then s.fld pg 0 0x110 0 5 else 0
  | .fault => if off = 0x124 then s.fld pg 0 0x120 0 7 else 0
  | _ => 0

/-- The partition, or an unloaded one. -/
def State.part (s : State) (p : Nat) : Part := SMap.get s.parts {} p
def State.pool (s : State) (p : Nat) : KvPool := SMap.get s.kv {} p

/-- Coefficient registers of a stage that the partition does not have read 0 (04 R131). -/
def costAbsent (s : State) (k : PKind) (n off : Nat) : Bool :=
  decide (k = .sched) && decide (0x144 ≤ off) && decide (off < 0x158) &&
    decide ((s.part n).stages.length ≤ s.fld (pgSched n) 0 0x140 0 8)

/-- Step tokens in flight in a partition: at stages, on their way, leaving (04 R112), and at the members of a span. -/
def Part.inFlight (p : Part) : Nat :=
  p.transit.length + p.leaving.length + p.away.length + p.inbox.length +
    p.stages.foldl (fun n g => n + (if g.run.isSome then 1 else 0) + (if g.wait.isSome then 1 else 0)) 0

/-- Step slots of a partition that live requests hold, draft slots included (05 R136). -/
def slotsHeld (s : State) (p : Nat) : Nat :=
  (s.serv.reqs.filter fun r =>
    (r.2.slot.isSome && decide (((SMap.get s.serv.sess {} r.2.session).part) = p)) ||
      (r.2.dslot.isSome && decide (r.2.dpart = p))).length

/-- Pages of a pool in a state. -/
def KvPool.count (q : KvPool) (st : PageSt) : Nat := (q.pages.filter fun e => e.2.st = st).length
def KvPool.total (q : KvPool) : Nat := q.cores.foldl (fun n c => n + c.2.frames) 0

/-- The fused attention sites of a tile (06 R159). -/
def fusedSite (site : Nat) : Bool :=
  let p := (siteX site % 12, siteY site % 12)
  ([(1, 1), (5, 1), (9, 1), (1, 5), (9, 5), (1, 9), (5, 9), (9, 9)] : List (Nat × Nat)).contains p

/-- CORE_ID.kind of a site (07): 0 program core, 1 spare, 2 fused out, 3 failed; at manufacture local indices 128 to 143
are the spares (notes/assumptions/6.md). -/
def ledgerKind (s : State) (site : Nat) : Nat :=
  (SMap.find s.led.kinds site).getD (if siteLocal site < 128 then 0 else 1)

/-- A dark or fused tile's cores read kind 3 (14 R357). -/
def siteKind (s : State) (site : Nat) : Nat :=
  if ledgerKind s site < 2 ∧ 3 ≤ s.fld (pgPwrT (siteTile site)) 0 0x100 0 3 then 3 else ledgerKind s site

/-- The tile's sideband node serves the page (20 R456): a core whose island is off, the fabric page of a tile that is DARK
or FUSED. -/
def nodeServed (s : State) (pg : Nat) : Bool :=
  match pageInfo pg with
  | some (.core, n) => !(SMap.get s.cores {} n).on
  | some (.fab, t) => decide (3 ≤ s.fld (pgPwrT t) 0 0x100 0 3)
  | _ => false

/-- Offsets that the node does not hold: all but the header, and on a core page CORE_ID and the error counters. -/
def nodeHides (s : State) (pg off : Nat) : Bool :=
  nodeServed s pg && decide (0x100 ≤ off) &&
    !(decide (0x2000 ≤ pg) && decide (pg < 0x5000) && (off = 0x100 || off = 0x210 || off = 0x214))

/-- CORE_Q_OUT word `w`: unretired transfers of queues 6w to 6w + 5 (07). -/
def qOutWord (c : Core) (w : Nat) : Nat :=
  (List.range 6).foldl (fun a k => a + (SMap.get c.qs [] (6 * w + k)).length * 2 ^ (5 * k)) 0

/-- An island's limit: the lower of its thermal cap and the lowest of its tile's caps (14 R345). -/
def islandLimit (s : State) (site : Nat) : Nat :=
  let t := SMap.get s.pwr.tile {} (siteTile site)
  Nat.min (SMap.get s.pwr.isl {} site).tcap
    (Nat.min (Nat.min t.sliceCap t.contactCap) (Nat.min t.powerCap t.clockCap))

/-- Words that show structured state; none where the register word itself is the home. -/
def viewWord (s : State) (pg : Nat) (k : PKind) (n u off : Nat) : Option W32 :=
  match k with
  | .early =>
    if off = 0x100 then some (BitVec.ofNat 32 (s.fld pgGlob 0 0x100 0 4 + s.fld pg 0 0x100 16 16 * 2 ^ 16))
    else if off = 0x104 then some (s.reg pgGlob 0 0x100)
    else none
  | .mgmt =>
    if off = 0x108 then some (BitVec.ofNat 32 s.now)
    else if off = 0x10C then some (BitVec.ofNat 32 (s.now / 2 ^ 32))
    else if off = 0x124 then
      let b := SMap.get s.paths {} 0
      let l := SMap.get s.paths {} 1
      some (BitVec.ofNat 32 (b.queue.length + b.prio.length + l.queue.length * 2 ^ 16))
    else none
  | .glob =>
    if off = 0x104 then
      let h := s.host
      let st := s.fld pgGlob 0 0x100 0 4
      let on := h.trained && h.flit256 && decide (4 ≤ st) && decide (st ≤ 6)
      let bit (c : Bool) (i : Nat) : Nat := if c then 2 ^ i else 0
      some (BitVec.ofNat 32 (s.fld pg 0 0x104 0 8 + bit h.flit256 8 + bit on 9 + bit (on && h.decCommitted) 10 +
        bit h.ideIo.isSome 11 + bit h.ideCm.isSome 12 + bit h.ptmValid 13))
    else if off = 0x118 then
      let w := s.regN pg 0 0x118
      some (BitVec.ofNat 32 (bitsOf w 0 31 + (if bitsOf w 20 11 = 0 then 0 else 2 ^ 31)))
    else if off = 0x120 then
      some (if s.b0 then BitVec.ofNat 32 (1 + 0x42 * 2 ^ 8 + 0 * 2 ^ 16) else BitVec.ofNat 32 (0x41 * 2 ^ 8 + 1 * 2 ^ 16))
    else none
  | .sched =>
    let p := s.part n
    if off = 0x100 then
      some (BitVec.ofNat 32 (p.ps.code + p.holders * 2 ^ 8 + p.stages.length * 2 ^ 16 + p.draftOf * 2 ^ 24))
    else if off = 0x120 then some (BitVec.ofNat 32 (p.holders % 2))
    else if off = 0x138 then some (BitVec.ofNat 32 (p.inFlight + slotsHeld s n * 2 ^ 16))
    else none
  | .acc =>
    if off = 0x118 then
      let en := s.fld pgAcc u 0x104 4 1
      let d := s.fld pgAcc u 0x104 0 4
      let ready := en = 1 ∧ (s.part d).draftOf = u ∧ (s.part d).ps = .running
      let trees := (s.spec.trees.filter fun e => decide (e.1 / 4096 = u) && decide (0 < e.2.depth) && !e.2.committed).length
      some (BitVec.ofNat 32 ((if ready then 1 else 0) + trees * 2 ^ 16))
    else none
  | .kv =>
    let q := s.pool u
    if off = 0x110 then some (BitVec.ofNat 32 q.total)
    else if off = 0x114 then some (BitVec.ofNat 32 (q.total - q.pages.length))
    else if off = 0x118 then some (BitVec.ofNat 32 (q.count .shared))
    else if off = 0x11C then some (BitVec.ofNat 32 (q.count .lost))
    else if off = 0x120 then some (BitVec.ofNat 32 (q.fmt + q.slots * 2 ^ 8))
    else none
  | .epoch =>
    if off = 0x108 then
      let p := s.part u
      some (BitVec.ofNat 32 (p.epCur + p.epDrain * 2 ^ 8 + p.epOther * 2 ^ 16 + (if p.epFill then 2 ^ 24 else 0)
        + (if p.solstice.isSome then 2 ^ 25 else 0)))
    else none
  | .fault =>
    if off = 0x124 then
      let t := s.fld pgFault 0 0x120 0 7
      let n (k : Nat) : Nat := ((List.range 144).filter fun l => siteKind s (siteOf t l) = k).length
      some (BitVec.ofNat 32 (n 1 % 32 + n 3 % 32 * 2 ^ 8 + n 2 % 32 * 2 ^ 16))
    else none
  | .group =>
    if off = 0x10C then
      let q := SMap.get s.mlk.peers {} u
      let n := (s.mlk.ports.filter fun e => match SMap.find e.2.heard u with
        | some t => decide (s.now < t + s.fld pgGroup 0 0x104 12 20 * us)
        | none => false).length
      some (BitVec.ofNat 32 ((if q.reach then 1 else 0) + n % 32 * 2 + Nat.min q.lat 0xFFFF * 2 ^ 16))
    else if off = 0x128 then
      let w := SMap.get s.mlk.wins {} u
      some (BitVec.ofNat 32 (w.st + (if w.st = 2 then 4 else 0) + (if w.err then 8 else 0) + w.gen * 2 ^ 16))
    else none
  | .sec =>
    if off = 0x140 then
      some (BitVec.ofNat 32 (s.mg.sess.length + (if s.mg.operator.isSome then 8 else 0)))
    else if off = 0x144 then some (if s.mg.armedAt.isSome then 0x10000#32 else 0#32)
    else none
  | .core =>
    let c := SMap.get s.cores {} n
    if off = 0x110 then some (BitVec.ofNat 32 (s.fld pg 0 0x110 0 4 + islandLimit s n * 2 ^ 4))
    else if off = 0x100 then
      some (BitVec.ofNat 32 (siteX n + siteY n * 2 ^ 8 + (if fusedSite n then 2 ^ 15 else 0) + siteKind s n * 2 ^ 16))
    else if off = 0x10C then some (BitVec.ofNat 32 c.pc)
    else if off = 0x138 then
      let h := c.qs.foldl (fun a e => a + e.2.length) 0
      some (BitVec.ofNat 32 (h + h * 2 ^ 8))
    else if 0x140 ≤ off ∧ off < 0x150 then some (BitVec.ofNat 32 (qOutWord c ((off - 0x140) / 4)))
    else none
  | _ => none

/-- A field list when a condition refuses it. -/
def refuse (c : Bool) (lo : Nat) : List Nat := if c then [lo] else []

/-- Fields (by lowest bit) whose description refuses the value, or the state, of a write of `v` over `cur`. -/
def refusedFields (s : State) (pg : Nat) (k : PKind) (n u off cur v : Nat) : List Nat :=
  let b (lo w : Nat) : Nat := bitsOf v lo w
  match k with
  | .glob =>
    if off = 0x108 then refuse (256 < b 0 9) 0
    else if off = 0x10C then refuse (b 4 12 = 0) 4
    else if off = 0x140 then
      refuse (b 0 2 = 3) 0 ++ (if b 16 16 = 0x7A5E then [] else [0, 16])
    else []
  | .serv =>
    if off = 0x104 then refuse (b 0 4 = 0) 0 ++ refuse (b 4 2 = 3) 4
    else if off = 0x114 then refuse (s.fld pg 0 0x118 0 1 = 1) 0
    else if off = 0x144 then refuse (b 0 2 = 3) 0
    else []
  | .sched =>
    if off = 0x120 then
      if (s.part n).ps = .unloaded ∨ (s.part n).ps = .lost then [0, 1, 2]
      else if b 0 2 = 3 then [0, 1] else []
    else if off = 0x128 then refuse (b 16 7 = 0 || 64 < b 16 7) 16
    else if 0x144 ≤ off ∧ off < 0x158 then refuse (costAbsent s k n off) 0
    else []
  | .acc => if off = 0x104 then refuse ((s.part (b 0 4)).draftOf ≠ u) 0 else []
  | .kv =>
    if off = 0x104 then
      let top := if (s.part u).ps = .unloaded then 112 else (s.pool u).slots
      refuse (b 8 7 = 0 || top < b 8 7) 8 ++ refuse (b 16 16 < 64) 16
    else []
  | .core =>
    if off = 0x108 then refuse (b 0 3 ≠ 0) 0
    else if off = 0x114 then refuse (b 0 16 = 0) 0 ++ refuse (b 16 16 = 0) 16
    else if 0x120 ≤ off ∧ off < 0x130 then refuse (b 16 14 < b 0 14) 16
    else if 0x180 ≤ off ∧ off < 0x200 ∧ off % 16 = 8 then refuse (2 ≤ b 60 2) 60
    else []
  | .fab =>
    if off = 0x100 then refuse (b 0 16 = 0) 0 ++ refuse (b 16 4 = 0) 16
    else if off = 0x104 then refuse (b 0 16 = 0) 0 ++ refuse (b 16 8 = 0) 16
    else if off = 0x124 then refuse (b 0 2 = 3) 0
    else []
  | .map =>
    let open_ := s.fld pg 0 0x11C 0 2 ≠ 0
    if off = 0x110 then refuse open_ 16
    else if off = 0x118 then refuse (open_ || b 0 13 = 0 || 4096 < b 0 13) 0
    else if off = 0x11C then refuse (b 0 1 = 1 && s.fld pg 0 0x118 0 13 = 0) 0
    else if off = 0x130 then
      refuse ((b 12 2 = 2 && 63 < b 0 12) || (b 12 2 = 3 && 0 < b 0 12)) 0 ++ refuse (b 12 2 = 0) 12
    else []
  | .epoch =>
    if off = 0x140 then
      refuse (b 0 3 = 7 || (1 ≤ b 0 3 && b 0 3 ≤ 4 && s.fld pg 0 0x160 0 1 = 1) ||
        (b 0 3 = 5 && s.fld pg 0 0x160 2 1 = 0)) 0
    else if off = 0x148 then refuse (v % 64 ≠ 0) 0
    else if off = 0x164 then refuse (b 0 16 = 0) 0
    else []
  | .group =>
    if off = 0x104 then refuse (b 0 12 = 0) 0 ++ refuse (b 12 20 < b 0 12) 12
    else if off = 0x124 then refuse ((SMap.get s.mlk.wins {} (s.fld pg 0 0x120 0 8)).st = 2) 0
    else []
  | .pwrG =>
    if off = 0x104 then refuse (b 0 4 < 2) 0 ++ refuse (b 8 7 = 0 || 100 < b 8 7) 8
    else if off = 0x108 then refuse (27000 < b 0 16 || b 0 16 < 5000) 0
    else if off = 0x110 then refuse (17 < b 0 5) 0
    else if off = 0x118 then refuse (b 8 8 ≤ b 0 8) 8 ++ refuse (b 24 8 = 0) 24
    else []
  | .thmG =>
    if off = 0x108 then refuse (b 0 12 < 0x190 || 0x258 < b 0 12) 0 ++ refuse (25 < b 16 5) 16
    else if off = 0x110 then
      refuse (b 0 8 < 70 || 100 < b 0 8) 0 ++ refuse (b 8 4 = 0) 8 ++ refuse (b 16 16 = 0) 16
    else if off = 0x114 then refuse (b 8 8 < 30 || 70 < b 8 8) 8 ++ refuse (b 16 4 < 2) 16
    else []
  | .thmT => if off = 0x140 then refuse (143 < b 0 8) 0 else []
  | .fault =>
    if off = 0x100 then refuse (b 8 8 < 5) 8 ++ refuse (b 16 8 = 0) 16
    else if off = 0x120 then refuse (71 < b 0 7) 0
    else []
  | .mgmt =>
    if off = 0x104 then refuse (s.fld pgFault 0 0x108 0 1 = 1 || s.fld pgSec 0 0x140 4 1 = 1) 0
    else if off = 0x120 then refuse (4 < b 0 3) 0 ++ refuse (4 < b 4 3) 4
    else if off = 0x130 then refuse (64 < b 0 7) 0
    else []
  | .early => if off = 0x200 then refuse (4 < b 0 3) 0 else []
  | .replay =>
    if off = 0x110 then refuse (v % 32 ≠ 0) 0
    else if off = 0x11C then refuse (b 0 1 = 1 && s.fld pg 0 0x120 0 1 = 1) 0
    else []
  | .sec => if off = 0x110 then refuse (b 0 3 = 0 || b 0 3 = 7) 0 else []
  | .tile => if off = 0x100 then refuse (s.fld pg 0 0x100 16 1 = 1) 0 else []
  | _ => if cur = v then [] else []

end Sys2Proof.Machine
end

