-- ==== Sys2Proof/Machine/Regs.lean ====
section
/-! DEFINITION. Register reads and writes (02 R40-R48, 00 R6-R11, 20 R455-R457): what a word reads as, how a write is
judged field by field, shadows and the committed set. -/

namespace Sys2Proof.Machine

/-! ### Fields of a word -/

/-- The part of a field that lies in the low or the high word of its register: lowest bit there, width. -/
def Field.part (f : Field) (hi : Bool) : Nat × Nat :=
  if hi then (Nat.max f.lo 32 - 32, f.lo + f.w - Nat.max f.lo 32)
  else (f.lo, Nat.min f.w (32 - f.lo))

/-- A field that is written through a shadow: E, and S, which takes a write in STOPPED and RESET only (02 R41). -/
def shadowed (f : Field) : Bool := decide (f.cls = .e) || decide (f.cls = .s)

/-- Whether a field reads as its shadow: E always; S while it has been written and not yet committed, which its bits of `fresh`
say (00 R11, 02 R41). -/
def readsShadow (f : Field) (fresh lo w : Nat) : Bool := decide (f.cls = .e) || (decide (f.cls = .s) && decide (bitsOf fresh lo w ≠ 0))

/-- The bits of a word that shadows govern. -/
def RegDef.seMask (d : RegDef) (hi : Bool) : Nat :=
  d.fields.foldl (fun m f =>
    if (f.cls = .e ∨ f.cls = .s) ∧ f.acc = .rw then m + (2 ^ (f.part hi).2 - 1) * 2 ^ (f.part hi).1 else m) 0

/-! ### Reads -/

/-- The header word at `off` (02 R34). -/
def hdrWord (k : PKind) (n : Nat) (b : Block) (off : Nat) : W32 :=
  if off = 0x000 then blkId k n
  else if off = 0x004 then blkCap k
  else if off = 0x008 then
    BitVec.ofNat 32 ((if b.st = .running then 1 else 0) + (if b.stopReq then 2 else 0) + (if b.partReset then 4 else 0)
      + (if b.locked then 2 ^ 31 else 0))
  else if off = 0x00C then
    BitVec.ofNat 32 (b.st.code + (if b.commit.isSome then 2 ^ 8 else 0) + (if b.locked then 2 ^ 9 else 0))
  else if off = 0x010 then b.errStat
  else if off = 0x014 then b.errMask
  else if off = 0x018 then b.errFirst
  else if off = 0x01C then b.errInfo
  else if off = 0x020 then b.errLoc.truncate 32
  else if off = 0x024 then (b.errLoc >>> 32).truncate 32
  else if off = 0x028 then b.cfgRej
  else if off = 0x02C then b.evtCnt
  else 0

/-- What the word in force at a key is: the view of the structure that holds it, or the register word. -/
def curWord (s : State) (pg : Nat) (k : PKind) (n u off : Nat) : W32 :=
  (viewWord s pg k n u off).getD (s.reg pg u off)

def shadowWord (s : State) (pg : Nat) (k : PKind) (n u off : Nat) : W32 :=
  (SMap.find s.shadow (regKey pg u off)).getD (curWord s pg k n u off)

/-- The bits of S fields of a word written since the last commit (02 R41). -/
def freshWord (s : State) (pg u off : Nat) : W32 := (SMap.find s.fresh (regKey pg u off)).getD 0

/-- What an aligned word of a block page reads as, without side effects (00 R9, R11). -/
def readWord (s : State) (pg off : Nat) : W32 :=
  match pageInfo pg with
  | none => 0
  | some (k, n) =>
    if off < 0x100 then hdrWord k n (s.blk pg) off
    else if costAbsent s k n off || nodeHides s pg off then 0
    else match regAt k off with
      | none => 0
      | some (d, _, hi) =>
        let u := unitOf s pg k off
        let cur := (curWord s pg k n u off).toNat
        let sh := (shadowWord s pg k n u off).toNat
        let fr := (freshWord s pg u off).toNat
        BitVec.ofNat 32 (d.fields.foldl (fun v f =>
          let p := f.part hi
          if f.acc = .wo then v
          else v + bitsOf (if readsShadow f fr p.1 p.2 then sh else cur) p.1 p.2 * 2 ^ p.1) 0)

/-- Byte `off` of a page as its register reads. -/
def readByte (s : State) (pg off : Nat) : Byte :=
  BitVec.ofNat 8 (bitsOf (readWord s pg (off / 4 * 4)).toNat (off % 4 * 8) 8)

/-- The fields of a word that a read clears (00 R11). -/
def clearRc (s : State) (pg off : Nat) : State :=
  match pageInfo pg with
  | none => s
  | some (k, _) => match regAt k off with
    | none => s
    | some (d, _, hi) =>
      d.fields.foldl (fun t f =>
        if f.acc = .rc then t.setFld pg (unitOf s pg k off) off (f.part hi).1 (f.part hi).2 0 else t) s

/-! ### Writes -/

/-- Agents that the page or register accepts writes from, where its chapter limits them (02 R45). -/
def agentMayWrite (k : PKind) (off ag : Nat) : Bool :=
  match k with
  | .mgmt | .fault | .thmG | .thmT | .pwrG | .pwrT => ag = agAmp || ag = agHost
  | .group => off ≠ 0x100 || ag = agAmp
  | .core => off ≠ 0x308 || ag = agAmp
  | .glob => off ≠ 0x140 || ag = agAmp || ag = agHost || ag = agBmc
  | .sec => off ≠ 0x144 || ag = agAmp || ag = agHost
  | _ => true

/-- What a field would read as after an RW write stores `x`, what it reads now: whether the write changes it (02 R40). -/
def fieldChanges (f : Field) (cur sh fr v lo w : Nat) : Bool :=
  let x := bitsOf v lo w
  match f.acc with
  | .rw => x ≠ bitsOf (if readsShadow f fr lo w then sh else cur) lo w
  | .wo => x ≠ 0
  | .w1c => x &&& bitsOf cur lo w ≠ 0
  | .w1s => x &&& (bitsOf cur lo w ^^^ (2 ^ w - 1)) ≠ 0
  | _ => false

/-- Why a field's change is forbidden, the first ground of 02 R40 that holds: 3 agent, 1 lock, 0 class, 3 value. -/
def ground (k : PKind) (off ag : Nat) (b : Block) (f : Field) (refused : List Nat) : Option Nat :=
  let se := f.cls = .s ∨ f.cls = .e
  if agentMayWrite k off ag = false ∨ (ag ≠ agAmp ∧ (b.st = .fenced ∨ b.st = .faulted)) then some 3
  else if se ∧ b.locked = true ∧ ag ≠ agAmp then some 1
  else if f.cls = .s ∧ ¬ (b.st = .stopped ∨ b.st = .reset) then some 0
  else if refused.contains f.lo then some 3
  else none

/-- A register write as one number: the offset of its low word, its width, the fields (02 R40). -/
structure RegWrite where
  pg : Nat
  k : PKind
  n : Nat
  u : Nat
  off : Nat
  d : RegDef
  v : Nat
  deriving DecidableEq, Repr

def RegWrite.cur (w : RegWrite) (s : State) : Nat :=
  (curWord s w.pg w.k w.n w.u w.off).toNat +
    (if w.d.wide then 2 ^ 32 * (curWord s w.pg w.k w.n w.u (w.off + 4)).toNat else 0)

def RegWrite.sh (w : RegWrite) (s : State) : Nat :=
  (shadowWord s w.pg w.k w.n w.u w.off).toNat +
    (if w.d.wide then 2 ^ 32 * (shadowWord s w.pg w.k w.n w.u (w.off + 4)).toNat else 0)

def RegWrite.fr (w : RegWrite) (s : State) : Nat :=
  (freshWord s w.pg w.u w.off).toNat + (if w.d.wide then 2 ^ 32 * (freshWord s w.pg w.u (w.off + 4)).toNat else 0)

/-- The lowest field whose change is forbidden, with the reason; what the node does not hold takes no write (20 R456). -/
def RegWrite.forbidden (w : RegWrite) (s : State) (ag : Nat) : Option (Field × Nat) :=
  if nodeHides s w.pg w.off then w.d.fields.head?.map fun f => (f, 3) else
  let b := s.blk w.pg
  let cur := w.cur s
  let sh := w.sh s
  let rf := refusedFields s w.pg w.k w.n w.u w.off cur w.v
  w.d.fields.findSome? fun f =>
    if fieldChanges f cur sh (w.fr s) w.v f.lo f.w then (ground w.k w.off ag b f rf).map fun g => (f, g) else none

/-- A committed set that waits gives the key a value. -/
def State.setWaits (s : State) (pg key : Nat) : Bool :=
  match (s.blk pg).commit with
  | some set => (SMap.find set key).isSome
  | none => false

/-- Put `x` into the shadow of a key of page `pg`; a shadow equal to the word in force is not listed, unless a set that
waits will change that word (02 R41). -/
def State.setShadow (s : State) (pg key : Nat) (cur x : W32) : State :=
  { s with shadow := if x = cur ∧ s.setWaits pg key = false then SMap.del s.shadow key else SMap.put s.shadow key x }

/-- The bits of S fields that a write has changed wait for a commit. -/
def State.setFresh (s : State) (key : Nat) (x : W32) : State :=
  { s with fresh := if x = 0 then SMap.del s.fresh key else SMap.put s.fresh key x }

/-- Store the fields that a write may change: shadows, live fields, cleared bits (00 R10, R11). A field of class S that keeps the
value it reads as is not stored (02 R40). -/
def RegWrite.store (w : RegWrite) (s : State) : State :=
  let cur := w.cur s
  let new (f : Field) : Bool := decide (f.acc = .rw) && decide (f.cls = .s) && fieldChanges f cur (w.sh s) (w.fr s) w.v f.lo f.w
  let fr := w.d.fields.foldl (fun a f => if new f then putBits a f.lo f.w (2 ^ f.w - 1) else a) (w.fr s)
  let put (sel : Field → Bool) (old : Nat) : Nat :=
    w.d.fields.foldl (fun a f => if sel f then putBits a f.lo f.w (bitsOf w.v f.lo f.w) else a) old
  let sh := put (fun f => decide (f.acc = .rw) && (decide (f.cls = .e) || new f)) (w.sh s)
  let live := put (fun f => decide (f.acc = .rw) && decide (f.cls = .l)) cur
  let live := w.d.fields.foldl (fun a f =>
    if f.acc = .w1c then putBits a f.lo f.w (bitsOf a f.lo f.w &&& (bitsOf w.v f.lo f.w ^^^ (2 ^ f.w - 1))) else a) live
  let hasSh := w.d.fields.any fun f => decide (f.acc = .rw) && shadowed f
  let key := regKey w.pg w.u w.off
  let s1 := if live = cur then s else
    let t := s.setRegN w.pg w.u w.off live
    if w.d.wide then t.setRegN w.pg w.u (w.off + 4) (live / 2 ^ 32) else t
  if hasSh then
    let t := (s1.setShadow w.pg key (BitVec.ofNat 32 cur) (BitVec.ofNat 32 sh)).setFresh key (BitVec.ofNat 32 fr)
    if w.d.wide then (t.setShadow w.pg (key + 4) (BitVec.ofNat 32 (cur / 2 ^ 32)) (BitVec.ofNat 32 (sh / 2 ^ 32))).setFresh
      (key + 4) (BitVec.ofNat 32 (fr / 2 ^ 32)) else t
  else s1

/-- The record of a discarded write: offset, class code, reason. -/
abbrev Refused := Nat × Nat × Nat

/-- The record that a forbidden write leaves. -/
def RegWrite.refusal (w : RegWrite) (s : State) (ag : Nat) : Option Refused :=
  (w.forbidden s ag).map fun e => (w.off + e.1.lo / 32 * 4, e.1.cls.code, e.2)

/-- The write of value `v` that the word `off` of a page takes part in; none at a reserved offset. -/
def regWriteOf (s : State) (pg off v : Nat) : Option RegWrite :=
  match pageInfo pg with
  | none => none
  | some (k, n) => match regAt k off with
    | none => none
    | some (d, o, _) => some ⟨pg, k, n, unitOf s pg k o, o, d, v⟩

/-- ERR_STAT W1C (02 R39): bits [30:0] left at zero clear ERR_FIRST, ERR_INFO and ERR_LOC. -/
def Block.clearErr (b : Block) (v : W32) : Block :=
  let e := b.errStat &&& (v ^^^ 0xFFFFFFFF#32)
  if e &&& 0x7FFFFFFF#32 = 0 then { b with errStat := e, errFirst := 0, errInfo := 0, errLoc := 0 }
  else { b with errStat := e }

/-- CFG_REJECT.valid written 1 clears the register (02 R38). -/
def Block.clearRej (b : Block) : Block := { b with cfgRej := 0 }

/-- A write that the block's state bars to all agents but the AMP (02 R43). -/
def barred (s : State) (ag pg : Nat) : Bool :=
  decide (ag ≠ agAmp) && (decide ((s.blk pg).st = .fenced) || decide ((s.blk pg).st = .faulted))

/-- A write of ERR_MASK that R43 bars. Its record names class L: the header's table gives ERR_MASK none, and the model
chooses the class of the other header fields (notes/assumptions/69.md). -/
def maskRefused (s : State) (ag pg : Nat) (v : W32) : Bool := decide (v ≠ (s.blk pg).errMask) && barred s ag pg

/-- Writes of header words other than BLK_CTRL (02 R34, R43). -/
def hdrWrite (ag pg off : Nat) (v : W32) (s : State) : State :=
  let b := s.blk pg
  if off = 0x010 then
    let s1 := s.setBlk pg (b.clearErr v)
    -- CORE_FAULT_* are cleared with ERR_FIRST (07 R211)
    match pageInfo pg with
    | some (.core, _) =>
      if (b.clearErr v).errStat &&& 0x7FFFFFFF#32 = 0 then
        [0x150, 0x158, 0x15C, 0x160, 0x164, 0x168, 0x16C].foldl (fun t o => t.setReg pg 0 o 0) s1
      else s1
    | _ => s1
  else if off = 0x014 then
    if maskRefused s ag pg v then s.reject pg off Cls.l.code 3
    else s.setBlk pg { b with errMask := v }
  else if off = 0x028 then if v.getLsbD 31 then s.setBlk pg b.clearRej else s
  else s

/-- Keys of the per-agent latches of 64-bit registers (02 R46, R47). -/
def latchKey (ag key : Nat) : Nat := ag * 2 ^ 40 + key

/-- The write that a 4-byte write of `v` by an agent makes, and the state it is judged in: of a 64-bit register the low
word only goes to the agent's staging latch; the high word applies with the latched low word, or the current one (02
R46). A high write that is discarded uses the latched word up too: R46 speaks of the low word written since the last high
write, whatever came of that write; that R6 would keep it is the other reading (DESIGN CHOICE, notes/assumptions/69.md). -/
def wordWrite (ag pg off : Nat) (v : W32) (s : State) : Option RegWrite × State :=
  match regWriteOf s pg off v.toNat with
  | none => (none, s)
  | some w =>
    if w.d.wide then
      let key := latchKey ag (regKey pg w.u w.off)
      if off = w.off then (none, { s with stage64 := SMap.put s.stage64 key v })
      else
        let low := (SMap.find s.stage64 key).getD (shadowWord s pg w.k w.n w.u w.off)
        (some { w with v := low.toNat + 2 ^ 32 * v.toNat }, { s with stage64 := SMap.del s.stage64 key })
    else (some w, s)

/-- The key of the 64-bit register that a word is half of, and whether it is the high half: ERR_LOC in the header, the
registers of the chapters (02 R34, R46). -/
def wideKey (s : State) (pg off : Nat) : Option (Nat × Bool) :=
  if off = 0x020 ∨ off = 0x024 then some (regKey pg 0 0x020, decide (off = 0x024))
  else match regWriteOf s pg off 0 with
    | some w => if w.d.wide then some (regKey pg w.u w.off, decide (off ≠ w.off)) else none
    | none => none

/-- A read of an aligned word by an agent, with its side effects: a 64-bit low word snapshots the high word, the next
high read returns the snapshot (02 R47), RC fields clear. -/
def readReg32 (ag pg off : Nat) (s : State) : W32 × State :=
  let v := readWord s pg off
  match wideKey s pg off with
  | some (key, false) => (v, { s with snap64 := SMap.put s.snap64 (latchKey ag key) (readWord s pg (off + 4)) })
  | some (key, true) => match SMap.find s.snap64 (latchKey ag key) with
    | some x => (x, { s with snap64 := SMap.del s.snap64 (latchKey ag key) })
    | none => (v, s)
  | none => (v, clearRc s pg off)

/-! ### The commit (02 R41, R42, R461) -/

/-- A key that a page governs: its registers, and for a fabric page the table words of its tile's routers, which lie at
pages 2^17 + site (10 R272), and for the group page the remote map. -/
def ownKey (pg key : Nat) : Bool :=
  let kp := key / 2 ^ 20
  decide (kp = pg) || (decide (pg = pgGroup) && decide (pgGroup < kp) && decide (kp < pgGroup + 64)) || (decide (2 ^ 17 ≤ kp) && decide (pgFab (siteTile (kp - 2 ^ 17)) = pg))

/-- The Solstice requests in force that a set leaves as they are: SVC_WE_NEXT with valid still 1, whose shadow equals
the word (12 R313). -/
def heldRequests (s : State) (set : SMap W32) : SMap W32 :=
  (List.range 16).foldl (fun m p =>
    let key := regKey pgEpoch p 0x104
    if (s.regK key).getLsbD 8 && (SMap.find m key).isNone then SMap.put m key (s.regK key) else m) set

/-- The shadows of a page, of every unit. A shadow equal to its word needs no entry, but for a Solstice request: a
commit of the epochs page makes it again (12 R313). -/
def pageShadows (s : State) (pg : Nat) : SMap W32 :=
  let set := SMap.keep s.shadow fun k _ => ownKey pg k
  if pg = pgEpoch then heldRequests s set else set

/-- Copy the shadows into the committed set; a second commit replaces the first. -/
def commitPage (pg : Nat) (s : State) : State :=
  ({ s with fresh := SMap.keep s.fresh fun k _ => !ownKey pg k } : State).modBlk pg fun b => { b with commit := some (pageShadows s pg) }

/-- One word of a committed set takes effect: its S and E bits. -/
def applyWord (pg : Nat) (k : PKind) (s : State) (e : Nat × W32) : State :=
  if 2 ^ 37 ≤ e.1 then
    let t := s.setRegK e.1 e.2
    match SMap.find t.shadow e.1 with
    | some x => t.setShadow pg e.1 e.2 x
    | none => t
  else match regAt k (e.1 % 2 ^ 12) with
  | none => s
  | some (d, _, hi) =>
    let m := BitVec.ofNat 32 (d.seMask hi)
    let v := (s.regK e.1 &&& (m ^^^ 0xFFFFFFFF#32)) ||| (e.2 &&& m)
    let t := s.setRegK e.1 v
    match SMap.find t.shadow e.1 with
    | some x => t.setShadow pg e.1 v x
    | none => t

/-- The word of R152's shape at depth `d` (1-16) of a set of four words. -/
def widthOf (ws : List Nat) (d : Nat) : Nat := bitsOf (ws.getD ((d - 1) / 4) 0) (8 * ((d - 1) % 4)) 8

/-- R152: w_1 ≤ 16, each w_k ≤ 16 w_(k-1), none follows a zero, at most 64 nodes. -/
def shapeOk (ws : List Nat) : Bool :=
  let w := (List.range 16).map fun i => widthOf ws (i + 1)
  decide (w.getD 0 0 ≤ 16) && decide (1 + w.foldl (· + ·) 0 ≤ 64) &&
  ((w.zip (w.drop 1)).all fun e => decide (e.2 ≤ 16 * e.1))

/-- The shape words a committed set gives target `p`, where it does not set them the ones in force. -/
def shapeAfter (s : State) (set : SMap W32) (p : Nat) : List Nat :=
  [0x108, 0x10C, 0x110, 0x114].map fun o =>
    ((SMap.find set (regKey pgAcc p o)).getD (s.reg pgAcc p o)).toNat

/-- An invalid shape is left out of the set, with ERR_STAT.shape_bad (05 R152). -/
def dropBadShapes (set : SMap W32) (s : State) : SMap W32 × State :=
  (List.range 16).foldl (fun a p =>
    let keys := [0x108, 0x10C, 0x110, 0x114].map (regKey pgAcc p)
    if (keys.any fun k => (SMap.find a.1 k).isSome) && !shapeOk (shapeAfter a.2 a.1 p) then
      (SMap.keep a.1 (fun k _ => !keys.contains k), a.2.err pgAcc 2 0x4031 (p * 2 ^ 16) (pack [(0, p)]))
    else a) (set, s)

/-- A committed set applies as a whole: each listed word's S and E bits; the committed set is then gone. -/
def applyCommit (pg : Nat) (s : State) : State :=
  match pageInfo pg, (s.blk pg).commit with
  | some (k, _), some set =>
    let r := if k = .acc then dropBadShapes set s else (set, s)
    r.1.foldl (applyWord pg k) (r.2.modBlk pg fun b => { b with commit := none })
  | _, _ => s

/-- Entry to RESET, and recovery (02 R36, R37): the committed set is discarded; words and shadows of the page return
to their reset values but for fields whose reset value is "ledger" or "fuse"; EVT_CNT stays. -/
def keepBits (k : PKind) (key : Nat) (v : W32) : W32 :=
  if 2 ^ 37 ≤ key then 0 else match regAt k (key % 2 ^ 12) with
  | none => 0
  | some (d, _, hi) =>
    let m := d.fields.foldl (fun a f => if f.keep then a + (2 ^ (f.part hi).2 - 1) * 2 ^ (f.part hi).1 else a) 0
    (v &&& BitVec.ofNat 32 m) ||| (keyReset key &&& BitVec.ofNat 32 (2 ^ 32 - 1 - m))

def resetRegs (pg : Nat) (k : PKind) (s : State) : State :=
  let mine := SMap.keep s.regs fun key _ => ownKey pg key
  let rest := SMap.keep s.regs fun key _ => !ownKey pg key
  let mineNot (key : Nat) (_ : W32) : Bool := !ownKey pg key
  let s1 : State := { s with regs := rest, shadow := SMap.keep s.shadow mineNot, fresh := SMap.keep s.fresh mineNot }
  mine.foldl (fun t e => t.setRegK e.1 (keepBits k e.1 e.2)) s1

end Sys2Proof.Machine
end

