-- ==== Sys2Proof/Machine/LinkBase.lean ====
section
/-! DEFINITION. The sending side of the Merdutra links (13): frames, ports, packets, remote-window writes, and the
messages between the modules of a span. -/

namespace Sys2Proof.Machine

/-! ### Frames (R323) -/

/-- One bit of the CRC-64 of ECMA-182. -/
def crcBit (c : Nat) : Nat :=
  if 2 ^ 63 ≤ c then (2 * c) % 2 ^ 64 ^^^ 0x42F0E1EBA9EA3693 else 2 * c

def crcByte (c : Nat) (b : Byte) : Nat := (List.range 8).foldl (fun a _ => crcBit a) (c ^^^ (b.toNat * 2 ^ 56))

/-- CRC-64 from 0, most significant bit first, not inverted (notes/assumptions/30.md). -/
def crc64 (l : List Byte) : Nat := l.foldl crcByte 0

def padTo (n : Nat) (l : List Byte) : List Byte := (l ++ List.replicate (n - l.length) 0#8).take n

/-- The 272 bytes of a link frame. -/
def frameBytes (seq ack kind lane credits : Nat) (body : List Byte) : List Byte :=
  let h := leBytes 2 seq ++ leBytes 2 ack ++ leBytes 1 (kind + 4 * lane) ++ leBytes 1 credits ++ [0#8, 0#8] ++ padTo 256 body
  h ++ leBytes 8 (crc64 h)

def State.modMlk (s : State) (f : MlkSt → MlkSt) : State := { s with mlk := f s.mlk }
def State.mport (s : State) (p : Nat) : MPort := SMap.get s.mlk.ports {} p
def State.modPort (s : State) (p : Nat) (f : MPort → MPort) : State :=
  s.modMlk fun m => { m with ports := SMap.upd m.ports {} p f }

/-- MLK_PORT_STAT.state: 0 DISABLED, 1 TRAINING, 2 UP, 3 RETRAINING, 4 DOWN. -/
def portSt (s : State) (p : Nat) : Nat := s.fld (pgPort p) 0 0x100 0 3
def setPortSt (p x : Nat) (s : State) : State := s.setFld (pgPort p) 0 0x100 0 3 x
def upPorts (s : State) : List Nat := (List.range 16).filter fun p => portSt s p = 2

def emitFrame (p kind lane : Nat) (seq : Nat) (body : List Byte) (s : State) (credits : Nat := 0) : State :=
  s.emit (.link p kind ((frameBytes seq ((s.mport p).rx + 65535) kind lane credits body).map (·.toNat)))

/-- A data frame: the next number; the replay buffer keeps it until it is acknowledged. -/
def sendFrame (p lane : Nat) (body : List Byte) (s : State) : State :=
  let q := s.mport p
  emitFrame p 0 lane q.next body (s.modPort p fun v => { v with
    next := (q.next + 1) % 65536, tx := q.tx ++ [(q.next, leBytes 1 lane ++ padTo 256 body)] })

/-- Whether a lane of a port has a frame to send and a credit for it: one credit, one frame (R325; how many a lane has
to begin with, and what one stands for, is not given, notes/assumptions/30.md). -/
def MPort.ready (q : MPort) (v : Nat) : Bool :=
  decide (SMap.get q.queues [] v ≠ []) && decide (SMap.get q.spent 0 v < Config.linkCredits v + SMap.get q.credits 0 v)

/-- The lane that takes the port at a frame boundary: VL0, then VL1-VL3 round robin (R325). -/
def MPort.nextLane (q : MPort) : Option Nat :=
  (0 :: [1, 2, 3].map fun k => (q.turn + k + 2) % 3 + 1).find? q.ready

/-- The front frame of lane `v` leaves the port. -/
def sendFront (p v : Nat) (s : State) : State :=
  let l := SMap.get (s.mport p).queues [] v
  sendFrame p v (l.headD []) (s.modPort p fun q => { q with
    queues := SMap.set q.queues [] v l.tail
    spent := SMap.upd q.spent 0 v (· + 1)
    turn := if v = 0 then q.turn else v })

def MPort.waiting (q : MPort) : Nat := (q.queues.map fun e => e.2.length).sum

/-- An UP port sends what its lanes hold, as long as its replay buffer has room for a frame not acknowledged (R324: none is
lost) and a lane has a credit. -/
def drainPort (p : Nat) : (fuel : Nat) → State → State
  | 0, s => s
  | n + 1, s => match (s.mport p).nextLane with
    | none => s
    | some v => if portSt s p = 2 ∧ (s.mport p).tx.length < 1024 then drainPort p n (sendFront p v s) else s

/-- The port goes on sending. -/
def portGo (p : Nat) (s : State) : State := drainPort p (s.mport p).waiting s

/-- Send a frame of the replay buffer again. -/
def resendFrame (p : Nat) (s : State) (f : Nat × List Byte) : State :=
  emitFrame p 0 ((f.2.headD 0).toNat) f.1 (f.2.drop 1) s

/-! ### Packets (R327-R329) -/

/-- Data units of a packet. -/
def pktUnits (k : Pkt) : Nat := (k.data.length + 31) / 32

/-- The header unit (R327). -/
def pktHeader (k : Pkt) : List Byte :=
  leBytes 1 k.kind ++ leBytes 1 k.lane ++ leBytes 1 k.dst ++ leBytes 1 k.src ++ leBytes 2 k.e2e ++ leBytes 1 (pktUnits k) ++
  leBytes 1 k.window ++ leBytes 2 k.gen ++ leBytes 6 k.off ++ leBytes 4 k.tag ++ leBytes 1 k.red ++ List.replicate 11 0#8

/-- The fields of a header unit. -/
def pktOf (h : List Byte) : Pkt :=
  let n (o k : Nat) : Nat := leNat ((h.drop o).take k)
  { kind := n 0 1, lane := n 1 1 % 4, dst := n 2 1 % 64, src := n 3 1 % 64, e2e := n 4 2, window := n 7 1, gen := n 8 2,
    off := n 10 6 % 2 ^ 41, tag := n 16 4, red := n 20 1 % 64, data := [] }

/-- Frames of 8 units each. -/
def chunks256 : (fuel : Nat) → List Byte → List (List Byte)
  | 0, _ => []
  | f + 1, l => if l.length ≤ 256 then [l] else l.take 256 :: chunks256 f (l.drop 256)

/-- A packet's frames join their lane at a port. -/
def sendOn (p : Nat) (k : Pkt) (s : State) : State :=
  let b := pktHeader k ++ padTo (32 * pktUnits k) k.data
  portGo p (s.modPort p fun q => { q with
    queues := SMap.upd q.queues [] k.lane fun l => l ++ chunks256 (b.length / 256 + 1) b })

/-- The next UP port in rotation (R328). -/
def nextPort (s : State) : Option Nat :=
  match (upPorts s).find? fun p => s.mlk.rot ≤ p with
  | some p => some p
  | none => (upPorts s).head?

/-- Send a packet on the next UP port; with none it waits for its retry. -/
def transmit (k : Pkt) (s : State) : State :=
  match nextPort s with
  | none => s
  | some p => sendOn p k (s.modMlk fun m => { m with rot := (p + 1) % 16 })

def myModule (s : State) : Nat := s.fld pgGroup 0 0x100 0 6
def State.peer (s : State) (m : Nat) : MPeer := SMap.get s.mlk.peers {} m
def State.modPeer (s : State) (m : Nat) (f : MPeer → MPeer) : State :=
  s.modMlk fun v => { v with peers := SMap.upd v.peers {} m f }

/-- A RED packet, which carries no order: on the UP port that its reduction ID counts to (R328). -/
def transmitRed (k : Pkt) (s : State) : State :=
  match (upPorts s)[k.window % (upPorts s).length]? with
  | none => s
  | some p => if (s.peer k.dst).lost then s else sendOn p { k with src := myModule s } s

/-- Number a packet and take a tag for it. -/
def numbered (k : Pkt) (s : State) : Pkt × State :=
  let key := k.dst * 4 + k.lane
  let e := SMap.get s.mlk.next 0 key
  ({ k with src := myModule s, e2e := e, tag := s.mlk.tag },
   s.modMlk fun m => { m with next := SMap.set m.next 0 key ((e + 1) % 65536), tag := (m.tag + 1) % 2 ^ 32 })

/-- Send a packet that is kept until it is acknowledged (R329). -/
def sendKeptPkt (k : Pkt) (own : Option (Nat × Nat)) (msg : Option (Nat × SpanMsg)) (s : State) : State :=
  let r := numbered k s
  transmit r.1 (r.2.modMlk fun m => { m with tx := m.tx ++ [⟨r.1, s.now, s.now, own, msg⟩] })

/-- The remote map (R335). -/
def rmapUnit (m w : Nat) : Nat := m * 256 + w

/-- A tag is answered: its transfer waits for it no more. -/
def answerTag (own : Option (Nat × Nat)) (tag : Nat) (s : State) : State :=
  match own with
  | none => s
  | some (site, q) => { s with cores := SMap.upd s.cores {} site fun c => { c with
      qs := SMap.upd c.qs [] q fun l => l.map fun x => { x with tags := x.tags.erase tag } } }

/-- A refusal (R335): counted, trace event 0x6021, the generation stored. -/
def refusal (own : Option (Nat × Nat)) (k : Pkt) (code : Nat) (gen : Option Nat) (s : State) : State :=
  let s1 := (s.bump pgGroup 0 0x184).raise pgGroup 0x6021 (pack [(0, k.tag), (4, code)])
  let s2 := match gen with
    | some g => s1.setFld pgGroup (rmapUnit k.dst k.window) 0x164 16 16 g
    | none => s1
  answerTag own k.tag s2

/-! ### Spans (R331-R333) -/

def msgKind : SpanMsg → Nat
  | .token .. => 0 | .results .. => 1 | .shortage .. => 2 | .release .. => 3 | .cause .. => 4 | .fault .. => 5
  | .eqxReq .. => 6 | .arrive .. => 7 | .relocated .. => 8 | .applySets .. => 9 | .applied .. => 10 | .go .. => 11 | .holders .. => 12
  | .load .. => 13 | .sect .. => 14 | .pause .. => 15

/-- The numbers that identify a message for `Config.ctrlData`. -/
def msgNums : SpanMsg → List Nat
  | .token t q => [t.step, t.kind, t.epoch, t.count] ++ q.map (·.slot) ++ (t.ents.map (·.masks)).flatten
  | .results n r => n :: r.map (·.slot)
  | .shortage x | .cause x | .fault x | .applied x | .holders x => [x]
  | .release a b e => [a, b, if e then 1 else 0]
  | .eqxReq a b | .go a b | .pause a b => [a, b]
  | .arrive n f c h r l => [n, c, h, if r then 1 else 0, f.length] ++ f ++ l
  | .relocated n b | .applySets n b => [n, if b then 1 else 0]
  | .load a b c d e l => [a, b, c, d, if e then 1 else 0] ++ l.map (·.toNat)
  | .sect a l => a :: l.map (·.toNat)

/-- Step tokens go on VL1, image sections on VL3, every other message on VL0 (R331, R332). -/
def msgLane : SpanMsg → Nat
  | .token .. => 1
  | .load .. | .sect .. => 3
  | _ => 0

/-- Send a message about partition `p` to module `d`; a lost module gets none. -/
def sendMsg (p d : Nat) (m : SpanMsg) (s : State) : State :=
  if (s.peer d).lost then s
  else
    let k : Pkt := { kind := 4, lane := msgLane m, dst := d, src := 0, window := (Config.ctrlType (msgKind m)).toNat,
                     data := (Config.ctrlData (msgKind m) (msgNums m)).take 4096 }
    sendKeptPkt k none (some (p, m)) s

/-- Send a message of partition `p`'s span to the module at place `pos`. -/
def sendSpan (p pos : Nat) (m : SpanMsg) (s : State) : State :=
  match (s.part p).span[pos]? with
  | none => s
  | some d => sendMsg p d m s

/-- Send a message to every other member of a span. -/
def tellMembers (p : Nat) (m : SpanMsg) (s : State) : State :=
  (List.range (s.part p).span.length).foldl (fun t i => if i = (s.part p).spanPos then t else sendSpan p i m t) s

def Part.isHead (q : Part) : Bool := decide (q.span ≠ []) && decide (q.spanPos = 0)
def Part.isMember (q : Part) : Bool := decide (q.span ≠ []) && decide (q.spanPos ≠ 0)

end Sys2Proof.Machine
end

