-- ==== Sys2Proof/Machine/Mesh.lean ====
section
/-! DEFINITION. The mesh of the Ihlyr fabric (10): router tables, geometry, routes and detours, flits and packets. -/

namespace Sys2Proof.Machine

/-! ### Router tables (R272, R273) -/

/-- Key of word `k` of an entry of a router's table. -/
def tabKey (site table entry k : Nat) : Nat := (2 ^ 17 + site) * 2 ^ 20 + table * 2 ^ 12 + entry * 4 + k
def fourWords (f : Nat → Nat) : Nat := f 0 + 2 ^ 32 * f 1 + 2 ^ 64 * f 2 + 2 ^ 96 * f 3
/-- The detour entry of bring-up, set `e` / 4, direction `e` % 4 (R271): one step aside, two on and one back around the neighbour, or
around the far side of its tile. Aside is north or west where that leads past; the way back falls away where the grid ends behind
(notes/assumptions/81.md). -/
def detourEntry (site e : Nat) : Nat :=
  let d := e % 4
  let wide := 4 ≤ e
  let up := d < 2
  -- along the direction of travel, and across it
  let a := if up then siteY site else siteX site
  let c := if up then siteX site else siteY site
  let last := if up then 95 else 107
  let room := if d = 0 ∨ d = 3 then a else last - a
  let on := Nat.min (if wide then 13 else 2) room
  let back := on = (if wide then 13 else 2)
  let c0 := 12 * (c / 12)
  let low := if wide then 0 < c0 else 0 < c
  let aside := if wide then (if low then c - c0 + 1 else c0 + 12 - c) else 1
  let out := if up then (if low then 3 else 2) else (if low then 0 else 1)
  let ret := if up then (if low then 2 else 3) else (if low then 1 else 0)
  if room = 0 then 0
  else out + aside * 4 + (d + on * 4) * 2 ^ 7 + (if back then (ret + aside * 4) * 2 ^ 14 else 0) + 2 ^ 21

/-- What a word of an entry reads where nothing has been written: the detour entries of bring-up, else 0. Words are kept as the
difference from it. -/
def tabBase (s : State) (site table entry k : Nat) : W32 :=
  if table = 4 ∧ k = 0 ∧ s.fab.detours.contains (siteTile site) = true then BitVec.ofNat 32 (detourEntry site entry) else 0
/-- A table entry in force. -/
def tabEntry (s : State) (site table entry : Nat) : Nat :=
  fourWords fun k => (s.regK (tabKey site table entry k) ^^^ tabBase s site table entry k).toNat
/-- The bits that R273 lists for a table's entries; the others are reserved, read 0 and take no write (00 R9). -/
def tabMask (table : Nat) : Nat :=
  let upTo (n : Nat) : Nat := 2 ^ n - 1
  match table with
  | 0 => upTo 26 + (upTo 121 - upTo 32)
  | 1 => upTo 41
  | 2 => upTo 116
  | 3 => upTo 128
  | 4 => upTo 22
  | 5 => upTo 44
  | 6 => upTo 29
  | _ => 0
/-- Word `k` of an entry as the table keeps it. -/
def tabWord (table v k : Nat) : W32 := BitVec.ofNat 32 ((v &&& tabMask table) / 2 ^ (32 * k))
def fabPg (site : Nat) : Nat := pgFab (siteTile site)
/-- Change an entry in force; a shadow of it takes the bits that change. -/
def setTab (site table entry v : Nat) (s : State) : State :=
  (List.range 4).foldl (fun t k =>
    let key := tabKey site table entry k
    let new := tabWord table v k ^^^ tabBase s site table entry k
    let diff := t.regK key ^^^ new
    let u := t.setRegK key new
    match SMap.find t.shadow key with
    | some x => u.setShadow (fabPg site) key new ((x &&& ~~~diff) ||| (new &&& diff))
    | none => u) s
/-- The shadow of an entry. -/
def tabShadow (s : State) (site table entry : Nat) : Nat :=
  fourWords fun k => ((SMap.find s.shadow (tabKey site table entry k)).getD (s.regK (tabKey site table entry k)) ^^^
    tabBase s site table entry k).toNat
def setTabShadow (site table entry v : Nat) (s : State) : State :=
  (List.range 4).foldl (fun t k =>
    let key := tabKey site table entry k
    t.setShadow (fabPg site) key (t.regK key) (tabWord table v k ^^^ tabBase s site table entry k)) s
/-- Entries of a table; 0 for a reserved table. -/
def tabSize (table : Nat) : Nat := ([1024, 256, 256, 2, 8, 1, 4] : List Nat).getD table 0

/-- ERR_LOC of a fabric page (R274). -/
def fabLoc (site port : Nat) : Nat := siteLocal site + port * 2 ^ 8
def routerCfg (s : State) (site : Nat) : Nat := tabEntry s site 5 0
def leaderSite (s : State) (site : Nat) : Nat := siteAt (bitsOf (routerCfg s site) 0 7) (bitsOf (routerCfg s site) 7 7)
def coreFenced (s : State) (site : Nat) : Bool := bitAt (routerCfg s site) 38 || decide ((s.blk (pgCore site)).st = .fenced)
def linkIsDead (s : State) (site d : Nat) : Bool := decide (d < 4) && bitAt (routerCfg s site) (39 + d)

/-! ### Geometry (R248-R251): directions 0 N, 1 S, 2 E, 3 W, 4 local -/

def opposite (d : Nat) : Nat := if d = 0 then 1 else if d = 1 then 0 else if d = 2 then 3 else 2
def neighbour (site d : Nat) : Option Nat :=
  let x := siteX site
  let y := siteY site
  match d with
  | 0 => if y = 0 then none else some (siteAt x (y - 1))
  | 1 => if y = 95 then none else some (siteAt x (y + 1))
  | 2 => if x = 107 then none else some (siteAt (x + 1) y)
  | 3 => if x = 0 then none else some (siteAt (x - 1) y)
  | _ => none

/-- Edge tile of a router on the grid's boundary, where it has an edge link (R250). -/
def edgeOf (site : Nat) : Option Nat :=
  let x := siteX site
  let y := siteY site
  let within (a lo : Nat) : Bool := decide (lo ≤ a) && decide (a < lo + 24)
  if y = 0 then (if within x 6 then some 2 else if within x 42 then some 3 else if within x 78 then some 4 else none)
  else if y = 95 then (if within x 78 then some 8 else if within x 42 then some 9 else if within x 6 then some 10 else none)
  else if x = 107 then (if within y 6 then some 5 else if within y 36 then some 6 else if within y 66 then some 7 else none)
  else if x = 0 then (if within y 66 then some 11 else if within y 36 then some 0 else if within y 6 then some 1 else none)
  else none

/-- The boundary port of a site that leads to its edge link (R250). -/
def edgePort (site : Nat) : Nat := if siteY site = 0 then 0 else if siteY site = 95 then 1 else if siteX site = 107 then 2 else 3

def dstX (d : Nat) : Nat := if d = steward then 0 else siteX d
def dstY (d : Nat) : Nat := if d = steward then 47 else siteY d

/-- Dimension-ordered routing: x first, then y. -/
def dor (site dst : Nat) : Nat :=
  let x := siteX site
  let y := siteY site
  if x < dstX dst then 2 else if dstX dst < x then 3
  else if y < dstY dst then 1 else if dstY dst < y then 0
  else if dst = steward then 3 else 4

/-- Dead regions listed at a router (table 6): x0, y0, x1, y1. -/
def deadRegions (s : State) (site : Nat) : List (Nat × Nat × Nat × Nat) :=
  ((List.range 4).map fun k => tabEntry s site 6 k).filterMap fun e =>
    if bitAt e 28 then some (bitsOf e 0 7, bitsOf e 7 7, bitsOf e 14 7, bitsOf e 21 7) else none

def inRegion (x y : Nat) (r : Nat × Nat × Nat × Nat) : Bool :=
  decide (r.1 ≤ x) && decide (x ≤ r.2.2.1) && decide (r.2.1 ≤ y) && decide (y ≤ r.2.2.2)

/-- Whether the R251 path from a router to a destination crosses a region. -/
def pathCrosses (site dst : Nat) (r : Nat × Nat × Nat × Nat) : Bool :=
  let x := siteX site
  let y := siteY site
  let dx := dstX dst
  let dy := dstY dst
  let xs := (Nat.min x dx, Nat.max x dx)
  let ys := (Nat.min y dy, Nat.max y dy)
  (decide (r.2.1 ≤ y) && decide (y ≤ r.2.2.2) && decide (r.1 ≤ xs.2) && decide (xs.1 ≤ r.2.2.1)) ||
  (decide (r.1 ≤ dx) && decide (dx ≤ r.2.2.1) && decide (r.2.1 ≤ ys.2) && decide (ys.1 ≤ r.2.2.2))

/-- The detour entry for a direction: its legs (direction, hops) (R271). -/
def detourLegs (s : State) (site d : Nat) : List (Nat × Nat) :=
  let set := if bitAt (routerCfg s site) 43 then 1 else 0
  let e := tabEntry s site 4 (4 * set + d)
  if bitAt e 21 then
    ((List.range 3).map fun k => (bitsOf e (7 * k) 2, bitsOf e (7 * k + 2) 5)).takeWhile fun l => l.2 ≠ 0
  else []

def mayDetour (vc : Nat) : Bool := decide (vc = 0) || vc = 1 || vc = 4 || vc = 5

/-- Destinations above this stand for the tree of a scheduled flow (R261): this plus the flow. -/
def treeBase : Nat := 14000
/-- Whether a flit takes a multicast tree: VC3, or VC1 of a flow marked mcast. -/
def isMcast (f : Flit) : Bool := f.vc = 3 || decide (treeBase ≤ f.dst)

/-- The output for a next hop in direction `d` with the legs that lead there: where that link is dead, the first leg of its detour
entry, and so on (R271); none without an entry. -/
def pastDead (s : State) (site : Nat) : (fuel : Nat) → (d : Nat) → (legs : List (Nat × Nat)) → Option (Nat × List (Nat × Nat))
  | 0, _, _ => none
  | n + 1, d, legs =>
    if linkIsDead s site d then
      match detourLegs s site d with
      | [] => none
      | l :: r => pastDead s site n l.1 (l :: r)
    else some (d, legs)

/-- The output of a unicast flit with the legs it then follows: the next leg of its detour, else its R251 direction. -/
def hopOf (s : State) (f : Flit) : Option (Nat × List (Nat × Nat)) :=
  pastDead s f.loc 4 (match f.legs with
    | l :: _ => l.1
    | [] => dor f.loc f.dst) f.legs

/-- The output a flit is bound for: the one it has been given, or that of its next hop; none while it waits for the multicast or
reduction logic. -/
def outOf (s : State) (f : Flit) : Option Nat :=
  match f.out with
  | some o => some o
  | none => if f.vc = 2 || isMcast f then none else (hopOf s f).map (·.1)

/-! ### State of the mesh -/

def State.setFab (s : State) (f : FabSt) : State := { s with fab := f }
def State.modFab (s : State) (g : FabSt → FabSt) : State := { s with fab := g s.fab }
def linkKey (site port : Nat) : Nat := site * 8 + port
def pairKey (src dst vc : Nat) : Nat := (src * 16384 + dst) * 8 + vc
def State.link (s : State) (site port : Nat) : LinkSt := SMap.get s.fab.links {} (linkKey site port)
def State.modLink (s : State) (site port : Nat) (f : LinkSt → LinkSt) : State :=
  s.modFab fun m => { m with links := SMap.upd m.links {} (linkKey site port) f }

/-- Put a flit into the mesh; an EQX_ARRIVE meets one of the twin partition and Equinox and merges with it (R255). -/
def addFlit (f : Flit) (s : State) : State :=
  let twin (g : Flit) : Bool :=
    decide (g.kind = .eqxArrive) && g.loc = f.loc && g.dst = f.dst && g.id = f.id && g.elem = f.elem && outOf s g = outOf s f
  let merge (g : Flit) : Flit := if twin g then { g with data := List.zipWith (· ||| ·) g.data f.data } else g
  if f.kind = .eqxArrive ∧ s.fab.flits.any twin = true then s.modFab fun m => { m with flits := m.flits.map merge }
  else s.modFab fun m => { m with flits := m.flits ++ [f] }

def dropFlits (p : Flit → Bool) (s : State) : State := s.modFab fun m => { m with flits := m.flits.filter fun f => !p f }
def newPid (s : State) : Nat × State := (s.fab.pids, s.modFab fun m => { m with pids := m.pids + 1 })

/-- A packet of payloads from a template. -/
def mkFlits (t : Flit) (pls : List (List Byte)) : List Flit :=
  pls.zipIdx.map fun e => { t with idx := e.2, len := pls.length, data := e.1 }

def addPacket (t : Flit) (pls : List (List Byte)) (s : State) : State :=
  let r := newPid s
  (mkFlits { t with pid := r.1 } pls).foldl (fun u f => addFlit f u) r.2

/-- Whether a core's DMA engine has stopped sending to a destination, by what either channel met there (R268). -/
def gaveUpOn (s : State) (src dst : Nat) : Bool :=
  SMap.get s.fab.gaveUp false (pairKey src dst 1) || SMap.get s.fab.gaveUp false (pairKey src dst 4)

/-- A packet of VC1 or VC4: numbered, kept until it is acknowledged (R268), one of a tree until every one of `owed` has. -/
def sendKept (owed : List Nat) (t : Flit) (pls : List (List Byte)) (s : State) : State :=
  let k := pairKey t.src t.dst t.vc
  if gaveUpOn s t.src t.dst then s
  else
    let r := newPid s
    let q := SMap.get s.fab.nextSeq 0 k
    let fl := mkFlits { t with pid := r.1, seq := q } pls
    let s1 := r.2.modFab fun m => { m with
      nextSeq := SMap.set m.nextSeq 0 k ((q + 1) % 65536), kept := SMap.upd m.kept [] k fun l => l ++ [⟨q, fl, s.now, 0, owed⟩] }
    fl.foldl (fun u f => addFlit f u) s1

/-! ### Control messages of the Steward and the stage leaders (R250, R253, R255) -/

/-- The router on whose edge link the Steward sends and receives (R250). -/
def stewardSite : Nat := siteAt 0 47
def FlKind.isBarrier : FlKind → Bool
  | .eqxReq | .eqxGo | .eqxArrive => true
  | .data | .ack | .fencedAck | .incomplete | .token | .grant | .stepDone => false

/-- A control message on VC0 enters the mesh: from the Steward at E0's edge link, from a core at its local port; in a barrier flit
the element address is the Equinox number's low 20 bits (R255). -/
def sendCtl (k : FlKind) (src dst p elem : Nat) (pls : List (List Byte)) (s : State) : State :=
  addPacket { pid := 0, idx := 0, len := 0, kind := k, vc := 0, barrier := k.isBarrier, src := src, dst := dst, id := p,
              elem := elem % 2 ^ 20, loc := if src = steward then stewardSite else src, inp := if src = steward then 3 else 4 } pls s

/-- A control message has reached its destination, and leaves the mesh: the command for its arrival tells of it, wherever
FLIT_FORWARD has brought it by then. -/
def ctlArrived (k : FlKind) (src dst p : Nat) (s : State) : State :=
  match s.fab.flits.find? fun f => decide (f.kind = k) && f.src = src && f.dst = dst && f.id = p with
  | none => s
  | some f => dropFlits (fun g => decide (g.pid = f.pid)) s

/-- The site that a logical core is bound to. -/
def siteOfLogical (s : State) (p c : Nat) : Option Nat := SMap.find (s.part p).bind c
def Part.stage (q : Part) (g : Nat) : Stage := q.stages.getD g {}
/-- The leader's site of a stage. -/
def leaderOf (s : State) (p g : Nat) : Option Nat := siteOfLogical s p ((s.part p).stage g).leader

/-- A message from the Steward to a stage's leader, and its arrival. -/
def toLeader (k : FlKind) (p g elem : Nat) (pls : List (List Byte)) (s : State) : State := match leaderOf s p g with
  | some x => sendCtl k steward x p elem pls s
  | none => s
def atLeader (k : FlKind) (p g : Nat) (s : State) : State := match leaderOf s p g with
  | some x => ctlArrived k steward x p s
  | none => s

/-- A message from a stage's leader to the Steward, and its arrival. -/
def toSteward (k : FlKind) (p g elem : Nat) (pl : List Byte) (s : State) : State := match leaderOf s p g with
  | some x => sendCtl k x steward p elem [pl] s
  | none => s
def atSteward (k : FlKind) (p g : Nat) (s : State) : State := match leaderOf s p g with
  | some x => ctlArrived k x steward p s
  | none => s

/-- A step token's bytes (04 R109, R110). -/
def tokBytes (t : Tok) : List Byte :=
  leBytes 1 t.kind ++ leBytes 1 t.count ++ leBytes 1 t.part ++ leBytes 1 t.epoch ++ leBytes 4 t.step ++ leBytes 4 t.positions ++
  leBytes 4 t.context ++ leBytes 1 t.replay ++ leBytes 1 t.retry ++ leBytes 2 t.eqx ++ leBytes 12 0 ++
  (t.ents.map fun e => leBytes 2 e.slot ++ leBytes 2 e.ntok ++ leBytes 4 e.pos ++ leBytes 4 e.token ++
    leBytes 2 e.adapter ++ leBytes 1 e.ver ++ leBytes 1 e.flags).flatten

/-- Bytes as the payloads of a packet. -/
def flitsOf (b : List Byte) : List (List Byte) := (List.range ((b.length + 31) / 32)).map fun k => (b.drop (32 * k)).take 32

/-- The source of the tokens that stage `g` takes: the Steward, or the leader of the stage before. -/
def tokSource (s : State) (p g : Nat) : Nat := if g = 0 then steward else (leaderOf s p (g - 1)).getD steward

/-- A step token leaves for stage `g`. -/
def tokGoes (p g : Nat) (t : Tok) (s : State) : State := match leaderOf s p g with
  | some x => sendCtl .token (tokSource s p g) x p 0 (flitsOf (tokBytes t)) s
  | none => s
def tokComes (p g : Nat) (s : State) : State := match leaderOf s p g with
  | some x => ctlArrived .token (tokSource s p g) x p s
  | none => s

/-- Tokens that have been abandoned leave the mesh: those to a stage that no token is on its way to. -/
def pruneToks (p : Nat) (s : State) : State :=
  dropFlits (fun f => decide (f.kind = .token) && f.id = p &&
    !(s.part p).transit.any fun e => leaderOf s p e.1 = some f.dst) s

/-- Nothing of a partition is left on its way: its tokens, grants and barrier messages. -/
def pruneAll (p : Nat) (s : State) : State :=
  dropFlits (fun f => f.id = p && (f.barrier || decide (f.kind = .token) || decide (f.kind = .grant) || decide (f.kind = .stepDone))) s

def GrantOp.code : GrantOp → Nat
  | .allocate => 0 | .share => 1 | .copy => 2 | .release => 3 | .truncate => 4
/-- The one flit of a page grant: the spec gives it no layout (notes/assumptions/81.md). -/
def grantBytes (g : Grant) : List Byte :=
  leBytes 1 g.op.code ++ leBytes 1 g.head ++ leBytes 2 g.slot ++ leBytes 4 g.page ++ leBytes 4 g.src ++ leBytes 2 g.slots ++
    leBytes 2 g.layer ++ leBytes 4 g.idx ++ leBytes 12 0
def grantGoes (g : Grant) (s : State) : State := match siteOfLogical s g.part g.core with
  | some x => sendCtl .grant steward x g.part 0 [grantBytes g] s
  | none => s
def grantComes (g : Grant) (s : State) : State := match siteOfLogical s g.part g.core with
  | some x => ctlArrived .grant steward x g.part s
  | none => s

/-- The payload of an EQX_ARRIVE: the stage mask, bit 255 written 0. -/
def arriveMask (g : Nat) : List Byte := leBytes 32 (if g < 255 then 2 ^ g else 0)

/-- The Steward has stage `g`'s arrival: the merged message loses that bit, and with its last bit leaves the mesh. -/
def arriveTaken (p g : Nat) (s : State) : State :=
  let off (f : Flit) : Flit := if f.kind = .eqxArrive ∧ f.id = p then
    { f with data := leBytes 32 (putBits (leNat f.data) g 1 0) } else f
  s.modFab fun m => { m with flits := (m.flits.map off).filter fun f => !(decide (f.kind = .eqxArrive) && f.id = p && leNat f.data = 0) }

def countDrop (site n : Nat) (s : State) : State := s.bump (fabPg site) 0 0x1B4 n

end Sys2Proof.Machine
end

