-- ==== Sys2Proof/Machine/KvOps.lean ====
section
/-! DEFINITION. The KV page allocator (06 R157-R176): placing, sharing, copying, releasing and losing pages, and the
chains of a session. Chains are numbered session x 65,536 + index of the holder group. -/

namespace Sys2Proof.Machine

def State.setPool (s : State) (p : Nat) (q : KvPool) : State := { s with kv := SMap.set s.kv {} p q }
def State.modPool (s : State) (p : Nat) (f : KvPool → KvPool) : State := s.setPool p (f (s.pool p))
def State.setPart (s : State) (p : Nat) (q : Part) : State := { s with parts := SMap.set s.parts {} p q }
def State.modPart (s : State) (p : Nat) (f : Part → Part) : State := s.setPart p (f (s.part p))

/-- Page number: frame [9:0], logical core [23:10] (06 R157). -/
def pageNo (core frame : Nat) : Nat := core * 1024 + frame
def pageCore (pg : Nat) : Nat := pg / 1024 % 16384
def pageFrame (pg : Nat) : Nat := pg % 1024
def noPage : Nat := 0xFFFFFFFF

def chainKey (sess g : Nat) : Nat := sess * 65536 + g
def KvPool.chain (q : KvPool) (sess g : Nat) : Chain := SMap.get q.chains {} (chainKey sess g)
def KvPool.setChain (q : KvPool) (sess g : Nat) (c : Chain) : KvPool :=
  { q with chains := SMap.set q.chains {} (chainKey sess g) c }

def KvPool.kvCore (q : KvPool) (core : Nat) : KvCore := (SMap.find q.cores core).getD ⟨0, 0, false⟩

/-- Frames of a core that no page holds. -/
def KvPool.freeFrames (q : KvPool) (core : Nat) : Nat :=
  (q.kvCore core).frames - (q.pages.filter fun e => pageCore e.1 = core).length

/-- The lowest free frame of a core (notes/assumptions/20.md). -/
def KvPool.nextFrame (q : KvPool) (core : Nat) : Option Nat :=
  (firstFree (fun f => (SMap.find q.pages (pageNo core f)).isSome) (q.kvCore core).frames 0)

/-- The better of two holders: most free frames, then the lower core (06 R158). -/
def betterHolder (q : KvPool) (a : Option Nat) (c : Nat) : Option Nat :=
  match a with
  | none => some c
  | some b =>
    if q.freeFrames b < q.freeFrames c ∨ (q.freeFrames b = q.freeFrames c ∧ c < b) then some c else some b

/-- Where a new page of a group goes (06 R158): a fused member with a free frame, else any member with one. -/
def KvPool.place (q : KvPool) (g : HGroup) : Option Nat :=
  let ok := g.members.filter fun c => 0 < q.freeFrames c
  match (ok.filter fun c => (q.kvCore c).fused).foldl (betterHolder q) none with
  | some c => some c
  | none => ok.foldl (betterHolder q) none

def kvBump (s : State) (p off : Nat) (n : Nat := 1) : State := s.bump pgKv p off n

/-- Tell the low-water event once per crossing (SVC_KV_LOW). -/
def lowWater (p : Nat) (s : State) : State :=
  let q := s.pool p
  let free := q.total - q.pages.length
  let low := s.regN pgKv p 0x10C
  if low = 0 ∨ low ≤ free then s.setPool p { q with lowHit := false }
  else if q.lowHit then s
  else (s.setPool p { q with lowHit := true }).raise pgKv 0x4040 (pack [(0, p)])

/-- A grant goes to its holder (06 R161). -/
def grant (g : Grant) (s : State) : State :=
  grantGoes g (s.modPool g.part fun q => { q with copies := q.copies ++ [g] })

/-- Free pages back at the low-water mark: the next crossing raises its event again. -/
def lowClear (p : Nat) (s : State) : State :=
  let q := s.pool p
  if s.regN pgKv p 0x10C ≤ q.total - q.pages.length then s.setPool p { q with lowHit := false } else s

/-- Remove the prefix-tree nodes that `dead` picks, with their subtrees (03 R96): `fuel` rounds over the tree. -/
def killNodes (fuel : Nat) (dead : Nat → PNode → Bool) (nodes : SMap PNode) : SMap PNode :=
  match fuel with
  | 0 => nodes
  | n + 1 =>
    let gone := (nodes.filter fun e => dead e.1 e.2).map (·.1)
    if gone.isEmpty then nodes
    else
      let left := SMap.keep nodes fun k _ => !gone.contains k
      killNodes n (fun _ v => match v.parent with | some q => gone.contains q | none => false) left

/-- Nodes that name page `pg` of partition `p` go, with their subtrees. -/
def removeNodesOf (p pg : Nat) (s : State) : State :=
  let nodes := killNodes (s.serv.nodes.length + 1) (fun _ v => v.part = p && v.pages.contains pg) s.serv.nodes
  { s with serv := { s.serv with nodes := nodes } }

/-- Slots per chain page of chain page `i` that a chain of length `len` keeps. -/
def slotsKept (len removed slots i : Nat) : Nat := Nat.min slots (len - removed - i * slots)

/-- The chain of pool `q` that holds page `pg`, with the page's index. -/
def KvPool.holderOf (q : KvPool) (pg : Nat) : Option (Nat × Nat) :=
  q.chains.findSome? fun e => (e.2.pages.findIdx? (· = pg)).map fun i => (e.1, i)

/-- A reference leaves a page (06 R165): FREE at the last one, PRIVATE with one left, a LOST page stays lost. -/
def releaseRef (p pg : Nat) (s : State) : State :=
  let q := s.pool p
  match SMap.find q.pages pg with
  | none => s
  | some g =>
    if g.refc ≤ 1 then
      let s1 := kvBump (lowClear p (s.setPool p { q with pages := SMap.del q.pages pg })) p 0x184
      removeNodesOf p pg s1
    else
      let n := g.refc - 1
      let st := if g.st = .lost then PageSt.lost else if n = 1 then .priv else .shared
      -- SHARED to PRIVATE: fill becomes the slots that the remaining chain holds in it (R164)
      let fill := if st = .priv then
          match q.holderOf pg with
          | some (ck, i) =>
            let c := SMap.get q.chains {} ck
            slotsKept c.len c.removed q.slots i
          | none => g.fill
        else g.fill
      s.setPool p { q with pages := SMap.put q.pages pg { g with refc := n, st := st, fill := fill } }

/-- A share of a page: refused above 65,535 references (06 R162, R165). -/
def shareRef (p pg : Nat) (s : State) : State :=
  let q := s.pool p
  match SMap.find q.pages pg with
  | none => s
  | some g =>
    kvBump (s.setPool p { q with
      pages := SMap.put q.pages pg { g with refc := g.refc + 1, st := if g.st = .lost then .lost else .shared } }) p 0x188

/-- Allocate a page of holder group `gi` for a step slot; none where no member has a free frame. -/
def allocPage (p gi slot tenant grp firstPos idx : Nat) (onCore : Option Nat) (s : State) : Option (Nat × State) :=
  let q := s.pool p
  match q.groups[gi]? with
  | none => none
  | some g =>
    let core := match onCore with
      | some c => if 0 < q.freeFrames c then some c else q.place g
      | none => q.place g
    match core with
    | none => none
    | some c => match q.nextFrame c with
      | none => none
      | some f =>
        let pg := pageNo c f
        let e : Page := { st := .priv, tenant := tenant, group := grp, firstPos := firstPos, slot := slot,
                          head := g.head, layer := g.layer, stage := g.stage }
        let s1 := kvBump (s.setPool p { q with pages := SMap.put q.pages pg e }) p 0x180
        let s2 := grant { part := p, core := c, op := .allocate, slot := slot, page := pg, head := g.head,
                          layer := g.layer, idx := idx } s1
        some (pg, lowWater p s2)

/-- The groups of a pool with their indices. -/
def KvPool.groupIdx (q : KvPool) : List Nat := List.range q.groups.length

/-- The step slot that a session's live request has in a partition, in the draft that serves it, or in a member of a span. -/
def slotOf (s : State) (p sess : Nat) : Option Nat :=
  match s.serv.reqs.findSome? fun e =>
    if e.2.session = sess then
      (if (SMap.get s.serv.sess {} sess).part = p then e.2.slot else if e.2.dpart = p then e.2.dslot else none)
    else none with
  | some sl => some sl
  | none => ((s.part p).spanSeqs.find? fun e => e.2.1 = sess).map (·.1)

/-- A page leaves the local list of the slot that uses it (06 R161); a session without a slot is in no list. -/
def dropGrant (p sess pg : Nat) (s : State) : State :=
  match slotOf s p sess with
  | some sl => grant { part := p, core := pageCore pg, op := .release, slot := sl, page := pg } s
  | none => s

/-- The leading pages that a chain keeps at length `len` (06 R165): a chain cut to below a page's first position releases it;
one that begins just there stays (R163), unless `edge` is false, as where a rewind frees pages that hold nothing (05 R146).
No chain keeps a LOST page. -/
def keptPages (q : KvPool) (c : Chain) (len : Nat) (edge : Bool) : Nat :=
  (c.pages.zipIdx.takeWhile fun e => match SMap.find q.pages e.1 with
    | some g => (decide (g.firstPos < len) || (edge && decide (g.firstPos = len))) && decide (g.st ≠ .lost)
    | none => decide (c.removed + e.2 * q.slots < len)).length

def isMerged (q : KvPool) (pg : Nat) : Bool := (SMap.find q.pages pg).any (·.merged)

/-- The removed count of a chain that keeps `k` pages: the slots per page for each merge into one of them (06 R160, R174). -/
def removedAfter (q : KvPool) (c : Chain) (k : Nat) : Nat :=
  q.slots * (c.pages.take k).foldl (fun n pg => n + ((SMap.find q.pages pg).map (·.also.length)).getD 0) 0

/-- The first positions of the pages that a page's slots come from. -/
def Page.firsts (g : Page) : List Nat := g.firstPos :: g.also

/-- Where a cut falls on a chain: a merged page holds slots of several ranges of positions in no order, so a cut that lies within
or between them falls back to the page's first position (06 R160, R174; notes/assumptions/28.md). -/
def chainCut (q : KvPool) (c : Chain) (len : Nat) : Nat :=
  let once (n : Nat) : Nat := c.pages.foldl (fun n pg => match SMap.find q.pages pg with
    | none => n
    | some g => if !g.merged || decide (n ≤ g.firstPos) || g.firsts.all (fun f => decide (f + q.slots ≤ n)) then n else g.firstPos) n
  c.pages.foldl (fun n _ => once n) len

/-- The KV length that a cut to `len` leaves a session, over all its chains. -/
def mergedCut (q : KvPool) (sess len : Nat) : Nat :=
  (List.range (q.groups.length + 1)).foldl (fun n _ => q.groupIdx.foldl (fun m gi => chainCut q (q.chain sess gi) m) n) len

/-- A chain falls to `len` slots: pages it does not keep are released, a private page's fill falls (06 R164, R165); the holder of
its last page is told (R161). -/
def truncChain (p sess gi len : Nat) (edge : Bool) (s : State) : State :=
  let q := s.pool p
  let c0 := q.chain sess gi
  let lost := c0.pages.any fun pg => (SMap.find q.pages pg).any fun g => decide (g.st = .lost)
  if q.slots = 0 ∨ (c0.len ≤ len ∧ lost = false) then s
  else
    let k := keptPages q c0 len edge
    let c : Chain := { len := Nat.min len c0.len, removed := removedAfter q c0 k, pages := c0.pages.take k, wr := Nat.min c0.wr len }
    let kept := slotsKept len c.removed q.slots (k - 1)
    let s1 := s.setPool p (q.setChain sess gi c)
    let s2 := match c.pages.getLast? with
      | none => s1
      | some pg =>
        let s2 := s1.modPool p fun q1 => { q1 with
          pages := SMap.mod q1.pages pg fun e => if e.st = .priv then { e with fill := Nat.min e.fill kept } else e }
        match slotOf s p sess, SMap.find q.pages pg with
        | some sl, some g => if g.st = .priv ∧ kept < g.fill then
            grant { part := p, core := pageCore pg, op := .truncate, slot := sl, page := pg, slots := kept } s2 else s2
        | _, _ => s2
    (c0.pages.drop k).foldl (fun t pg => releaseRef p pg (dropGrant p sess pg t)) s2

def truncLocal (p sess len : Nat) (edge : Bool) (s : State) : State :=
  (s.pool p).groupIdx.foldl (fun t gi => truncChain p sess gi len edge t) s

/-- Releases at the head of a span reach every member (13 R332). -/
def tellRelease (p sess len : Nat) (edge : Bool) (s : State) : State :=
  if (s.part p).isHead then tellMembers p (.release sess len edge) s else s

/-- Every chain of a session in a pool falls to the pages that hold positions below `len`. Positions and slots differ
by the chain's removed count (06 R160). -/
def truncSession (p sess len : Nat) (s : State) (edge : Bool := true) : State :=
  tellRelease p sess len edge (truncLocal p sess len edge s)

def freeLocal (p sess : Nat) (s : State) : State :=
  (s.pool p).groupIdx.foldl (fun t gi =>
    let q := t.pool p
    let c := q.chain sess gi
    c.pages.foldl (fun u pg => releaseRef p pg (dropGrant p sess pg u)) (t.setPool p (q.setChain sess gi {}))) s

/-- Every page of a session in a pool is released; chains are empty again (06 R163, R165). -/
def freeChains (p sess : Nat) (s : State) : State := tellRelease p sess 0 false (freeLocal p sess s)

/-- Whether a session holds any page in a group of a pool. -/
def holdsIn (q : KvPool) (sess : Nat) (gi : Nat) : Bool := !(q.chain sess gi).pages.isEmpty

/-- Write permission of slot `sl` (06 R164): in place on a private page, or as the extender of a shared one. -/
def mayWrite (g : Page) (len first s : Nat) : Bool :=
  g.st = .priv || (g.st = .shared && s = g.fill && len = first + g.fill)

/-- Make room for one slot at the end of a chain (06 R164): in place, as extender, by a copy of the last page, or on a
new page; none where a page cannot be placed. -/
def growOne (p sess gi slot tenant grp : Nat) (s : State) : Option State :=
  let q := s.pool p
  let c := q.chain sess gi
  let pos := c.len
  let i := (c.len - c.removed) / q.slots
  let sl := (c.len - c.removed) % q.slots
  match c.pages[i]? with
  | none =>
    match allocPage p gi slot tenant grp pos i none s with
    | none => none
    | some (pg, s1) =>
      some (s1.modPool p fun q1 =>
        let q2 := { q1 with pages := SMap.mod q1.pages pg fun e => { e with fill := 1 } }
        q2.setChain sess gi { c with len := c.len + 1, pages := c.pages ++ [pg] })
  | some pg =>
    match SMap.find q.pages pg with
    | none => none
    | some g =>
      let first := c.removed + i * q.slots
      if mayWrite g c.len first sl then
        some (s.modPool p fun q1 =>
          let q2 := { q1 with
            pages := SMap.mod q1.pages pg fun e => { e with fill := Nat.min q.slots (Nat.max e.fill (sl + 1)) } }
          q2.setChain sess gi { c with len := c.len + 1 })
      else
        match allocPage p gi slot tenant grp g.firstPos i (some (pageCore pg)) s with
        | none => none
        | some (np, s1) =>
          let s2 := kvBump (s1.modPool p fun q1 =>
            let q2 := { q1 with pages := SMap.mod q1.pages np fun e => { e with fill := sl + 1 } }
            q2.setChain sess gi { c with len := c.len + 1, pages := c.pages.set i np }) p 0x18C
          let s3 := grant { part := p, core := pageCore np, op := .copy, slot := slot, page := np, src := pg,
                            slots := sl, idx := i } s2
          -- the source leaves the writer's list (06 R161)
          some (releaseRef p pg (grant { part := p, core := pageCore pg, op := .release, slot := slot, page := pg } s3))

/-- Room for `n` more slots on one chain. -/
def growN (p sess gi slot tenant grp : Nat) : Nat → State → Option State
  | 0, s => some s
  | n + 1, s => match growOne p sess gi slot tenant grp s with
    | none => none
    | some t => growN p sess gi slot tenant grp n t

/-- Room on every chain of a session up to length `to`; on failure the group that is short (06 R175). -/
def growAll (p sess slot tenant grp upto : Nat) : List Nat → State → Except Nat State
  | [], s => .ok s
  | gi :: r, s =>
    match growN p sess gi slot tenant grp (upto - ((s.pool p).chain sess gi).len) s with
    | none => .error gi
    | some t => growAll p sess slot tenant grp upto r t

/-- The positions that a session's chains have slots for: the length of the shortest, at most `top`. -/
def heldLen (q : KvPool) (sess top : Nat) : Nat := q.groupIdx.foldl (fun n gi => Nat.min n (q.chain sess gi).len) top

/-- A page becomes LOST (06 R165): counted, nodes naming it removed. The chains' truncation is `loseSessions`. -/
def losePage (p pg : Nat) (s : State) : State :=
  let q := s.pool p
  match SMap.find q.pages pg with
  | none => s
  | some g =>
    if g.st = .lost then s
    else removeNodesOf p pg (kvBump (s.setPool p { q with pages := SMap.put q.pages pg { g with st := .lost } }) p 0x19C)

/-- The KV length that a session keeps when a page of its chains is lost: the page's first position (06 R165). -/
def lostCut (q : KvPool) (sess pg : Nat) : Option Nat :=
  if q.groupIdx.any fun gi => (q.chain sess gi).pages.contains pg
  then (SMap.find q.pages pg).map (·.firstPos) else none

/-- A page table query (06 R178): a page beyond the pool sets err, a FREE one reads state 0. -/
def pageSnapshot (q : KvPool) (pg : Nat) : List Nat :=
  let inPool := pageFrame pg < (q.kvCore (pageCore pg)).frames && pg < 2 ^ 24
  match SMap.find q.pages pg with
  | none => [(if inPool then 0 else 2 ^ 14) + 2 ^ 15, 0, 0, 0]
  | some g =>
    let st := match g.st with | .priv => 1 | .shared => 2 | .lost => 3
    [st + g.fill * 4 + (if g.aged then 2 ^ 9 else 0) + (if g.merged then 2 ^ 10 else 0) + 2 ^ 15 + g.refc * 2 ^ 16,
     g.tenant + g.group * 2 ^ 12, g.firstPos, g.slot + g.head * 2 ^ 12 + g.layer * 2 ^ 16 + g.stage * 2 ^ 24]

end Sys2Proof.Machine
end

