-- ==== Sys2Proof/Machine/Aes.lean ====
section
/-! DEFINITION. AES-256 in XTS mode (11 R287 names AES-256-XTS under IEEE 1619; the algorithm is taken from FIPS 197 and
IEEE 1619, notes/assumptions/27.md). -/

namespace Sys2Proof.Machine.Aes

/-- Product in GF(2^8) by the polynomial 0x11B, eight rounds of shift and add. -/
def mulGo (p : Nat) : (n a b acc : Nat) → Nat
  | 0, _, _, acc => acc
  | n + 1, a, b, acc =>
    mulGo p n (if 128 ≤ a then (2 * a) ^^^ p else 2 * a) (b / 2) (if b % 2 = 1 then acc ^^^ a else acc)
def mul (a b : Nat) : Nat := mulGo 0x11B 8 a b 0

/-- a^254, the inverse, by squaring. -/
def inv (a : Nat) : Nat :=
  let a2 := mul a a; let a3 := mul a2 a; let a6 := mul a3 a3; let a12 := mul a6 a6; let a15 := mul a12 a3
  let a30 := mul a15 a15; let a60 := mul a30 a30; let a120 := mul a60 a60; let a126 := mul a120 a6
  let a127 := mul a126 a
  mul a127 a127

def rotl8 (x k : Nat) : Nat := (x * 2 ^ k) % 256 + x / 2 ^ (8 - k)
def sbox (x : Nat) : Nat :=
  let b := inv x
  b ^^^ rotl8 b 1 ^^^ rotl8 b 2 ^^^ rotl8 b 3 ^^^ rotl8 b 4 ^^^ 0x63
def invSbox (y : Nat) : Nat :=
  inv (rotl8 y 1 ^^^ rotl8 y 3 ^^^ rotl8 y 6 ^^^ 0x05)

def xorL (a b : List Nat) : List Nat := List.zipWith (· ^^^ ·) a b

/-- Key expansion of AES-256: 60 words of 4 bytes, newest first; `i` words are there. -/
def expandGo : (n i : Nat) → Nat → List (List Nat) → List (List Nat)
  | 0, _, _, ws => ws
  | n + 1, i, rcon, ws =>
    let t := ws.headD []
    let old := ws.getD 7 []
    let u := if i % 8 = 0 then
        xorL ((t.drop 1 ++ t.take 1).map sbox) [rcon, 0, 0, 0]
      else if i % 8 = 4 then t.map sbox else t
    expandGo n (i + 1) (if i % 8 = 0 then mul rcon 2 else rcon) (xorL old u :: ws)

/-- The 15 round keys of a 32-byte key. -/
def roundKeys (key : List Nat) : List (List Nat) :=
  let w0 := ((List.range 8).map fun i => (key.drop (4 * i)).take 4).reverse
  let ws := (expandGo 52 8 1 w0).reverse
  (List.range 15).map fun r => ((ws.drop (4 * r)).take 4).flatten

/-- Bytes are in column order: byte 4c + r is row r, column c. -/
def shiftRows (s : List Nat) (back : Bool) : List Nat :=
  (List.range 16).map fun i =>
    let r := i % 4
    s.getD (4 * ((i / 4 + (if back then 4 - r else r)) % 4) + r) 0

def mixCol (m : List Nat) (s : List Nat) : List Nat :=
  (List.range 16).map fun i =>
    (List.range 4).foldl (fun a k => a ^^^ mul (m.getD ((k + 4 - i % 4) % 4) 0) (s.getD (4 * (i / 4) + k) 0)) 0

def encBlock (rk : List (List Nat)) (b : List Nat) : List Nat :=
  let s := ((rk.drop 1).take 13).foldl (fun x k => xorL (mixCol [2, 3, 1, 1] (shiftRows (x.map sbox) false)) k) (xorL b (rk.headD []))
  xorL (shiftRows (s.map sbox) false) (rk.getD 14 [])

def decBlock (rk : List (List Nat)) (b : List Nat) : List Nat :=
  let s := ((rk.drop 1).take 13).reverse.foldl (fun x k => mixCol [14, 11, 13, 9] (xorL ((shiftRows x true).map invSbox) k))
    (xorL b (rk.getD 14 []))
  xorL ((shiftRows s true).map invSbox) (rk.headD [])

/-- The tweak of the next block: times α in GF(2^128), little-endian. -/
def nextTweak (t : Nat) : Nat :=
  let d := 2 * t
  if 2 ^ 128 ≤ d then (d - 2 ^ 128) ^^^ 0x87 else d

def nats (n v : Nat) : List Nat := (List.range n).map fun i => v / 256 ^ i % 256

/-- XTS over whole blocks: `dir` encrypts or decrypts; the data unit number gives the first tweak. -/
def xtsGo (rk : List (List Nat)) (dec : Bool) : (n t : Nat) → List Nat → List Nat
  | 0, _, _ => []
  | n + 1, t, b =>
    let tw := nats 16 t
    let x := xorL (b.take 16) tw
    xorL (if dec then decBlock rk x else encBlock rk x) tw ++ xtsGo rk dec n (nextTweak t) (b.drop 16)

def leOf (l : List Nat) : Nat := l.foldr (fun b a => b + 256 * a) 0

/-- A 64-byte XTS key: bytes 0-31 the data key, 32-63 the tweak key. `first` is the number in the data unit of the first block. -/
def xts (key : BitVec 512) (dec : Bool) (unit : Nat) (b : List Byte) (first : Nat := 0) : List Byte :=
  let k := nats 64 key.toNat
  let t0 := leOf (encBlock (roundKeys (k.drop 32)) (nats 16 unit))
  let t1 := (List.range first).foldl (fun t _ => nextTweak t) t0
  (xtsGo (roundKeys (k.take 32)) dec (b.length / 16) t1 (b.map (·.toNat))).map (BitVec.ofNat 8)

end Sys2Proof.Machine.Aes
end

