-- ==== Sys2Proof/Machine/MemOps.lean ====
section
/-! DEFINITION. The code SC-256 (16 R376) and edge memory (11): channels, data units with their metadata words, reads
and writes of the controllers, key slots. -/

namespace Sys2Proof.Machine

/-! ### SC-256 -/

def gfMul (a b : Nat) : Nat := Aes.mulGo 0x11D 8 a b 0
/-- α to the n. -/
def gfPow : Nat → Nat
  | 0 => 1
  | n + 1 => gfMul (gfPow n) 2

/-- What the decoder makes of a word whose symbols are off by the pattern (16 R376; the code is linear). -/
inductive Decoded where
  | clean
  | corrected (left : List (Nat × Nat))
  | uncorrectable
  deriving DecidableEq, Repr

/-- Syndrome k of an error pattern: (symbol, difference) pairs. -/
def syndrome (k : Nat) (e : List (Nat × Nat)) : Nat := e.foldl (fun a x => a ^^^ gfMul x.2 (gfPow (k * x.1))) 0

/-- The pattern as a list with each symbol once, zeros left out. -/
def patternOf (e : List (Nat × Nat)) : List (Nat × Nat) :=
  ((List.range 35).map fun p => (p, (e.filter fun x => x.1 = p).foldl (fun a x => a ^^^ x.2 % 256) 0)).filter fun x => x.2 ≠ 0

/-- The decoder of R376; `left` is what the pattern is after the correction. -/
def sc256 (e0 : List (Nat × Nat)) : Decoded :=
  let e := patternOf e0
  let s0 := syndrome 0 e
  let s1 := syndrome 1 e
  let s2 := syndrome 2 e
  if s0 = 0 ∧ s1 = 0 ∧ s2 = 0 then .clean
  else if s0 ≠ 0 ∧ s1 ≠ 0 ∧ gfMul s1 s1 = gfMul s0 s2 then
    match (List.range 35).find? fun p => gfMul s0 (gfPow p) = s1 with
    | some p => .corrected (patternOf (e ++ [(p, s0)]))
    | none => .uncorrectable
  else .uncorrectable

/-- Check symbols p0, p1, p2 of 32 data bytes: those that make the three syndromes zero. -/
def sc256Checks (d : List Byte) : List Nat :=
  let e := d.zipIdx.map fun x => (x.2 + 3, x.1.toNat)
  let s0 := syndrome 0 e
  let s1 := syndrome 1 e
  let s2 := syndrome 2 e
  -- p0 + p1 + p2 = s0; p0 + a p1 + a^2 p2 = s1; p0 + a^2 p1 + a^4 p2 = s2
  let d1 := s0 ^^^ s1
  let d2 := s0 ^^^ s2
  -- (1 + a) p1 + (1 + a^2) p2 = d1; (1 + a^2) p1 + (1 + a^4) p2 = d2
  let det := gfMul 3 17 ^^^ gfMul 5 5
  let inv := (List.range 256).find? (fun x => gfMul x det = 1) |>.getD 0
  let p1 := gfMul inv (gfMul d1 17 ^^^ gfMul d2 5)
  let p2 := gfMul inv (gfMul 3 d2 ^^^ gfMul 5 d1)
  [s0 ^^^ p1 ^^^ p2, p1, p2]

/-- Errors of word `k` among those a command brings: word 9u + k is word k of data unit u, k = 8 its metadata word. -/
def errsOf (errs : List SymErr) (k : Nat) : List (Nat × Nat) :=
  (errs.filter fun e => e.word = k).map fun e => (e.sym, e.flip.toNat)

/-- The bits of a metadata word that are wrong: its SEC-DED code corrects one (11 R278). -/
def metaFlips (errs : List SymErr) (k : Nat) : Nat :=
  (errs.filter fun e => e.word = k).foldl (fun n e => n + ((List.range 8).filter fun b => e.flip.getLsbD b).length) 0

/-! ### Key slots (11 R288) -/

/-- The slot of an owner: 1 tenant, 2 model owner, 3 device. -/
def keySlot (s : State) (owner slot : Nat) : KeySlot :=
  if owner = 1 then SMap.get s.mem.tenantKeys {} slot
  else if owner = 2 then SMap.get s.mem.ownerKeys {} slot
  else if owner = 3 then s.mem.devKey else {}

/-- A generation after a load or a clear: past 0xFFFF it is 1. -/
def nextGen (g : Nat) : Nat := if g = 0xFFFF then 1 else g + 1

def setKeySlot (owner slot : Nat) (k : KeySlot) (s : State) : State :=
  if owner = 1 then { s with mem := { s.mem with tenantKeys := SMap.set s.mem.tenantKeys {} slot k } }
  else if owner = 2 then { s with mem := { s.mem with ownerKeys := SMap.set s.mem.ownerKeys {} slot k } }
  else { s with mem := { s.mem with devKey := k } }

/-! ### Addresses (11 R279, R280) -/

def t1Channel (a : Nat) : Nat := a / 2048 % 48
def t1Page (a : Nat) : Nat := pgEmc (t1Channel a)
def t1Bytes : Nat := 1536 * 2 ^ 30
def hdmBytes (s : State) : Nat := s.fld pgGlob 0 0x108 16 9 * 2 ^ 30
def poolBase (s : State) : Nat := hdmBytes s + s.fr.size

/-! ### A data unit -/

def metaOf (s : State) (u : Nat) : Meta := SMap.get s.mem.metas {} u

/-- Raise one of the four errors of a controller (11 R285, R299), with the address and the requester in ERR_LOC; `n` words of the
unit were not correctable (R300). -/
def emcErr (addr req code : Nat) (s : State) (n : Nat := 1) : State :=
  let pg := t1Page addr
  let bit := if code = 0x2010 then 0 else if code = 0x2011 then 1 else if code = 0x7020 then 2 else 3
  let s1 := if bit < 2 then s.bump pg 0 0x184 n else s.bump pg 0 0x188
  s1.err pg bit code (addr % 2 ^ 41 + req * 2 ^ 48) (pack [(0, addr), (8, req)])

/-- Whether unit `u` can be read under an access: the code that stops it. -/
def unitCheck (s : State) (x : Access) (u : Nat) (errs : List SymErr) (k : Nat) : Option Nat :=
  let m := metaOf s u
  let ks := keySlot s x.owner x.slot
  if x.owner ≠ 0 ∧ ks.key = none then some 0x7020
  else if 2 ≤ metaFlips errs (9 * k + 8) then some 0x2011
  else if m.owner ≠ x.owner ∨ m.slot ≠ x.slot ∨ (x.owner ≠ 0 ∧ m.gen ≠ ks.gen) then some 0x7021
  else if (List.range 8).any fun w => sc256 (errsOf errs (9 * k + w)) = .uncorrectable then some 0x2010
  else none

/-- Words of a unit that a read corrects, the metadata word included. -/
def unitCe (errs : List SymErr) (k : Nat) : Nat :=
  ((List.range 8).filter fun w => match sc256 (errsOf errs (9 * k + w)) with
    | .corrected _ => true
    | _ => false).length + (if metaFlips errs (9 * k + 8) = 1 then 1 else 0)

/-- Words of a unit that cannot be corrected, the metadata word included (R300). -/
def unitUe (errs : List SymErr) (k : Nat) : Nat :=
  ((List.range 8).filter fun w => sc256 (errsOf errs (9 * k + w)) = .uncorrectable).length +
    (if 2 ≤ metaFlips errs (9 * k + 8) then 1 else 0)

/-- The bytes of a unit as its decoder delivers them: a pattern that the decoder takes for another is miscorrected. -/
def deliver256 (b : List Byte) (errs : List SymErr) (k : Nat) : List Byte :=
  b.zipIdx.map fun e =>
    let w := e.2 / 32
    match sc256 (errsOf errs (9 * k + w)) with
    | .corrected left => match left.find? fun x => x.1 = e.2 % 32 + 3 with
      | some x => e.1 ^^^ BitVec.ofNat 8 x.2
      | none => e.1
    | _ => e.1

/-- The bytes of edge memory, free values where nothing was written under the metadata that is there. -/
def memBytes (s : State) (a n : Nat) : List Byte :=
  if s.mem.junk = [] then Mem.read s.mem.t1 a n
  else (List.range n).map fun i => match s.mem.junk.find? fun r => decide (r.1 ≤ a + i) && decide (a + i < r.2.1) with
    | some r => Config.junkByte r.2.2 (a + i)
    | none => SMap.get s.mem.t1 0#8 (a + i)

/-- Read unit `u`: its 256 bytes, or the code reported to the consumer (11 R285). Corrected words are rewritten. -/
def readUnit (x : Access) (u : Nat) (errs : List SymErr) (k : Nat) (s : State) : Except Nat (List Byte) × State :=
  let a := 256 * u
  match unitCheck s x u errs k with
  | some c => (.error c, emcErr a x.req c s (if c = 0x2010 ∨ c = 0x2011 then unitUe errs k else 1))
  | none =>
    let pg := t1Page a
    let b := deliver256 (memBytes s a 256) errs k
    let s1 := (s.bump pg 0 0x18C).bump pg 0 0x180 (unitCe errs k)
    (.ok b, if errs = [] then s1 else { s1 with mem := { s1.mem with t1 := Mem.write s1.mem.t1 a b } })

/-- Read `n` units from `u` on. -/
def readUnits (x : Access) (errs : List SymErr) : (n u k : Nat) → State → Except Nat (List Byte) × State
  | 0, _, _, s => (.ok [], s)
  | n + 1, u, k, s =>
    match readUnit x u errs k s with
    | (.error c, t) => (.error c, t)
    | (.ok b, t) => match readUnits x errs n (u + 1) (k + 1) t with
      | (.error c, t2) => (.error c, t2)
      | (.ok r, t2) => (.ok (b ++ r), t2)

/-- Read `n` bytes at usable address `a`. -/
def t1Read (x : Access) (a n : Nat) (errs : List SymErr) (s : State) : Except Nat (List Byte) × State :=
  if n = 0 then (.ok [], s)
  else
    let u := a / 256
    match readUnits x errs ((a + n - 1) / 256 - u + 1) u 0 s with
    | (.ok b, t) => (.ok ((b.drop (a % 256)).take n), t)
    | r => r

/-- Byte ranges without those from `lo` to `hi`. -/
def cutRanges (lo hi : Nat) (l : List (Nat × Nat × Nat)) : List (Nat × Nat × Nat) :=
  (l.map fun r => (if r.1 < Nat.min lo r.2.1 then [(r.1, Nat.min lo r.2.1, r.2.2)] else []) ++
    (if Nat.max hi r.1 < r.2.1 then [(Nat.max hi r.1, r.2.1, r.2.2)] else [])).flatten

/-- The read of a read-modify-write and the new metadata word of unit `u`, whose bytes `lo` to `hi` are written (11 R277, R278). Where
the unit's own word is not the writer's, what its other bytes read as from now on is a free value (notes/assumptions/82.md). -/
def unitWrite (m : Meta) (u lo hi : Nat) (s : State) : State :=
  let pg := t1Page (256 * u)
  let rmw := if m.owner = 0 then lo % 32 ≠ 0 ∨ hi % 32 ≠ 0 else hi - lo ≠ 256
  let old := metaOf s u
  let s1 := s.bump pg 0 0x190
  let s2 := if rmw then (s1.bump pg 0 0x18C).bump pg 0 0x194 else s1
  let rest := cutRanges lo hi [(256 * u, 256 * (u + 1), s.free)]
  let foreign := old.owner ≠ m.owner ∨ old.slot ≠ m.slot ∨ old.gen ≠ m.gen
  let junk := if foreign then cutRanges (256 * u) (256 * (u + 1)) s.mem.junk ++ rest else cutRanges lo hi s.mem.junk
  let s3 : State := { s2 with mem := { s2.mem with metas := SMap.set s2.mem.metas {} u m, junk := junk } }
  if foreign ∧ rest ≠ [] then s3.draw else s3

/-- Write bytes at a usable address, unit by unit, each with its metadata word (11 R277, R278); under an empty slot the
write is discarded (11 R288). The answer says whether the data was written. -/
def t1Write (x : Access) (a : Nat) (b : List Byte) (s : State) : Bool × State :=
  let ks := keySlot s x.owner x.slot
  if x.owner ≠ 0 ∧ ks.key = none then (false, emcErr a x.req 0x7020 s)
  else if b.isEmpty then (true, s)
  else
    let u0 := a / 256
    let n := (a + b.length - 1) / 256 - u0 + 1
    let m : Meta := ⟨x.owner, x.slot, if x.owner = 0 then 0 else ks.gen, x.content, x.session⟩
    let s1 := (List.range n).foldl (fun t i =>
      unitWrite m (u0 + i) (Nat.max a (256 * (u0 + i))) (Nat.min (a + b.length) (256 * (u0 + i + 1))) t) s
    (true, { s1 with mem := { s1.mem with t1 := Mem.write s1.mem.t1 a b } })

/-- Ciphertext of data that leaves for host memory under a key slot (11 R287): data units are 256 bytes from a 256-byte boundary of
the host address, with the tweak 2^127 + host address / 256. -/
def hostCipher (s : State) (owner slot : Nat) (dec : Bool) (a : Nat) (b : List Byte) : List Byte :=
  match (keySlot s owner slot).key with
  | none => b
  | some k =>
    let n := (a % 256 + b.length + 255) / 256
    ((List.range n).map fun i =>
      let lo := Nat.max a (256 * (a / 256 + i))
      let hi := Nat.min (a + b.length) (256 * (a / 256 + i + 1))
      Aes.xts k dec (2 ^ 127 + (a / 256 + i)) ((b.drop (lo - a)).take (hi - lo)) (lo % 256 / 16)).flatten

/-! ### The extent pool (R280, R281) -/

def poolFree (s : State) : Nat := s.regN pgMap 0 0x104
def setPoolFree (s : State) (n : Nat) : State := s.setRegN pgMap 0 0x104 n

/-- Extents that a user holds, as runs in the order it took them. -/
def extsOf (s : State) (u : ExtUser) : List (Nat × Nat) := ((s.mem.ext.find? fun e => e.1 = u).map (·.2)).getD []
def setExts (u : ExtUser) (l : List (Nat × Nat)) (s : State) : State :=
  let others := s.mem.ext.filter fun e => e.1 ≠ u
  { s with mem := { s.mem with ext := if l = [] then others else others ++ [(u, l)] } }

def runsLen (l : List (Nat × Nat)) : Nat := l.foldl (fun n r => n + r.2) 0
def insRun (r : Nat × Nat) : List (Nat × Nat) → List (Nat × Nat)
  | [] => [r]
  | x :: l => if r.1 < x.1 then r :: x :: l else x :: insRun r l
/-- What rising runs leave free from `i` to `total`. -/
def gapRuns (total : Nat) : (i : Nat) → List (Nat × Nat) → List (Nat × Nat)
  | i, [] => if i < total then [(i, total - i)] else []
  | i, r :: l => (if i < r.1 then [(i, r.1 - i)] else []) ++ gapRuns total (r.1 + r.2) l
/-- The first `n` of the extents of runs. -/
def takeRuns : Nat → List (Nat × Nat) → List (Nat × Nat)
  | _, [] => []
  | n, r :: l => if n = 0 then [] else if n ≤ r.2 then [(r.1, n)] else r :: takeRuns (n - r.2) l

def freeRuns (s : State) : List (Nat × Nat) := gapRuns (s.regN pgMap 0 0x100) 0 (((s.mem.ext.map (·.2)).flatten).foldr insRun [])

/-- A user takes `n` free extents, those of the lowest numbers: the spec leaves the choice open (DESIGN CHOICE,
notes/assumptions/43.md); in one run where far windows are to cover them. -/
def takeExt (u : ExtUser) (n : Nat) (s : State) (oneRun : Bool := false) : State :=
  let l := match (freeRuns s).find? fun r => oneRun && decide (n ≤ r.2) with
    | some r => [r]
    | none => freeRuns s
  setExts u (extsOf s u ++ takeRuns n l) (setPoolFree s (poolFree s - n))

/-- A user gives back the last `n` of its extents. They are not zeroed (R289). -/
def freeExt (u : ExtUser) (n : Nat) (s : State) : State :=
  setExts u (takeRuns (runsLen (extsOf s u) - n) (extsOf s u)) (setPoolFree s (poolFree s + n))

/-- Extent `k` of runs. -/
def extNth : List (Nat × Nat) → Nat → Option Nat
  | [], _ => none
  | r :: l, k => if k < r.2 then some (r.1 + k) else extNth l (k - r.2)

/-- Usable address of byte `k` of what a user holds (R280). -/
def extAddr (s : State) (u : ExtUser) (k : Nat) : Option Nat :=
  (extNth (extsOf s u) (k / 16384)).map fun e => poolBase s + 16384 * e + k % 16384

/-- `n` bytes from byte `k` of what a user holds, cut at its extents: address, offset among the bytes, length. -/
def extParts (s : State) (u : ExtUser) (k n : Nat) : List (Nat × Nat × Nat) :=
  (List.range ((k % 16384 + n + 16383) / 16384)).filterMap fun i =>
    let lo := Nat.max k (16384 * (k / 16384 + i))
    let hi := Nat.min (k + n) (16384 * (k / 16384 + i + 1))
    if lo < hi then (extAddr s u lo).map fun a => (a, lo - k, hi - lo) else none

/-- A refused access, at the address it named. -/
def extRefuse (x : Access) (u : ExtUser) (k : Nat) (s : State) : State := emcErr ((extAddr s u k).getD (poolBase s)) x.req 0x7020 s

/-- Write bytes from byte `k` of a user's extents on; false where the key slot is empty. -/
def extWrite (x : Access) (u : ExtUser) (k : Nat) (b : List Byte) (s : State) : Bool × State :=
  if x.owner ≠ 0 ∧ (keySlot s x.owner x.slot).key = none then (false, extRefuse x u k s)
  else (true, (extParts s u k b.length).foldl (fun t e => (t1Write x e.1 ((b.drop e.2.1).take e.2.2) t).2) s)

/-- Read `n` bytes from byte `k` of a user's extents on. -/
def extRead (x : Access) (u : ExtUser) (k n : Nat) (s : State) : Except Nat (List Byte) × State :=
  if x.owner ≠ 0 ∧ (keySlot s x.owner x.slot).key = none then (.error 0x7020, extRefuse x u k s)
  else (extParts s u k n).foldl (fun r e => match r.1 with
    | .error _ => r
    | .ok b => match t1Read x e.1 e.2.2 [] r.2 with
      | (.ok d, t) => (.ok (b ++ d), t)
      | (.error c, t) => (.error c, t)) (.ok [], s)

end Sys2Proof.Machine
end

