-- ==== Sys2Proof/Machine/Num.lean ====
section
/-! DEFINITION. Number formats and accumulation (08): the element formats, exact sums and products, the rounding of
the tensor array, block formats, conversion on output, stochastic rounding. -/

namespace Sys2Proof.Machine

/-! ### Element formats (R213) -/

inductive EF where | e2m1 | e3m2 | e2m3 | e4m3 | e5m2 | ue5m3 | fp16 | bf16 | fp32
  deriving DecidableEq, Repr

/-- Exponent bits. The bias of every format is 2^(ew - 1) - 1. -/
def EF.ew : EF → Nat
  | .e2m1 => 2 | .e3m2 => 3 | .e2m3 => 2 | .e4m3 => 4 | .e5m2 => 5 | .ue5m3 => 5 | .fp16 => 5 | .bf16 => 8 | .fp32 => 8
def EF.mw : EF → Nat
  | .e2m1 => 1 | .e3m2 => 2 | .e2m3 => 3 | .e4m3 => 3 | .e5m2 => 2 | .ue5m3 => 3 | .fp16 => 10 | .bf16 => 7 | .fp32 => 23
/-- The magnitude code of the largest finite value. -/
def EF.top : EF → Nat
  | .e2m1 => 7 | .e3m2 => 31 | .e2m3 => 31 | .e4m3 => 0x7E | .e5m2 => 0x7B | .ue5m3 => 0xFE | .fp16 => 0x7BFF
  | .bf16 => 0x7F7F | .fp32 => 0x7F7FFFFF
def EF.hasInf : EF → Bool
  | .e5m2 | .fp16 | .bf16 | .fp32 => true
  | _ => false
/-- The canonical NaN (R215); an FP6 element has none and TOUT writes 0 (R224). -/
def EF.nan : EF → Nat
  | .e4m3 | .e5m2 => 0x7F | .ue5m3 => 0xFF | .fp16 => 0x7E00 | .bf16 => 0x7FC0 | .fp32 => 0x7FC00000
  | _ => 0
/-- The sign bit; UE5M3 has none. -/
def EF.sign (f : EF) : Nat := if f = .ue5m3 then 0 else 2 ^ (f.ew + f.mw)

/-- The value of a code (R213). -/
def EF.decode (f : EF) (code : Nat) : Fp :=
  let mag := code % 2 ^ (f.ew + f.mw)
  let neg := decide (f ≠ .ue5m3) && bitAt code (f.ew + f.mw)
  let ex := mag / 2 ^ f.mw
  let fr := mag % 2 ^ f.mw
  let q : Int := 2 - 2 ^ (f.ew - 1) - f.mw
  if f.top < mag then (if f.hasInf ∧ mag = f.top + 1 then .inf neg else .nan)
  else if ex = 0 then .fin neg fr q
  else .fin neg (2 ^ f.mw + fr) (q + ex - 1)

/-! ### Exact arithmetic -/

/-- Signed significand of a finite number at exponent `q`, not above its own. -/
def alignAt (neg : Bool) (m : Nat) (e q : Int) : Int :=
  let v : Int := m * 2 ^ (e - q).toNat
  if neg then -v else v

/-- Sum of two numbers, exact; an exact zero of unlike zeros is +0 (IEEE 754). -/
def Fp.add : Fp → Fp → Fp
  | .nan, _ => .nan
  | _, .nan => .nan
  | .inf a, .inf b => if a = b then .inf a else .nan
  | .inf a, .fin .. => .inf a
  | .fin .., .inf b => .inf b
  | .fin n1 m1 e1, .fin n2 m2 e2 =>
    let q := min e1 e2
    let v := alignAt n1 m1 e1 q + alignAt n2 m2 e2 q
    if v = 0 then .fin (n1 && n2 && decide (m1 = 0) && decide (m2 = 0)) 0 q else .fin (decide (v < 0)) v.natAbs q

/-- Product of two numbers, exact. -/
def Fp.mul : Fp → Fp → Fp
  | .nan, _ => .nan
  | _, .nan => .nan
  | .inf a, .inf b => .inf (a != b)
  | .inf a, .fin b m _ => if m = 0 then .nan else .inf (a != b)
  | .fin a m _, .inf b => if m = 0 then .nan else .inf (a != b)
  | .fin a m1 e1, .fin b m2 e2 => .fin (a != b) (m1 * m2) (e1 + e2)

def Fp.neg : Fp → Fp
  | .nan => .nan
  | .inf a => .inf (!a)
  | .fin a m e => .fin (!a) m e

def Fp.isNan : Fp → Bool
  | .nan => true
  | _ => false

def f32 (v : W32) : Fp := EF.fp32.decode v.toNat
def toF32 (x : Fp) : W32 := BitVec.ofNat 32 (fpEncode 8 23 x)

/-- rne32 (R220, R222): the FP32 code, and whether it saturated; a NaN is written as the canonical NaN. -/
def rne32 (x : Fp) : W32 × Bool :=
  match x with
  | .nan => (0x7FC00000#32, false)
  | .inf n => (if n then 0xFF7FFFFF#32 else 0x7F7FFFFF#32, true)
  | .fin n m e =>
    let c := fpRound 8 23 n m e
    if 0x7F7FFFFF < c % 2 ^ 31 then (if n then 0xFF7FFFFF#32 else 0x7F7FFFFF#32, true) else (BitVec.ofNat 32 c, false)

/-- As rne32, on decoded numbers. -/
def rne (x : Fp) : Fp × Bool :=
  let r := rne32 x
  (f32 r.1, r.2)

/-! ### Rounding of rationals to an element format -/

/-- floor of log2 of num / den. -/
def log2Q (num den : Nat) : Int :=
  let k : Int := Nat.log2 num - Nat.log2 den
  if den * 2 ^ k.toNat ≤ num * 2 ^ (-k).toNat then k else k - 1

/-- num / den times 2^e at a format's quantum: the magnitude code below it (unbounded), remainder and divisor. -/
def EF.floorQ (f : EF) (num den : Nat) (e : Int) : Nat × Nat × Nat :=
  let lo : Int := 2 - 2 ^ (f.ew - 1) - f.mw
  let q := max (log2Q num den + e - f.mw) lo
  let n := num * 2 ^ (e - q).toNat
  let d := den * 2 ^ (q - e).toNat
  let mant := n / d
  ((q - lo).toNat * 2 ^ f.mw + mant, n % d, d)

/-- Round a magnitude to the format: nearest even, or by the 16 random bits `r` (R223, R225); it saturates. -/
def EF.roundQ (f : EF) (neg : Bool) (num den : Nat) (e : Int) (r : Option Nat) : Nat :=
  let sg := if neg then f.sign else 0
  if num = 0 then sg
  else
    let t := f.floorQ num den e
    let up : Bool := match r with
      | none => decide (t.2.2 < 2 * t.2.1) || (decide (2 * t.2.1 = t.2.2) && decide (t.1 % 2 = 1))
      | some bits => decide (65536 ≤ t.2.1 * 65536 / t.2.2 + bits)
    sg + Nat.min (if up then t.1 + 1 else t.1) f.top

/-- Convert a number to the format, saturating; ±∞ saturates where the format is none of FP32, FP16, BF16 (R223). -/
def EF.conv (f : EF) (x : Fp) (r : Option Nat := none) : Nat :=
  match x with
  | .nan => f.nan
  | .inf n => (if n then f.sign else 0) +
      (if f = .fp32 ∨ f = .fp16 ∨ f = .bf16 then f.top + 1 else f.top)
  | .fin n m e => f.roundQ n m 1 e r

/-! ### Block formats (R216-R219) -/

inductive BF where | g4 | k4 | g3 | g2
  deriving DecidableEq, Repr

/-- Bits `lo ..` of a little-endian byte string. -/
def streamBits (b : List Byte) (lo w : Nat) : Nat := bitsOf (leNat b) lo w

/-- Level of an element code; G3 code 0b100 and G2 code 0b10 decode as 0 (R218). -/
def BF.level (f : BF) (c : Nat) : Fp :=
  match f with
  | .g4 | .k4 => EF.e2m1.decode c
  | .g3 => if c < 4 then .fin false c 0 else if c = 4 then .fin false 0 0 else .fin true (8 - c) 0
  | .g2 => if c = 1 then .fin false 1 0 else if c = 3 then .fin true 1 0 else .fin false 0 0

/-- The block scale (R218): UE5M3 for K4, else E4M3 with bit 7 ignored. -/
def BF.scale (f : BF) (byte : Nat) : Fp :=
  if f = .k4 then EF.ue5m3.decode byte else EF.e4m3.decode (byte % 128)

def BF.elemBits : BF → Nat
  | .g4 | .k4 => 4 | .g3 => 3 | .g2 => 2
def BF.bytes (f : BF) : Nat := 2 * f.elemBits + 1

/-- Operand formats of the tensor array: a block format or an element format without scales (R190). -/
inductive TF where
  | blk (f : BF)
  | el (f : EF)
  deriving DecidableEq, Repr

/-- Bytes of 16 values: elements and the block scale. -/
def TF.bytes : TF → Nat
  | .blk f => f.bytes
  | .el f => 2 * (if f = .ue5m3 then 8 else 1 + f.ew + f.mw)

/-- The 16 levels and the block scale of one block; every level is NaN where the scale is (R218). -/
def TF.block (f : TF) (b : List Byte) : List Fp × Fp :=
  match f with
  | .blk k =>
    let sc := k.scale (leNat (b.drop (2 * k.elemBits)))
    ((List.range 16).map fun i => if sc.isNan then .nan else k.level (streamBits b (k.elemBits * i) k.elemBits), sc)
  | .el e =>
    let w := 1 + e.ew + e.mw
    ((List.range 16).map fun i => e.decode (streamBits b (w * i) w), .fin false 1 0)

/-- decode_block (R218): the 16 values, tensor scale not applied. -/
def decodeBlock (f : BF) (b : List Byte) : List Fp :=
  let r := (TF.blk f).block b
  r.1.map fun x => x.mul r.2

def Fp.mag : Fp → Nat × Int
  | .fin _ m e => (m, e)
  | _ => (0, 0)

/-- a ≤ b for nonnegative m times 2 to the e. -/
def leMag (a b : Nat × Int) : Bool := decide (a.1 * 2 ^ (a.2 - b.2).toNat ≤ b.1 * 2 ^ (b.2 - a.2).toNat)

/-- encode_block (R219): element codes and the scale code of 16 FP32 values; `sr` gives the random bits per element. -/
def encodeBlock (v : List Fp) (k4 : Bool) (sr : Nat → Option Nat) : List Nat × Nat :=
  let sf : EF := if k4 then .ue5m3 else .e4m3
  let amax := v.foldl (fun a x => if leMag a x.mag then x.mag else a) (0, 0)
  if v.any Fp.isNan then (List.replicate 16 0, sf.nan)
  else if amax.1 = 0 then (List.replicate 16 0, 0)
  else
    let six (c : Nat) : Nat × Int := let b := (sf.decode c).mag; (6 * b.1, b.2)
    let c := ((List.range sf.top).map (· + 1)).find? (fun c => leMag amax (six c))
    let code := c.getD sf.top
    let b := (sf.decode code).mag
    (v.zipIdx.map fun x => match x.1 with
      | .fin n m e => EF.e2m1.roundQ n m b.1 (e - b.2) (sr x.2)
      | _ => 0, code)

/-- Pack codes of `w` bits as a little-endian stream of `n` bytes. -/
def packCodes (w n : Nat) (l : List Nat) : List Byte :=
  leBytes n (l.foldr (fun c a => c % 2 ^ w + 2 ^ w * a) 0)

/-! ### The tensor array (R220-R222) -/

/-- Special values of a block's products (R221): NaN, one infinity, or none of these. -/
def blockSpecial (ps : List Fp) : Option Fp :=
  if ps.any Fp.isNan then some .nan
  else
    let p := ps.contains (.inf false)
    let n := ps.contains (.inf true)
    if p && n then some .nan else if p then some (.inf false) else if n then some (.inf true) else none

/-- p of R220: the exact sum, or with a BF16 operand an FP32 sum in increasing k; and whether an addition saturated. -/
def blockSum (bf16 : Bool) (ps : List Fp) : Fp × Bool :=
  match blockSpecial ps with
  | some x => (x, false)
  | none =>
    if bf16 then ps.foldl (fun a x => let r := rne (a.1.add x); (r.1, a.2 || r.2)) (.fin false 0 0, false)
    else (ps.foldl Fp.add (.fin false 0 0), false)

/-- One accumulator element of TMM (R220): operand blocks, the scale rne32(sx * sw), the old element in add mode. The
flag tells of an infinity or a saturation met, or a NaN written (R222). -/
def tmmElem (bf16 : Bool) (xs ws : List (List Fp × Fp)) (scale : Fp × Bool) (old : Option Fp) : W32 × Bool :=
  let r := (xs.zip ws).foldl (fun (a : Fp × Bool) (b : (List Fp × Fp) × (List Fp × Fp)) =>
    let p := blockSum bf16 ((b.1.1.zip b.2.1).map fun e => e.1.mul e.2)
    let t := rne ((p.1.mul b.1.2).mul b.2.2)
    let u := rne (a.1.add t.1)
    (u.1, a.2 || p.2 || t.2 || u.2)) (.fin false 0 0, false)
  let q := rne (r.1.mul scale.1)
  let z := match old with
    | some a => rne (a.add q.1)
    | none => q
  (toF32 z.1, r.2 || scale.2 || q.2 || z.2 || z.1.isNan)

/-- What TLD and TWV load for an FP32 code (R222): the code, and whether it sets the flag. -/
def loadAcc (v : W32) : W32 × Bool :=
  match f32 v with
  | .nan => (0x7FC00000#32, true)
  | .inf n => (if n then 0xFF7FFFFF#32 else 0x7F7FFFFF#32, true)
  | .fin .. => (v, false)

/-! ### Stochastic rounding (R226) -/

def srRound (h : W64) : W64 :=
  let a := (h ^^^ (h >>> 30)) * 0xBF58476D1CE4E5B9#64
  let b := (a ^^^ (a >>> 27)) * 0x94D049BB133111EB#64
  b ^^^ (b >>> 31)

def srBits (k c : W64) : W64 := srRound (srRound (c ^^^ (k * 0x9E3779B97F4A7C15#64)))

/-- The 16 random bits of element `e` of a TOUT. -/
def srElem (k ctr : W64) (e : Nat) : Nat := bitsOf (srBits k (ctr + BitVec.ofNat 64 (e / 4))).toNat (16 * (e % 4)) 16

/-! ### MX import (R231) -/

/-- to_e2m1(x times 2^d, sr = 0) of an FP4 element code. -/
def rescale (f : EF) (code : Nat) (d : Int) : Nat :=
  match f.decode code with
  | .fin n m e => f.roundQ n m 1 (e + d) none
  | _ => code

end Sys2Proof.Machine
end

