-- ==== Sys2Proof/Machine/ServRing.lean ====
section
/-! DEFINITION. Rings (03 R58-R68, R463), the entries the device writes (R74-R79), the HDM range as the device writes
it (02 R23), and the flight recorder (17 R421, R422). -/

namespace Sys2Proof.Machine

/-! ### Memory towards the host -/

def gib : Nat := 2 ^ 30
/-- The HDM range that the decoder maps now, in bytes (02 R22). -/
def hdmSize (s : State) : Nat := s.fld pgGlob 0 0x108 16 9 * gib
def hdmDecoded (s : State) : Nat := if s.host.decCommitted then hdmSize s else 0

def State.modHost (s : State) (f : HostSt → HostSt) : State := { s with host := f s.host }
def State.modMem (s : State) (f : MemSt → MemSt) : State := { s with mem := f s.mem }
def State.modServ (s : State) (f : ServSt → ServSt) : State := { s with serv := f s.serv }

/-- The 64-byte lines that `n` bytes at `a` touch. -/
def linesOf (a n : Nat) : List Nat := (List.range ((a + n + 63) / 64 - a / 64)).map fun i => a / 64 + i

/-- Lines of a write that the host may hold. -/
def heldLines (s : State) (a n : Nat) : List Nat := (linesOf a n).filter fun l => s.host.hostHeld.contains l

/-- Whether something of a writer still waits for a snoop response. -/
def tagWaits (s : State) (tag : Nat) : Bool := s.host.bisnp.any fun w => decide (w.tag = tag)

/-- A device write of edge memory: lines of the HDM range that the host may hold are snooped first, and the write waits for
the responses (02 R23), as does what the same writer writes behind it. -/
def devWrite (tag : Nat) (x : Access) (a : Nat) (b : List Byte) (s : State) : State :=
  let held := heldLines s a b.length
  if held.isEmpty && !tagWaits s tag then (t1Write x a b s).2
  else
    let asked := (s.host.bisnp.map fun w => linesOf w.addr w.data.length).flatten
    (held.filter fun l => !asked.contains l).foldl (fun t l => t.emit (.bisnp l))
      (s.modHost fun h => { h with bisnp := h.bisnp ++ [{ tag := tag, acc := x, addr := a, data := b }] })

/-- What has waited takes effect: the write, or the vector. -/
def landPend (w : HdmPend) (s : State) : State :=
  match w.vec with
  | some v => s.msix v
  | none => (t1Write w.acc w.addr w.data s).2

/-- Everything that waits and no longer has to takes effect, in order. -/
def drainPend (s : State) : State :=
  let r := s.host.bisnp.foldl (fun (a : State × List HdmPend) w =>
    if (a.2.any fun x => decide (x.tag = w.tag)) || !(heldLines s w.addr w.data.length).isEmpty then (a.1, a.2 ++ [w])
    else (landPend w a.1, a.2)) (s, [])
  r.1.modHost fun h => { h with bisnp := r.2 }

/-- The Steward's own writes of the HDM range (11 R282). -/
def hdmDevWrite (tag a : Nat) (data : List Byte) (s : State) : State := devWrite tag { req := 2 } a data s

/-- Writers other than rings: the replay's output, T1_WRITE. -/
def tagReplay : Nat := 2 ^ 20
def tagT1 (req : Nat) : Nat := 2 ^ 20 + 1 + req

/-- A line enters the device coherency cache (02 R20): 4,096 of 64 bytes. The spec names no order in which lines leave a
full cache: the one of the lowest address does (DESIGN CHOICE, notes/assumptions/43.md), with its eviction. -/
def cachePut (line : Nat) (data : List Byte) (s : State) : State :=
  let d := SMap.put s.host.cache line ⟨false, true, data⟩
  match d with
  | e :: r =>
    if d.length ≤ 4096 then s.modHost fun h => { h with cache := d }
    else
      let t := (s.modHost fun h => { h with cache := r }).emit (.d2h (if e.2.dirty then .dirtyEvict else .cleanEvict) e.1)
      if e.2.dirty then t.emit (.hostWrite (64 * e.1) e.2.data) else t
  | [] => s

/-- Read ring lines of host memory through the cache (02 R20): a request for each line that it lacks. Which of RdCurr,
which leaves no copy, and RdOwn the device uses for a line is a free value (notes/assumptions/43.md). -/
def cacheRead (a n : Nat) (s : State) : State :=
  ((linesOf a n).filter fun l => (SMap.find s.host.cache l).isNone).foldl (fun t l =>
    t.emit (.d2h (if Config.readsOwn l then .rdOwn else .rdCurr) l)) s

/-- The bytes read: of a line that the cache holds its copy, else what host memory returned. -/
def cacheBytes (s : State) (a : Nat) (data : List Byte) : List Byte :=
  ((linesOf a data.length).map fun l =>
    let lo := Nat.max a (64 * l)
    let hi := Nat.min (a + data.length) (64 * l + 64)
    match SMap.find s.host.cache l with
    | some c => (c.data.drop (lo - 64 * l)).take (hi - lo)
    | none => (data.drop (lo - a)).take (hi - lo)).flatten

/-- Lines that were read with RdOwn stay in the cache. -/
def cacheFill (a : Nat) (data : List Byte) (s : State) : State :=
  if a % 64 = 0 then
    (List.range (data.length / 64)).foldl (fun t i =>
      if Config.readsOwn (a / 64 + i) && (SMap.find t.host.cache (a / 64 + i)).isNone
      then cachePut (a / 64 + i) ((data.drop (64 * i)).take 64) t else t) s
  else s

/-- Write back every dirty line and invalidate the cache (02 R20). -/
def cacheFlush (s : State) : State :=
  let t := s.host.cache.foldl (fun u e =>
    if e.2.dirty then (u.emit (.d2h .dirtyEvict e.1)).emit (.hostWrite (64 * e.1) e.2.data) else u.emit (.d2h .cleanEvict e.1)) s
  t.modHost fun h => { h with cache := [] }

/-- A write to host memory through CXL.cache: whole lines with ItoMWr, parts of lines with WOWrInv; the cache keeps no
copy of them (notes/assumptions/43.md). -/
def hostStore (a : Nat) (data : List Byte) (s : State) : State :=
  let ls := linesOf a data.length
  let t := ls.foldl (fun u l =>
    u.emit (.d2h (if a ≤ 64 * l ∧ 64 * l + 64 ≤ a + data.length then .itoMWr else .wOWrInv) l)) s
  (t.modHost fun h => { h with cache := SMap.keep h.cache fun k _ => !ls.contains k }).emit (.hostWrite a data)

/-- Bytes to a ring's space: host memory, or the HDM range (03 R59). -/
def ringWrite (ring loc a : Nat) (data : List Byte) (s : State) : State :=
  if loc = 1 then hdmDevWrite ring a data s else hostStore a data s

/-! ### Rings -/

def State.ring (s : State) (r : Nat) : Option Ring := SMap.find s.serv.rings r
/-- A ring that is open: of a closed submission ring only fetched entries are left (R68). -/
def State.openRing? (s : State) (r : Nat) : Option Ring := (s.ring r).filter fun g => !g.closed

/-- A closed submission ring whose fetched entries are still to be processed leaves its ID free to be opened again (R61, R68): it
goes on under the ID plus a multiple of 2^20, the oldest of an ID's under the lowest. -/
def ringId (k : Nat) : Nat := k % 2 ^ 20
def leftRings (s : State) (r : Nat) : List Nat := (s.serv.rings.filter fun e => decide (2 ^ 20 ≤ e.1) && decide (ringId e.1 = r)).map (·.1)
def nextLeft (s : State) (r : Nat) : Nat := (leftRings s r).foldl Nat.max r + 2 ^ 20
/-- The ring of an ID whose read is the next to return. -/
def readKey (s : State) (r : Nat) : Nat := (leftRings s r).headD r

def State.modRing (s : State) (r : Nat) (f : Ring → Ring) : State :=
  s.modServ fun v => { v with rings := SMap.mod v.rings r f }
/-- A ring is gone. SVC_RING_STAT of a close that was under way then reads closed and not busy (R68, R100). -/
def State.delRing (s : State) (r : Nat) : State :=
  let t := s.modServ fun v => { v with rings := SMap.del v.rings r }
  match s.ring r with
  | some g => if g.closing && !g.closed then t.setRegN pgServ 0 0x118 0 else t
  | none => t

def idx24 : Nat := 2 ^ 24
/-- Entries from `b` up to `a`, modulo 2^24. -/
def idxSub (a b : Nat) : Nat := (a + idx24 - b % idx24) % idx24
def ringSize (d : BitVec 256) : Nat := 2 ^ dLog2 d
/-- Entries outstanding, and free (03 R62). -/
def Ring.used (g : Ring) : Nat := idxSub g.prod g.cons
def Ring.space (g : Ring) : Nat := ringSize g.desc - g.used
def Ring.phase (g : Ring) (i : Nat) : Nat := 1 - i / ringSize g.desc % 2
def Ring.addr (g : Ring) (i : Nat) : Nat := dBase g.desc + i % ringSize g.desc * dEntry g.desc

/-- R61's checks, in the order of the table: 0 when all pass, else err. -/
def descErr (s : State) (rid : Nat) (d : BitVec 256) (embedded : Bool) : Nat :=
  let top := hdmDecoded s
  if 1048575 < rid ∨ (s.ring rid).isSome = true then 1
  else if dLog2 d < 4 ∨ 23 < dLog2 d ∨ dKind d = 3 ∨ 2 ≤ dFmt d ∨ (dFmt d ≠ 0 ∧ dKind d ≠ 1) then 2
  else if dBase d % 64 ≠ 0 ∨ dWb d % 8 ≠ 0 ∨
    (dLoc d = 1 ∧ (top < dBase d + ringSize d * dEntry d ∨ (dWb d ≠ 0 ∧ top < dWb d + 8))) then 3
  else if (dKind d = 1) ≠ (embedded = true) then 4
  else if dIrq d = true ∧ dVec d < 33 then 5
  else 0

/-- A ring opens with both indexes 0 (03 R62). -/
def openRing (rid : Nat) (d : BitVec 256) (req : Option Nat) (readAt : Nat) (s : State) : State :=
  s.modServ fun v => { v with rings := SMap.put v.rings rid { desc := d, req := req, last := readAt } }

/-- time_delta of a version-2 entry (ns) and of a version-1 entry (µs), saturating. -/
def deltaNs (s : State) (g : Ring) : Nat := Nat.min (s.now - g.last) 0xFFFFFFFF
def deltaUs (s : State) (g : Ring) : Nat := Nat.min ((s.now - g.last) / us) 0xFFFFFFFF

def flEnd : Nat := 1
def flLate : Nat := 2
def flRollback : Nat := 4
def flSwitched : Nat := 8
def flCompletion : Nat := 16
def flHandle : Nat := 32

/-- A token entry, version 2 (R74) or 1 (R79): `lp` the FP32 logarithm, `none` where the request asked for none. -/
def tokenEntry (tok pos flags : Nat) (lp : Option W32) (s : State) (g : Ring) : List Byte :=
  let ph := g.phase g.prod
  if dFmt g.desc = 1 then
    leBytes 4 tok ++ leBytes 3 (if pos < 2 ^ 24 then pos else 0xFFFFFF) ++ leBytes 1 (flags % 8 + ph * 128) ++
      leBytes 4 (match lp with | some v => v.toNat | none => 0) ++ leBytes 4 (deltaUs s g)
  else
    leBytes 4 tok ++ leBytes 4 pos ++ leBytes 2 (flags + ph * 2 ^ 15) ++
      leBytes 2 (match lp with | some v => EF.fp16.conv (f32 v) | none => 0) ++ leBytes 4 (deltaNs s g)

/-- Version-1 status of a version-2 status (R79). -/
def v1Status (st : Nat) : Nat :=
  if st = 0 ∨ st = 3 ∨ st = 4 then 0 else if st = 1 then 1 else if st = 2 then 2 else if st = 7 then 3 else 4

/-- A completion entry (R76, R79); the fields that version 1 leaves unstated are free values. -/
def completionEntry (st cond toks deferred : Nat) (s : State) (g : Ring) : List Byte :=
  let ph := g.phase g.prod
  if dFmt g.desc = 1 then
    leBytes 4 (0xFFFFFF00 + v1Status st) ++ leBytes 3 (Config.entryFill s.free).toNat ++ leBytes 1 (flEnd + ph * 128) ++
      leBytes 4 ((Config.entryFill s.free).toNat / 2 ^ 32) ++ leBytes 4 (deltaUs s g)
  else
    leBytes 2 st ++ leBytes 2 cond ++ leBytes 4 toks ++ leBytes 2 (flEnd + flCompletion + ph * 2 ^ 15) ++
      leBytes 2 (Nat.min deferred 0xFFFF) ++ leBytes 4 (deltaNs s g)

/-- A handle entry (R78); version 1 has none. -/
def handleEntry (h : Nat) (s : State) (g : Ring) : List Byte :=
  leBytes 8 h ++ leBytes 2 (flHandle + g.phase g.prod * 2 ^ 15) ++ leBytes 2 0 ++ leBytes 4 (deltaNs s g)

/-! ### Flight recorder (17 R421, R422) -/

/-- Whether the recorder runs: it has a region and is on. -/
def frOn (s : State) : Bool := s.fld pgMgmt 0 0x130 8 1 = 1 && decide (0 < s.fr.size)

/-- One record: header (time, type, partition, length in units of 16 B, sequence number) and payload. -/
def frBytes (now ty part seq : Nat) (payload : List Byte) : List Byte :=
  let n := (16 + payload.length + 15) / 16
  leBytes 8 now ++ leBytes 1 ty ++ leBytes 1 part ++ leBytes 2 n ++ leBytes 4 seq ++ payload ++
    List.replicate (16 * n - 16 - payload.length) 0#8

/-- Bytes into the recorder's circular region from position `pos` on: plain data units of content 3, requester 5 (17 R421). -/
def circWrite (base size pos : Nat) (b : List Byte) (s : State) : State :=
  let x : Access := { owner := 0, content := 3, req := 5 }
  let n := size - pos % size
  let s1 := (t1Write x (base + pos % size) (b.take n) s).2
  (t1Write x base (b.drop n) s1).2

/-- The controller of the recorder's next byte takes writes. -/
def frRoom (s : State) : Bool :=
  let st := (s.blk (pgEmc ((hdmSize s + s.fr.head % s.fr.size) / 2048 % 48))).st
  decide (st ≠ .faulted) && decide (st ≠ .fenced)

/-- A record reaches T1: its region follows the HDM range (11 R280). Records that the region has overwritten are gone. -/
def frLand (s : State) (x : FrRec × List Byte) : State :=
  let head := s.fr.head + x.2.length
  let recs := (s.fr.recs ++ [{ x.1 with at_ := s.fr.head }]).filter fun r => decide (head ≤ r.at_ + s.fr.size)
  let s1 := circWrite (hdmSize s) s.fr.size s.fr.head x.2 s
  { s1 with fr := { s1.fr with head := head, recs := recs } }

def frBufUsed (s : State) : Nat := s.fr.buf.foldl (fun n x => n + x.2.length) 0

/-- A record enters the buffer with the next sequence number. -/
def frPut (ty part : Nat) (payload : List Byte) (aux : Nat) (s : State) : State :=
  let seq := (s.regN pgMgmt 0 0x138 + 1) % 2 ^ 32
  let x : FrRec × List Byte := (⟨s.now, ty, part, seq, 0, payload, aux⟩, frBytes s.now ty part seq payload)
  let s1 := s.setRegN pgMgmt 0 0x138 seq
  { s1 with fr := { s1.fr with buf := s1.fr.buf ++ [x] } }

/-- Write a record to the flight recorder: the buffer of 256 KiB is empty again at once while the controller takes
writes; when it is full the record is discarded and counted, and a GAP record with event 0x4077 comes first once there is
room (17 R421). -/
def frWrite (ty part : Nat) (payload : List Byte) (s : State) (aux : Nat := 0) : State :=
  if frOn s then
    let room := frRoom s
    let s0 : State := if room then s.fr.buf.foldl frLand { s with fr := { s.fr with buf := [] } } else s
    if 2 ^ 18 < frBufUsed s0 + 16 * ((31 + payload.length) / 16) then
      let s1 := s0.bump pgMgmt 0 0x13C
      { s1 with fr := { s1.fr with dropN := s1.fr.dropN + 1, dropAt := if s1.fr.dropN = 0 then s1.now else s1.fr.dropAt } }
    else
      let s1 := if s0.fr.dropN = 0 then s0 else
        let t := frPut 15 0xFF (leBytes 4 s0.fr.dropN ++ leBytes 4 0 ++ leBytes 8 s0.fr.dropAt) 0 s0
        ({ t with fr := { t.fr with dropN := 0 } } : State).err pgMgmt 3 0x4077 0 (pack [(0, s0.fr.dropN)])
      let s2 := frPut ty part payload aux s1
      if room then s2.fr.buf.foldl frLand { s2 with fr := { s2.fr with buf := [] } } else s2
  else s

end Sys2Proof.Machine
end

