-- ==== Sys2Proof/Machine/Shake.lean ====
section
/-! DEFINITION. SHAKE256 (FIPS 202), which 03 R94 and 17 R402, R406 name: Keccak-f[1600] on 25 lanes of 64 bits.
PRESUMED from FIPS 202 (notes/assumptions/11.md): the spec names the function and does not repeat it. -/

namespace Sys2Proof.Machine

def rotl64 (v : W64) (n : Nat) : W64 := v.rotateLeft (n % 64)

def keccakRC : List W64 := [0x0000000000000001#64, 0x0000000000008082#64, 0x800000000000808A#64,
  0x8000000080008000#64, 0x000000000000808B#64, 0x0000000080000001#64, 0x8000000080008081#64, 0x8000000000008009#64,
  0x000000000000008A#64, 0x0000000000000088#64, 0x0000000080008009#64, 0x000000008000000A#64, 0x000000008000808B#64,
  0x800000000000008B#64, 0x8000000000008089#64, 0x8000000000008003#64, 0x8000000000008002#64, 0x8000000000000080#64,
  0x000000000000800A#64, 0x800000008000000A#64, 0x8000000080008081#64, 0x8000000000008080#64, 0x0000000080000001#64,
  0x8000000080008008#64]

/-- Rotation of lane x + 5 y. -/
def keccakRot : List Nat := [0, 1, 62, 28, 27, 36, 44, 6, 55, 20, 3, 10, 43, 25, 39, 41, 45, 15, 21, 8, 18, 2, 61, 56, 14]

def lane5 (a : List W64) (x y : Nat) : W64 := a.getD (x % 5 + 5 * (y % 5)) 0

def keccakRound (a : List W64) (rc : W64) : List W64 :=
  let c := (List.range 5).map fun x => lane5 a x 0 ^^^ lane5 a x 1 ^^^ lane5 a x 2 ^^^ lane5 a x 3 ^^^ lane5 a x 4
  let d := (List.range 5).map fun x => c.getD ((x + 4) % 5) 0 ^^^ rotl64 (c.getD ((x + 1) % 5) 0) 1
  let t := (List.range 25).map fun i => a.getD i 0 ^^^ d.getD (i % 5) 0
  -- pi: lane (x, y) of the result is lane (x + 3 y, x) rotated
  let b := (List.range 25).map fun i =>
    let x := i % 5
    let y := i / 5
    let j := (x + 3 * y) % 5 + 5 * x
    rotl64 (t.getD j 0) (keccakRot.getD j 0)
  let e := (List.range 25).map fun i =>
    let x := i % 5
    let y := i / 5
    lane5 b x y ^^^ ((lane5 b (x + 1) y ^^^ 0xFFFFFFFFFFFFFFFF#64) &&& lane5 b (x + 2) y)
  match e with
  | h :: r => (h ^^^ rc) :: r
  | [] => []

def keccakF (a : List W64) : List W64 := keccakRC.foldl keccakRound a

/-- XOR one 136-byte block into the state. -/
def absorb (a : List W64) (blk : List Byte) : List W64 :=
  keccakF ((List.range 25).map fun i =>
    a.getD i 0 ^^^ (if i < 17 then BitVec.ofNat 64 (leNat ((blk.drop (8 * i)).take 8)) else 0))

/-- The message padded to whole blocks: 0x1F, zeros, 0x80 in the last byte. -/
def shakePad (m : List Byte) : List Byte :=
  let n := 136 - m.length % 136
  if n = 1 then m ++ [0x9F#8] else m ++ [0x1F#8] ++ List.replicate (n - 2) 0#8 ++ [0x80#8]

def absorbAll : (fuel : Nat) → List W64 → List Byte → List W64
  | 0, a, _ => a
  | n + 1, a, m => if m.isEmpty then a else absorbAll n (absorb a (m.take 136)) (m.drop 136)

/-- The first `n` (at most 136) output bytes of SHAKE256. -/
def shake256 (m : List Byte) (n : Nat) : List Byte :=
  let p := shakePad m
  let a := absorbAll (p.length / 136) (List.replicate 25 0) p
  ((a.map fun l => leBytes 8 l.toNat).flatten).take n

end Sys2Proof.Machine
end

