-- ==== Sys2Proof/Machine/ServOps.lean ====
section
/-! DEFINITION. Sessions, requests, tenants, prefixes and spill objects (03 R80-R98, 11 R281, R290-R297): the
operations that submissions, admission, steps and timers share. -/

namespace Sys2Proof.Machine

/-! ### Tables -/

def State.sess (s : State) (i : Nat) : Session := SMap.get s.serv.sess {} i
def State.setSess (s : State) (i : Nat) (v : Session) : State :=
  s.modServ fun t => { t with sess := SMap.set t.sess {} i v }
def State.modSess (s : State) (i : Nat) (f : Session → Session) : State := s.setSess i (f (s.sess i))
def State.req (s : State) (i : Nat) : Option Req := SMap.find s.serv.reqs i
def State.modReq (s : State) (i : Nat) (f : Req → Req) : State :=
  s.modServ fun t => { t with reqs := SMap.mod t.reqs i f }
def State.tenant (s : State) (i : Nat) : Tenant := SMap.get s.serv.tenants {} i
def State.setTenant (s : State) (i : Nat) (v : Tenant) : State :=
  s.modServ fun t => { t with tenants := SMap.set t.tenants {} i v }

def statAd : Nat := 0x102
def partLost (s : State) (p : Nat) : Bool := (s.part p).ps = .unloaded || (s.part p).ps = .lost
def maxCtx (s : State) (p : Nat) : Nat := s.regN (pgSched p) 0 0x104

/-- Condition bits (R76, R77): bit k for status k, and the further conditions. -/
def cLate : Nat := 1
def cDrop : Nat := 2
def cBudget : Nat := 3
def cRecompute : Nat := 4
def cDataLoss : Nat := 5
def cGone : Nat := 6
def cCancelled : Nat := 7
def cLost : Nat := 8
def cStale : Nat := 9
def cIgnored : Nat := 10
def cStalled : Nat := 11
def cPrefix : Nat := 12
def cCtx : Nat := 13

def Req.setCond (r : Req) (k : Nat) : Req := { r with cond := r.cond ||| 2 ^ k }
def Req.has (r : Req) (k : Nat) : Bool := bitAt r.cond k

/-- Status: the first of R76's table that applies. -/
def Req.status (r : Req) : Nat :=
  ([cLost, cDataLoss, cCancelled, cGone, cDrop, cLate, cRecompute, cBudget].find? r.has).getD 0

/-- No condition has applied that ends a request before it completes (R76). -/
def Req.completed (r : Req) : Bool := !([cLate, cDrop, cDataLoss, cGone, cCancelled, cLost].any r.has)

/-- Live requests of a session, oldest accepted first. -/
def reqsOf (s : State) (sess : Nat) : List (Nat × Req) := s.serv.reqs.filter fun e => e.2.session = sess

/-- The session's active request: admitted, not yet ended (R82). -/
def activeReq (s : State) (sess : Nat) : Option (Nat × Req) :=
  (reqsOf s sess).find? fun e => e.2.st ≠ .queued && e.2.slot.isSome

/-- Projected log length (R73): the log, plus new tokens of requests accepted and not yet admitted; a queued ROLLBACK
sets it to its L + k. -/
def insSeq (e : Nat × Req) : List (Nat × Req) → List (Nat × Req)
  | [] => [e]
  | f :: r => if e.2.seq < f.2.seq then e :: f :: r else f :: insSeq e r

def projected (s : State) (sess : Nat) : Nat :=
  (((reqsOf s sess).filter fun e => e.2.st = .queued).foldr insSeq []).foldl (fun n e =>
    if e.2.kind = .rollback then e.2.rlen + e.2.rk else n + e.2.toks.length) (s.sess sess).log.length

/-! ### Tenant budgets (R88-R90) -/

def unitScale : Int := 1000000000
def levelFloor : Int := -(2 ^ 31) * unitScale
def burstLevel (t : Tenant) : Int := (t.burst * 256 : Nat) * unitScale
def unlimited (t : Tenant) : Bool := t.rate = 0xFFFFFFFF

/-- Refill a tenant's bucket from device time. -/
def Tenant.refill (t : Tenant) (now : Nat) : Tenant :=
  { t with level := min (burstLevel t) (t.level + (t.rate * (now - t.tLast) * 256 : Nat)), tLast := now }

def refill (i : Nat) (s : State) : State := s.setTenant i ((s.tenant i).refill s.now)

/-- Charge `n` thousandths... of weight/4,096 tokens: n tokens times weight, in level units. -/
def charge (i n weight : Nat) (s : State) : State :=
  let t := s.tenant i
  if unlimited t then s
  else s.setTenant i { t with level := max levelFloor (t.level - (n * weight * 62500000 : Nat)) }

def inBudget (s : State) (i : Nat) : Bool := unlimited (s.tenant i) || decide (0 < (s.tenant i).level)

/-- SVC_TEN_LEVEL: whole units, truncated toward zero. -/
def levelWord (t : Tenant) : W32 := BitVec.ofInt 32 (t.level.tdiv unitScale)

/-- The clock of a request's budget deferral stands while its partition is paused, relocating or stopped (04 R126). -/
def deferClock (s : State) (r : Req) : Nat := (s.part (s.sess r.session).part).heldAt.getD s.now

/-- A request is held back by budget alone, or proceeds: its deferred time (R90). -/
def holdBack (rid : Nat) (s : State) : State :=
  (s.modReq rid fun r => { r with deferSince := some (r.deferSince.getD (deferClock s r)) }).bump pgServ 0 0x188
def letGo (rid : Nat) (s : State) : State :=
  s.modReq rid fun r => match r.deferSince with
    | some t => { r with deferSince := none, deferred := r.deferred + (deferClock s r - t) }
    | none => r

/-! ### Extents of T1 and T2 (11 R280, R281) -/

def logReserve (s : State) : Nat := s.fld pgMap 0 0x108 0 24
def reclaimEn (s : State) : Bool := s.fld pgMap 0 0x108 24 1 = 1
def t2Free (s : State) : Nat := s.regN pgMap 0 0x120
def t2Open (s : State) : Bool := s.fld pgMap 0 0x11C 0 1 = 1 && s.fld pgMap 0 0x11C 1 1 = 0

/-- Extents that a log of `n` tokens occupies (03 R83). -/
def logExt (n : Nat) : Nat := (n + 4095) / 4096

/-- The `n` free extents of the window of the lowest numbers: the spec leaves the choice open (DESIGN CHOICE,
notes/assumptions/43.md). -/
def t2Pick (s : State) (n : Nat) : List Nat :=
  let used := (s.serv.sess.filterMap fun e => e.2.obj.map (·.t2)).flatten
  ((List.range (n + used.length)).filter fun x => !used.contains x).take n

/-- Host addresses of a list of extents of the window (11 R295). -/
def t2Addr (s : State) (x : Nat) : Nat := s.reg64 pgMap 0 0x110 + 16384 * x

/-- The Steward reads a spill object's extents of the window, by CXL.io reads (02 R21). -/
def t2Read (o : SpillObj) (s : State) : State := o.t2.foldl (fun t x => t.emit (.hostRead (t2Addr s x) 16384)) s

/-- The Steward writes a spill object into the window, extent by extent, encrypted under the tenant's slot with the T2
tweak, by CXL.io writes (02 R21, 11 R287, R295); nothing is written under an empty slot. -/
def t2Write (tenant : Nat) (o : SpillObj) (s : State) : State :=
  if (keySlot s 1 tenant).key = none then s
  else
    let b := o.bytes
    (o.t2.zipIdx).foldl (fun t x =>
      let d := (b.drop (16384 * x.2)).take 16384
      if d = [] then t else t.emit (.hostWrite (t2Addr s x.1) (hostCipher s 1 tenant false (t2Addr s x.1) d))) s

/-- Give back the extents of a spill object, in its tier. -/
def giveT2 (n : Nat) (s : State) : State := s.setRegN pgMap 0 0x120 (t2Free s + n)

def freeObj (i : Nat) (o : SpillObj) (s : State) : State :=
  if o.tier = 1 then (if o.moving then giveT2 o.extents (freeExt (.spill i) o.extents s) else freeExt (.spill i) o.extents s)
  else giveT2 o.extents s

def dropObj (i : Nat) (s : State) : State :=
  match (s.sess i).obj with
  | some o => freeObj i o (s.modSess i fun v => { v with obj := none })
  | none => s

/-- A session's KV is gone; what the device freed itself is recomputed with status EVICTED_RECOMPUTE (06 R177). -/
def releaseSess (i : Nat) (byDevice : Bool) (s : State) : State :=
  let v := s.sess i
  let t := freeChains v.part i s
  let t := dropObj i t
  t.modSess i fun w => { w with
    st := .released, kvLen := 0, spillPend := false, evicted := w.evicted || (byDevice && decide (0 < v.kvLen)),
    recompTo := if byDevice then Nat.max w.recompTo v.kvLen else w.recompTo }

/-! ### Spilling (11 R290-R296) -/

/-- Bytes of a slot (06 R155). -/
def slotBytes (fmt : Nat) : Nat := if fmt = 0 then 144 else 256

/-- Data units of a page record with `fill` slots, with or without a trailer (11 R290). -/
def recUnits (fmt fill : Nat) (trailer : Bool) : Nat := (fill * slotBytes fmt + 255) / 256 + (if trailer then 1 else 0)

/-- Ranges (offset, length) of slot `j` in a page: K, V and in K4 their scales (06 R156). -/
def slotRanges (fmt j : Nat) : List (Nat × Nat) :=
  if fmt = 0 then [(64 * j, 64), (0x1C00 + 64 * j, 64), (0x3800 + 8 * j, 8), (0x3B80 + 8 * j, 8)]
  else [(128 * j, 128), (0x1F80 + 128 * j, 128)]

/-! ### Trees of the step slots (05 R138) -/

def State.tree (s : State) (p slot : Nat) : Option Tree := SMap.find s.spec.trees (p * 4096 + slot)
def State.modTree (s : State) (p slot : Nat) (f : Tree → Tree) : State :=
  { s with spec := { s.spec with trees := SMap.mod s.spec.trees (p * 4096 + slot) f } }

/-- A tree of the slot that has not committed: deadlines, cancels and ring closes are judged at its commit (05 R147). -/
def treeOpen (s : State) (p slot : Nat) : Bool := (s.tree p slot).any fun t => !t.committed

/-- Nothing of an ENDING request runs any more: no step in flight, no restore, no tree that has still to commit (03 R85,
05 R147). -/
def Req.atRest (s : State) (r : Req) : Bool :=
  decide (r.inflight = 0) && !r.rst && !(r.slot.any fun sl => treeOpen s (s.sess r.session).part sl)

/-- The site that logical core `c` of partition `p` is bound to (01 R13). -/
def State.core (s : State) (site : Nat) : Core := SMap.get s.cores {} site
def State.setCore (s : State) (site : Nat) (c : Core) : State := { s with cores := SMap.set s.cores {} site c }
def State.modCore (s : State) (site : Nat) (f : Core → Core) : State := s.setCore site (f (s.core site))

def State.isl (s : State) (site : Nat) : Isl := SMap.get s.pwr.isl {} site
def State.modIsl (s : State) (site : Nat) (f : Isl → Isl) : State :=
  { s with pwr := { s.pwr with isl := SMap.upd s.pwr.isl {} site f } }
/-- An unbound, spare or fenced island is clock-gated, but for one that Winter hold runs (14 R345). -/
def gateIsland (site : Nat) (s : State) : State :=
  if (s.core site).on = true ∧ (s.isl site).heater = false then s.modCore site fun c => { c with gated := true } else s

/-- The old site is left: unbound, its router no longer a source. -/
def leaveSite (old : Nat) (s : State) : State := gateIsland old (s.setFld (pgCore old) 0 0x104 31 1 0)

/-- Scratchpad address of a page's frame in its core. -/
def pageBase (q : KvPool) (pg : Nat) : Nat := (q.kvCore (pageCore pg)).base + 16384 * pageFrame pg

def pageBytes (s : State) (p pg off n : Nat) : List Byte :=
  match siteOfLogical s p (pageCore pg) with
  | none => List.replicate n 0#8
  | some site => Mem.read (s.core site).spad (pageBase (s.pool p) pg + off) n

def putPageBytes (p pg off : Nat) (b : List Byte) (s : State) : State :=
  match siteOfLogical s p (pageCore pg) with
  | none => s
  | some site =>
    if b = [] then s
    else
      let a := pageBase (s.pool p) pg + off
      storeBeats site a b.length (s.modCore site fun c => { c with spad := Mem.write c.spad a b })

/-- The beats of a read of bytes of a page at its holder's ports: channels 6 and 7 (09 R242). -/
def pageReads (p pg off n : Nat) (s : State) : State :=
  match siteOfLogical s p (pageCore pg) with
  | none => s
  | some site => if n = 0 then s else countOperand site (byteElems (pageBase (s.pool p) pg + off) n) s

/-- Bytes of one page read and written into another. -/
def copyBytes (p x a y b n : Nat) (s : State) : State := putPageBytes p y b (pageBytes s p x a n) (pageReads p x a n s)

/-- The bytes of the first `n` slots of a page as offsets and lengths: K, V, K scales, V scales (06 R156). -/
def slotParts (fmt n : Nat) : List (Nat × Nat) :=
  if fmt = 0 then [(0, 64 * n), (0x1C00, 64 * n), (0x3800, 8 * n), (0x3B80, 8 * n)] else [(0, 128 * n), (0x1F80, 128 * n)]

/-- The page record of a page (11 R290): K of slots 0 to fill - 1, then V, then K scales, V scales; the trailer. -/
def pageRecord (s : State) (p pg fill : Nat) (trailer : Bool) : List Byte :=
  let fmt := (s.pool p).fmt
  let part (k : Nat) : List Byte := ((List.range fill).map fun j =>
    match (slotRanges fmt j)[k]? with
    | some (o, n) => pageBytes s p pg o n
    | none => []).flatten
  let body := part 0 ++ part 1 ++ part 2 ++ part 3
  body ++ List.replicate ((256 - body.length % 256) % 256) 0#8 ++ (if trailer then pageBytes s p pg 0x3F00 256 else [])

/-- Copy slot `a` of page `x` into slot `b` of page `y`, with its score (06 R156). -/
def copySlot (p x a y b : Nat) (s : State) : State :=
  let fmt := (s.pool p).fmt
  copyBytes p x (0x3F00 + 2 * a) y (0x3F00 + 2 * b) 2
    (((slotRanges fmt a).zip (slotRanges fmt b)).foldl (fun t e => copyBytes p x e.1.1 y e.2.1 e.1.2 t) s)

/-- The page and slot of a storage position in a chain (06 R160). -/
def locate (q : KvPool) (c : Chain) (pos : Nat) : Option (Nat × Nat) :=
  if q.slots = 0 ∨ pos < c.removed then none
  else (c.pages[(pos - c.removed) / q.slots]?).map fun pg => (pg, (pos - c.removed) % q.slots)

/-- One path move of a chain: K and V (and scores) of a storage position (R145). -/
def moveSlot (p : Nat) (c : Chain) (s : State) (m : Nat × Nat) : State :=
  match locate (s.pool p) c m.1, locate (s.pool p) c m.2 with
  | some a, some b => copySlot p a.1 a.2 b.1 b.2 s
  | _, _ => s

/-- The path moves of a slot that stages have not done yet are done, in increasing k (05 R145): no input of the slot will run before
its request's end, or before the next list takes their place. -/
def finishMoves (p slot sess : Nat) (s : State) : State :=
  let k := p * 4096 + slot
  match SMap.find s.spec.moves k with
  | none => s
  | some mv =>
    let q := s.pool p
    let w := (q.groups.zipIdx.filter fun h => !(SMap.get s.spec.moved [] k).contains h.1.stage).foldl (fun a h =>
      mv.foldl (moveSlot p (q.chain sess h.2)) a) s
    { w with spec := { w.spec with moves := SMap.del w.spec.moves k, moved := SMap.del w.spec.moved k } }

/-- The 8 bytes of an entry (06 R161). -/
def entBytes (e : PEnt) : List Byte := leBytes 8 (e.frame + e.head * 2 ^ 10 + e.layer * 2 ^ 14 + e.idx * 2 ^ 32)

/-- The holder's list of a slot changes, and its 8-byte entries in the scratchpad where the image says that they lie, unused ones
zero (notes/assumptions/73.md); each entry that changes is one write of 8 bytes (09 R240). -/
def setList (p core slot : Nat) (f : List PEnt → List PEnt) (s : State) : State :=
  if 4096 ≤ slot then s
  else
    let img := ((s.part p).imgs.find? fun i => i.core = core).bind (·.lists)
    match siteOfLogical s p core with
    | none => s
    | some site =>
      let old := SMap.get (s.core site).plist [] slot
      let new := f old
      let s1 := s.modCore site fun c => { c with plist := SMap.set c.plist [] slot new }
      match img with
      | none => s1
      | some (base, n) => (List.range n).foldl (fun t i =>
          if old[i]? = new[i]? then t
          else
            let a := base + 8 * (n * slot + i)
            let b := match new[i]? with
              | some e => entBytes e
              | none => List.replicate 8 0#8
            storeBeats site a 8 (t.modCore site fun c => { c with spad := Mem.write c.spad a b })) s1

/-- Page records of a session's chains in stage, layer, head and chain order, as the pool lists its groups. -/
def spillRecs (s : State) (i : Nat) : List SpillRec :=
  let p := (s.sess i).part
  let q := s.pool p
  let ev := s.fld pgKv p 0x104 0 1 = 1
  (q.groupIdx.map fun gi =>
    let c := q.chain i gi
    (c.pages.zipIdx).filterMap fun e =>
      (SMap.find q.pages e.1).map fun g =>
        let fill := slotsKept c.len c.removed q.slots e.2
        let tr := g.aged || ev
        ⟨gi, e.2, g.firstPos, fill, g.aged, g.merged, tr, pageRecord s p e.1 fill tr, g.also⟩).flatten

/-- A page of a session's chains is lost (03 R84, 06 R165, 11 R293): its KV length, in a draft partition its draft KV
length, falls to the page's first position, which its next request recomputes with status EVICTED_RECOMPUTE (06 R177); a chain of
a SPILLING session keeps its pages. -/
def loseIn (p pg : Nat) (s : State) (i : Nat) : State :=
  match lostCut (s.pool p) i pg with
  | none => s
  | some n =>
    let v := s.sess i
    let n := mergedCut (s.pool p) i n
    let s1 := s.modSess i fun w =>
      if w.part = p then
        { w with kvLen := Nat.min w.kvLen n, dkv := Nat.min w.dkv n,
                 evicted := w.evicted || decide (n < w.kvLen), recompTo := if n < w.kvLen then Nat.max w.recompTo w.kvLen else w.recompTo,
                 obj := if w.st = .spilling then w.obj.map fun o => { o with kvLen := Nat.min o.kvLen n } else w.obj }
      else { w with dkv := Nat.min w.dkv n }
    if v.st = .spilling then s1 else truncSession p i n s1

/-- Pages of a partition reported lost (06 R165). -/
def losePages (p : Nat) (pgs : List Nat) (s : State) : State :=
  pgs.foldl (fun t pg => (t.serv.sess.map (·.1)).foldl (loseIn p pg) (losePage p pg t)) s

/-- A directory entry of a spill object (11 R290). -/
def dirEntry (q : KvPool) (r : SpillRec) : List Byte :=
  let g := (q.groups[r.chain]?).getD ⟨0, 0, 0, [], 0⟩
  leBytes 4 r.firstPos ++ leBytes 1 r.fill ++
    leBytes 1 ((if r.aged then 1 else 0) + (if r.merged then 2 else 0) + (if r.trailer then 4 else 0)) ++ leBytes 1 g.layer ++
    leBytes 1 (g.head % 16) ++ leBytes 1 g.stage ++ leBytes 1 0 ++ leBytes 4 r.idx ++ leBytes 2 (recUnits q.fmt r.fill r.trailer)

/-- Extents of a spill object: directory and records in data units of 256 B, packed (11 R290). -/
def spillExtents (fmt : Nat) (recs : List SpillRec) : Nat :=
  let units := (recs.length * 16 + 255) / 256 + recs.foldl (fun n r => n + recUnits fmt r.fill r.trailer) 0
  (units + 63) / 64

def ttl1 (s : State) : Option Nat :=
  let t := s.fld pgServ 0 0x108 0 16
  if t = 0 then none else some (s.now + t * sec)
def ttl2 (s : State) : Option Nat :=
  let t := s.fld pgServ 0 0x108 16 16
  if t = 0 then none else some (s.now + t * 60 * sec)

/-- A SPILLED_T1 object expires or is reclaimed (03 R81, 11 R296): a move to T2 where the window is open and has room,
else released. -/
def t1Expire (i : Nat) (s : State) : State :=
  match (s.sess i).obj with
  | none => s
  | some o =>
    if t2Open s && decide (o.extents ≤ t2Free s) then
      (s.setRegN pgMap 0 0x120 (t2Free s - o.extents)).modSess i fun v =>
        { v with obj := some { o with moving := true, expiry := none, t2 := t2Pick s o.extents } }
    else releaseSess i true s

/-- The object to reclaim next (11 R292): shortest time to live, no expiry last, earliest entered, lowest session. -/
def reclaimBefore (a b : Nat × SpillObj) : Bool :=
  match a.2.expiry, b.2.expiry with
  | some x, some y => x < y || (x = y && (a.2.entered < b.2.entered || (a.2.entered = b.2.entered && a.1 < b.1)))
  | some _, none => true
  | none, some _ => false
  | none, none => a.2.entered < b.2.entered || (a.2.entered = b.2.entered && a.1 < b.1)

def reclaimNext (s : State) : Option Nat :=
  ((s.serv.sess.filterMap fun e => match e.2.obj with
      | some o => if e.2.st = .t1 && !o.moving then some (e.1, o) else none
      | none => none).foldl (fun a e => match a with
        | none => some e
        | some b => if reclaimBefore e b then some e else some b) (none : Option (Nat × SpillObj))).map (·.1)

/-- How the Steward reaches the spill object of a session (11 R278, R282): tier moves are requester 3. -/
def spillAcc (s : State) (i : Nat) : Access := { owner := 1, slot := (s.sess i).tenant, req := 3, content := 1, session := i }

/-- The move of a SPILLED_T1 object to the window is complete (11 R296): read from T1, written to T2, the T1 extents freed; the T2
time to live starts. An object that T1 does not give back is lost (R285). -/
def moveDone (i : Nat) (s : State) : State :=
  match (s.sess i).obj with
  | none => s
  | some o => match extRead (spillAcc s i) (.spill i) 0 o.bytes.length s with
    | (.error _, t) => releaseSess i true t
    | (.ok _, t) => ((freeExt (.spill i) o.extents (t2Write (s.sess i).tenant o t)).bump pgMap 0 0x188).modSess i fun w => { w with
        st := .t2, obj := some { o with tier := 2, moving := false, expiry := ttl2 s } }

/-- Reclaim until `n` extents are free beyond `keep`, or no object remains. The Steward waits for the move of each object that goes to
T2, whose extents come free with its end (11 R296; notes/assumptions/82.md). -/
def reclaim (n keep : Nat) : (fuel : Nat) → State → State
  | 0, s => s
  | f + 1, s =>
    if n + keep ≤ poolFree s then s
    else match reclaimNext s with
      | none => s
      | some i =>
        let t := (t1Expire i s).bump pgMap 0 0x190
        reclaim n keep f (if (t.sess i).obj.any (·.moving) then moveDone i t else t)

/-- An Autumn spill begins (11 R291): extents from T1, after R292; with no room the T2 window, else released. -/
def spillNew (i : Nat) (s0 : State) : State :=
  let v := s0.sess i
  let fmt := (s0.pool v.part).fmt
  let recs := spillRecs s0 i
  let ext := spillExtents fmt recs
  let s := if ext + logReserve s0 ≤ poolFree s0 ∨ reclaimEn s0 = false then s0
    else reclaim ext (logReserve s0) (s0.serv.sess.length + 1) s0
  let gen := (SMap.get s.mem.tenantKeys {} v.tenant).gen
  let chains := (s.pool v.part).groupIdx.map fun gi =>
    let c := (s.pool v.part).chain i gi
    (gi, c.len, c.removed)
  let obj (tier : Nat) (t2 : List Nat) : SpillObj :=
    { tier := tier, extents := ext, kvLen := v.kvLen, gen := gen, chains := chains, recs := recs,
      dir := (recs.map (dirEntry (s0.pool v.part))).flatten, t2 := t2, tenant := v.tenant }
  if ext + logReserve s ≤ poolFree s then
    -- the directory is written first (R291)
    (extWrite (spillAcc s i) (.spill i) 0 (obj 1 []).head (takeExt (.spill i) ext s)).2.modSess i fun w =>
      { w with st := .spilling, spillPend := false, obj := some (obj 1 []) }
  else
    let s := s.bump pgMap 0 0x194
    if t2Open s && decide (ext ≤ t2Free s) then
      (s.setRegN pgMap 0 0x120 (t2Free s - ext)).modSess i fun w =>
        { w with st := .spilling, spillPend := false, obj := some (obj 2 (t2Pick s ext)) }
    else releaseSess i true (s.modSess i fun w => { w with spillPend := false })

/-- A session begins to spill. One whose copy was never restored (R464) has nothing on the wafer: the copy stays as it is
and the spill has nothing to write. -/
def spillStart (i : Nat) (s : State) : State :=
  if (s.sess i).obj.isSome then s.modSess i fun w => { w with st := .spilling, spillPend := false } else spillNew i s

/-- Whether a session holds pages in its partition's pool. -/
def holdsAny (s : State) (p i : Nat) : Bool := (s.pool p).groupIdx.any fun gi => holdsIn (s.pool p) i gi

/-- A spill in progress is abandoned: extents freed, wafer pages kept (11 R293), but for those lost meanwhile, which leave the
chains now (06 R165). -/
def abandonSpill (i : Nat) (s : State) : State :=
  let v := s.sess i
  truncSession v.part i v.kvLen (dropObj i s)

/-! ### Adapter versions (12 R319) -/

/-- Drop the adapter version that nothing refers to any more (12 R319). -/
def verKey (p slot ver : Nat) : Nat := (p * 1024 + slot) * 256 + ver

/-- References on a version: live requests bound to it, and pinned sessions between requests (12 R319). -/
def liveRefs (s : State) (p slot ver : Nat) : Nat :=
  (s.serv.reqs.filter fun e => e.2.adapter = slot && e.2.ver = ver && e.2.slot.isSome &&
    decide ((s.sess e.2.session).part = p)).length
def pinRefs (s : State) (p slot ver : Nat) : Nat :=
  (s.serv.sess.filter fun e => e.2.pin && decide (e.2.part = p) && decide (e.2.lastAd = some (slot, ver)) &&
    !e.2.adGone && (activeReq s e.1).isNone).length

def recAdapter (p slot ver what : Nat) (s : State) : State :=
  frWrite 6 p (leBytes 2 slot ++ leBytes 1 ver ++ leBytes 1 what) s

/-- Free a version: its blocks and mirror extents (12 R319). -/
def freeVer (p slot ver what : Nat) (s : State) : State :=
  match SMap.find s.we.vers (verKey p slot ver) with
  | none => s
  | some a =>
    let s1 : State := { s with we := { s.we with vers := SMap.del s.we.vers (verKey p slot ver) } }
    recAdapter p slot ver what (freeExt (.adapter (verKey p slot ver)) a.extents (s1.modPart p fun q => { q with
      copies := q.copies.filter fun c => c.what ≠ 16 + slot * 256 + ver }))

/-- An OLD version whose references reach 0 is freed (12 R319). -/
def sweepVer (p slot ver : Nat) (s : State) : State :=
  match SMap.find s.we.vers (verKey p slot ver) with
  | some a => if a.st = .old ∧ liveRefs s p slot ver = 0 ∧ pinRefs s p slot ver = 0 then freeVer p slot ver 2 s else s
  | none => s

/-! ### Closing -/

def freeLog (i : Nat) (s : State) : State :=
  freeExt (.log i) (logExt (s.sess i).log.length) (s.modSess i fun v => { v with log := [] })

/-- Draft KV of a session lies in the pool of its partition's draft (05 R136). -/
def freeDraft (i : Nat) (s : State) : State :=
  let p := (s.sess i).part
  (s.parts.filter fun e => e.2.draftOf = p).foldl (fun t e => freeChains e.1 i t) (s.modSess i fun v => { v with dkv := 0 })

/-- The session is CLOSED: pages, spilled copies and token log are freed (03 R81), and so is an old adapter version whose last
reference was the session's (12 R319). -/
def closeSess (i : Nat) (s : State) : State :=
  let v := s.sess i
  let t := (freeLog i (dropObj i (freeChains v.part i (freeDraft i s)))).setSess i {}
  match v.lastAd with
  | some (sl, ver) => if v.pin then sweepVer v.part sl ver t else t
  | none => t

/-- Where a session goes when its request ends (03 R81). -/
def sessionAfter (i : Nat) (s : State) : State :=
  let v := s.sess i
  let s := s.modSess i fun w => { w with idleAt := s.now }
  if v.closing then
    (if (reqsOf s i).isEmpty then closeSess i s else s)
  else if v.st ≠ .active then s
  else if v.spillPend || v.policy = 1 then spillStart i s
  else if v.policy = 2 then releaseSess i false s
  else s.modSess i fun w => { w with st := .warm }

/-! ### Requests -/

/-- A request goes to ENDING with condition `k`: no new steps (R85, R93). A cause that comes while it is ENDING applies to it
too (R76, R77). -/
def toEnding (rid k : Nat) (mute : Bool) (s : State) : State :=
  (letGo rid s).modReq rid fun r => { (r.setCond k) with st := .ending, mute := r.mute || mute }

/-- As `toEnding`, with no condition to add (a normal end). -/
def toEnd (rid : Nat) (s : State) : State := (letGo rid s).modReq rid fun r => { r with st := .ending }

/-- Close a ring (R68): a token-output ring's live request ends CANCELLED without a completion entry; of a submission ring
the entries already fetched are processed first, those not fetched are discarded. -/
def closeRing (r : Nat) (s : State) : State :=
  match s.ring r with
  | none => s
  | some g =>
    match g.req with
    | some rid => toEnding rid cCancelled true (s.delRing r)
    | none =>
      if dKind g.desc = 0 && decide (0 < g.fetch) then
        let left : Ring := { g with closed := true, prod := (g.cons + g.fetch) % idx24 }
        (s.modServ fun v => { v with rings := SMap.put (SMap.del v.rings r) (nextLeft s r) left }).setRegN pgServ 0 0x118 0
      else
        let s1 := s.delRing r
        { s1 with paths := SMap.del s1.paths (2 + r) }

/-! ### Entries of a ring (R64, R65, R463) -/

/-- A write to a ring fails: the ring closes at that entry, with ERR_STAT.ring_write_err and event 0x4012 (R463). -/
def ringFail (r ix : Nat) (s : State) : State :=
  (closeRing r (s.modRing r fun g => { g with fetch := 0, held := [] })).err pgServ 1 0x4012 r (pack [(0, r), (4, ix)])

/-- Send a ring's vector, behind what still waits of its index, and start counting anew (R64, R65). -/
def ringVector (r : Nat) (s : State) : State :=
  match s.ring r with
  | none => s
  | some g =>
    if dIrq g.desc then
      let t := s.modRing r fun g => { g with since := 0, first := none }
      if tagWaits s r then t.modHost fun h => { h with bisnp := h.bisnp ++ [{ tag := r, vec := some (dVec g.desc) }] }
      else t.msix (dVec g.desc)
    else s

/-- `n` more entries count towards the vector; their batch is open until the index is written back (R64, R65). -/
def ringCount (r n : Nat) (s : State) : State :=
  s.modRing r fun g => { g with since := g.since + n, first := some (g.first.getD s.now), batch := true }

/-- The vector is due: coalesce_count entries, or coalesce_us since the first of them (R65). -/
def vectorDue (s : State) (g : Ring) : Bool :=
  decide (Nat.max 1 (dCoCount g.desc) ≤ g.since) ||
    (match g.first with
     | some f => decide (dCoUs g.desc ≠ 0) && decide (f + dCoUs g.desc * us ≤ s.now)
     | none => false)

/-- The end of a batch: the index is written back, then the vector is sent where it is due (R64, R65). R64 gives the
address and not the width of the write-back: the model writes 8 bytes, the 24-bit index and zeros (DESIGN CHOICE,
notes/assumptions/70.md). Where that write fails, event 0x4012 carries the index that was to be written: R463 names only the index
of a failed entry (DESIGN CHOICE, notes/assumptions/80.md). -/
def endBatch (r : Nat) (completion : Bool) (s : State) : State :=
  match s.ring r with
  | none => s
  | some g =>
    let ix := if dKind g.desc = 0 then g.cons else g.prod
    if dWb g.desc ≠ 0 ∧ g.failNext = true then ringFail r ix s
    else
      let s0 := s.modRing r fun x => { x with batch := false }
      let s1 := if dWb g.desc = 0 then s0 else ringWrite r (dLoc g.desc) (dWb g.desc) (leBytes 8 ix) s0
      if completion || vectorDue s g then ringVector r s1 else s1

/-- Write one entry at the producer index, as a single write (R64). -/
def pushEntry (r : Nat) (bytes : Ring → List Byte) (s : State) : State :=
  match s.ring r with
  | none => s
  | some g =>
    if g.failNext then ringFail r g.prod s
    else
      let s1 := ringWrite r (dLoc g.desc) (g.addr g.prod) (bytes g) s
      ringCount r 1 (s1.modRing r fun g => { g with prod := (g.prod + 1) % idx24, last := s.now })

/-- What the stages keep for a step slot is gone when the slot is free: trees, path moves, local page lists. -/
def clearSlot (p sl : Nat) (s : State) : State :=
  let k := p * 4096 + sl
  -- grants on their way change no list of the slot's next user (06 R161)
  let stale (g : Grant) : Grant := if g.slot = sl then { g with slot := 4096 } else g
  let s1 : State := { s with
    spec := { s.spec with trees := SMap.del s.spec.trees k, moves := SMap.del s.spec.moves k,
                          moved := SMap.del s.spec.moved k }
    kv := SMap.upd s.kv {} p fun q => { q with copies := q.copies.map stale } }
  ((s1.part p).bind.filter fun b => (SMap.find (s1.core b.2).plist sl).isSome).foldl (fun t b => setList p b.1 sl (fun _ => []) t) s1

/-- What a request at rest leaves behind in a pool: the path moves it owes are done (05 R145), slots beyond the KV length leave the
chains, after a tree the pages that hold nothing else too (05 R146). -/
def restChains (p slot sess len : Nat) (s : State) : State :=
  let tree := (SMap.find s.spec.trees ((s.sess sess).part * 4096 + slot)).isSome
  truncSession p sess len (finishMoves p slot sess s) (edge := !tree)

/-- A session chosen for dropping whose request has ended meanwhile is dropped now (06 R175). -/
def dropEnded (r : Req) (s : State) : State :=
  let v := s.sess r.session
  if r.dropPend ∧ v.st = .warm then kvBump (releaseSess r.session true s) v.part 0x190 else s

/-- The last act of a request (R85): completion entry, ring closed, slot freed, session moved, record written. SVC_CNT_LATE counts
every request to which LATE or DEADLINE_DROPPED applied, also one that reports another status first: R103 does not say (DESIGN
CHOICE, notes/assumptions/80.md). -/
def endRequest (rid : Nat) (s : State) : State :=
  match s.req rid with
  | none => s
  | some r =>
    -- BUDGET_DEFERRED applies to a request that completed (R76): no other end applies
    let r := if r.completed && decide (r.deferred / 100000 ≠ 0) then r.setCond cBudget else r
    let st := r.status
    let p := (s.sess r.session).part
    let s0 := if r.has cLate || r.has cDrop then s.bump pgServ 0 0x19C else s
    let s0 := if r.has cGone then s0.bump pgEpoch p 0x18C else s0
    let s1 := match s0.ring r.ring with
      | some _ =>
        if r.mute then s0
        else
          let t := match r.handleOut with
            | some h => pushEntry r.ring (handleEntry h s0) s0
            | none => s0
          let t := pushEntry r.ring (completionEntry st r.cond r.delivered (r.deferred / 100000) t) t
          endBatch r.ring true t.draw
      | none => s0
    let s2 := match s1.ring r.ring with
      | some g => if g.req = some rid then s1.delRing r.ring else s1
      | none => s1
    let s3 := s2.modServ fun v => { v with reqs := SMap.del v.reqs rid }
    let x := (s1.req rid).getD r
    let fin := if x.has cCancelled && !r.has cCancelled then x else r
    let s4 := frWrite 7 p (leBytes 2 rid ++ leBytes 2 fin.status ++ leBytes 2 fin.cond ++ leBytes 4 r.delivered) s3
    let n := (s4.sess r.session).kvLen
    let s4 := if r.slot.isNone ∨ (s4.sess r.session).st ≠ .active then s4
      else
        let t := restChains p (r.slot.getD 0) r.session n s4
        match r.dslot with
        | some d => restChains r.dpart d r.session n t
        | none => t
    let s5 := if r.slot.isSome then dropEnded r (sessionAfter r.session s4)
      else if (s4.sess r.session).closing && (reqsOf s4 r.session).isEmpty then closeSess r.session s4 else s4
    let s6 := if r.adapter = 0xFFFF then s5 else sweepVer p r.adapter r.ver s5
    -- step slots are free again: their trees, path moves and local page lists go with them
    let s7 := match r.slot with
      | some sl => clearSlot p sl s6
      | none => s6
    match r.dslot with
    | some sl => clearSlot r.dpart sl s7
    | none => s7

/-- Every live request of a session ends with condition `k`; a QUEUED one at once (R71, R81). -/
def cancelAll (i k : Nat) (mute : Bool) (s : State) : State :=
  (reqsOf s i).foldl (fun t e => toEnding e.1 k mute t) s

/-! ### Prefix reuse (R94-R98) -/

/-- The scope of a tenant's prefixes (R94). -/
def scopeOf (s : State) (tenant : Nat) : Nat :=
  let g := (s.tenant tenant).group
  if g ≠ 0 ∧ s.fld pgServ 0 0x100 1 1 = 1 then 0x80000000 + g else tenant

/-- chunk_key of R94. -/
def chunkKey (scope : Nat) (toks : List W32) : Nat :=
  leNat (shake256 (leBytes 4 scope ++ (toks.map fun t => leBytes 4 t.toNat).flatten) 8)

/-- Position of the last token a chunk walk may use. -/
def chunkAt (log : List W32) (i : Nat) : List W32 := (log.drop (64 * i)).take 64

/-- The child of `node` (none: the root) with the key of a chunk (R95). -/
def childOf (s : State) (p scope : Nat) (node : Option Nat) (key : Nat) : Option (Nat × PNode) :=
  s.serv.nodes.find? fun e => e.2.part = p && e.2.scope = scope && e.2.parent = node && e.2.key = key

/-- What a lookup has found: length, node, collisions, pages per holder group in chain order. -/
structure Match where
  len : Nat
  node : Option Nat
  coll : Nat
  pages : List (Nat × List Nat)
  deriving DecidableEq, Repr

/-- Pages of one more chunk behind those already found: a page that goes on is listed once. -/
def joinPages (a : List (Nat × List Nat)) (b : List (Nat × List Nat)) : List (Nat × List Nat) :=
  b.map fun e =>
    let have_ := ((a.find? fun x => x.1 = e.1).map (·.2)).getD []
    (e.1, have_ ++ e.2.filter fun pg => !have_.contains pg)

/-- The walk of R95 from position `64 i` on. -/
def walk (s : State) (p scope : Nat) (log : List W32) : (fuel : Nat) → Nat → Match → Match
  | 0, _, m => m
  | f + 1, i, m =>
    if m.len + 64 ≤ log.length - 1 then
      match childOf s p scope m.node (chunkKey scope (chunkAt log i)) with
      | none => m
      | some (id, n) =>
        if n.toks = chunkAt log i then
          walk s p scope log f (i + 1) { m with len := m.len + 64, node := some id, pages := joinPages m.pages n.cpages }
        else { m with coll := m.coll + 1 }
    else m

def hIndex (h : Nat) : Nat := bitsOf h 0 18
def hGen (h : Nat) : Nat := bitsOf h 32 16
def hTenant (h : Nat) : Nat := bitsOf h 48 12
def hPart (h : Nat) : Nat := bitsOf h 60 4

/-- A handle is live (R97): its entry is in use and the generation matches. -/
def handleLive (s : State) (h : Nat) : Option Handle :=
  match SMap.find s.serv.handles (hIndex h) with
  | some e => if e.live && e.gen = hGen h && bitsOf h 18 14 = 0 then some e else none
  | none => none

/-- A handle is valid for a session (R97). -/
def handleValid (s : State) (h sess : Nat) : Option Handle :=
  let v := s.sess sess
  match handleLive s h with
  | some e =>
    let g := (s.tenant v.tenant).group
    let sameT := e.tenant = v.tenant ||
      (s.fld pgServ 0 0x100 1 1 = 1 && g ≠ 0 && decide ((s.tenant e.tenant).group = g))
    let q := s.pool e.part
    let whole := e.pages.all fun pg => match SMap.find q.pages pg with
      | some x => decide (x.st ≠ .lost)
      | none => false
    if e.part = v.part && hPart h = v.part && hTenant h = e.tenant && sameT && whole then some e else none
  | none => none

/-- The largest multiple of 64 at or below the first position of a page that cannot be shared (06 R162): pages missing,
lost, or saturated; and a saturated one. -/
def shareCut (q : KvPool) (pages : List (Nat × List Nat)) (len : Nat) : Nat × Option Nat :=
  pages.foldl (fun a e => (e.2.zipIdx).foldl (fun a x =>
    let first := match SMap.find q.pages x.1 with
      | some g => g.firstPos
      | none => x.2 * q.slots
    let cut := Nat.min a.1 (first / 64 * 64)
    match SMap.find q.pages x.1 with
    | some g =>
      if g.st = .lost then (cut, a.2)
      else if 65535 ≤ g.refc then (cut, if a.2.isNone && decide (first < len) then some x.1 else a.2)
      else a
    | none => (cut, a.2)) a) (len, none)

/-- Tell a page's holder that step slot `slot` uses it (06 R161). -/
def listGrant (p slot gi pg : Nat) (s : State) : State :=
  let q := s.pool p
  let g := (SMap.find q.pages pg).getD { st := .priv }
  let ix := (q.chains.findSome? fun c => if c.1 % 65536 = gi then c.2.pages.findIdx? (· = pg) else none).getD 0
  grant { part := p, core := pageCore pg, op := .share, slot := slot, page := pg, head := g.head, layer := g.layer, idx := ix } s

/-- Share the pages of positions 0 to len - 1 in every chain of the session, which holds none any more (06 R163). -/
def shareInto (p sess slot len : Nat) (pages : List (Nat × List Nat)) (s : State) : State :=
  let q := s.pool p
  pages.foldl (fun t e =>
    let mine := e.2.take ((len + q.slots - 1) / q.slots)
    let t1 := t.modPool p fun u => u.setChain sess e.1 { len := len, removed := 0, pages := mine, wr := len }
    mine.foldl (fun u pg =>
      listGrant p slot e.1 pg (shareRef p pg u)) t1) s

/-- The prefix lookup of R95 for a request whose session holds no KV. SVC_CNT_PFX_CHUNK counts the last part of a handle whose
length is no multiple of 64 as a chunk, and it alone sets PREFIX_HIT: R103 does not say (DESIGN CHOICE,
notes/assumptions/80.md). -/
def prefixLookup (rid sess : Nat) (r : Req) (s : State) : State :=
  let v := s.sess sess
  let p := v.part
  let scope := scopeOf s v.tenant
  let s := match v.group with
    | some _ => s
    | none => s.modSess sess fun w => { w with
        group := some (if s.fld pgServ 0 0x100 1 1 = 1 then (s.tenant v.tenant).group else 0) }
  let base : Match := ⟨0, none, 0, (s.pool p).groupIdx.map fun g => (g, [])⟩
  let hv := if r.handle = 0 then none else
    (handleValid s r.handle sess).filter fun e => decide (e.len ≤ v.log.length - 1)
  let stale := r.handle ≠ 0 ∧ hv.isNone
  let noTree := bitAt r.flags 2 || s.fld pgServ 0 0x100 0 1 = 0
  let m0 : Match := match hv with
    | some e => ⟨e.len, e.node.filter fun n => (SMap.find s.serv.nodes n).isSome, 0, e.chains⟩
    | none => base
  -- a handle whose node is none shares its positions and walks no further
  let mayWalk := !noTree && (hv.isNone || m0.node.isSome)
  let m := if mayWalk then walk s p scope v.log (v.log.length / 64 + 1) (m0.len / 64) m0 else m0
  -- the session's own pages go first; one that this frees cuts the match back as well (06 R162, R163)
  let s := freeChains p sess s
  let cut := shareCut (s.pool p) m.pages m.len
  let s1 := match cut.2 with
    | some pg => s.err pgKv 1 0x4042 (pg + p * 2 ^ 32) (pack [(0, p)])
    | none => s
  let s2 := shareInto p sess (r.slot.getD 0) cut.1 m.pages s1
  let s3 := s2.modSess sess fun w => { w with kvLen := cut.1 }
  let s4 := ((s3.bump pgServ 0 0x190 ((cut.1 + 63) / 64)).bump pgServ 0 0x194 m.coll)
  let s5 := if stale then s4.bump pgServ 0 0x198 else s4
  s5.modReq rid fun q =>
    let q1 := if stale then q.setCond cStale else q
    let q2 := if 0 < cut.1 then q1.setCond cPrefix else q1
    { q2 with sharedTo := cut.1 }

/-- Pages of a session's chains that hold positions a to b - 1. -/
def pagesHolding (q : KvPool) (sess a b : Nat) : List (Nat × List Nat) :=
  q.groupIdx.map fun gi =>
    (gi, (q.chain sess gi).pages.filter fun pg => (SMap.find q.pages pg).any fun g =>
      g.firsts.any fun f => decide (f < b) && decide (a < f + q.slots))

/-- The node that a walk by key and tokens over a session's log reaches at position 64 i (R96). -/
def nodeAt (s : State) (p scope : Nat) (log : List W32) : Nat → Option (Option Nat)
  | 0 => some none
  | i + 1 =>
    match nodeAt s p scope log i with
    | none => none
    | some n => match childOf s p scope n (chunkKey scope (chunkAt log i)) with
      | some (id, v) => if v.toks = chunkAt log i then some (some id) else none
      | none => none

/-- Whether that walk met a node with the key but other tokens (R95, R103). -/
def nodeColl (s : State) (p scope : Nat) (log : List W32) : Nat → Nat
  | 0 => 0
  | i + 1 =>
    match nodeAt s p scope log i with
    | none => nodeColl s p scope log i
    | some n => match childOf s p scope n (chunkKey scope (chunkAt log i)) with
      | some (_, v) => if v.toks = chunkAt log i then 0 else 1
      | none => 0

/-- Insert the chunks that the request computed itself (R96), from chunk `i` on, in position order. -/
def insertFrom (p scope sess : Nat) (log : List W32) (upto : Nat) : (fuel : Nat) → Nat → State → State
  | 0, _, s => s
  | f + 1, i, s =>
    if upto < 64 * (i + 1) then s
    else match nodeAt s p scope log i with
      | none => s.bump pgServ 0 0x194 (nodeColl s p scope log i)
      | some parent =>
        let toks := chunkAt log i
        let key := chunkKey scope toks
        let there := s.serv.nodes.any fun e =>
          e.2.part = p && e.2.scope = scope && e.2.parent = parent && e.2.key = key && e.2.toks = toks
        if there then insertFrom p scope sess log upto f (i + 1) s
        else
          let cp := pagesHolding (s.pool p) sess (64 * i) (64 * i + 64)
          let n : PNode := ⟨p, scope, parent, key, toks, (cp.map (·.2)).flatten, cp⟩
          insertFrom p scope sess log upto f (i + 1) (s.modServ fun v =>
            { v with nodes := SMap.put v.nodes v.nodeSeq n, nodeSeq := v.nodeSeq + 1 })

/-- Prefix insertion after a request's prefill (R96). -/
def prefixInsert (r : Req) (s : State) : State :=
  let v := s.sess r.session
  if bitAt r.flags 2 || s.fld pgServ 0 0x100 0 1 = 0 then s
  else insertFrom v.part (scopeOf s v.tenant) r.session v.log v.kvLen (v.log.length / 64 + 1) ((r.sharedTo + 63) / 64) s

/-- The node of the chunk that ends at L (R98): L a multiple of 64 and the tree holds it. -/
def nodeEndingAt (s : State) (p scope : Nat) (log : List W32) (len : Nat) : Option Nat :=
  if len % 64 = 0 ∧ 0 < len then (nodeAt s p scope log (len / 64)).getD none else none

/-- Registration of positions 0 to L - 1 (R98), L the session's KV length. -/
def registerPrefix (rid : Nat) (s : State) : State :=
  match s.req rid with
  | none => s
  | some r =>
    let v := s.sess r.session
    let p := v.part
    let q := s.pool p
    if v.kvLen = 0 then s
    else
      let cp := pagesHolding q r.session 0 v.kvLen
      let pages := (cp.map (·.2)).flatten
      match pages.find? fun pg => (SMap.find q.pages pg).any fun g => decide (65535 ≤ g.refc) with
      | some pg => s.err pgKv 1 0x4042 (pg + p * 2 ^ 32) (pack [(0, p)])
      | none => match firstFree (fun i => match SMap.find s.serv.handles i with
            | some h => h.live
            | none => false) 262144 0 with
        | none => s
        | some ix =>
          let old := (SMap.find s.serv.handles ix).getD {}
          let h : Handle := { gen := old.gen, live := true, tenant := v.tenant, part := p, len := v.kvLen,
                              pages := pages, chains := cp, node := nodeEndingAt s p (scopeOf s v.tenant) v.log v.kvLen }
          let s1 := pages.foldl (fun t pg => shareRef p pg t) s
          let s2 := s1.modServ fun w => { w with handles := SMap.put w.handles ix h }
          s2.modReq rid fun x => { x with
            handleOut := some (ix + old.gen * 2 ^ 32 + v.tenant * 2 ^ 48 + p * 2 ^ 60) }

/-- Release of a handle: references dropped, entry free, generation + 1, at least 1 (R98). -/
def releaseHandle (ix : Nat) (s : State) : State :=
  match SMap.find s.serv.handles ix with
  | none => s
  | some h =>
    if h.live then
      let g := if h.gen = 0xFFFF then 1 else h.gen + 1
      let s1 := s.modServ fun w => { w with handles := SMap.put w.handles ix { gen := g } }
      h.pages.foldl (fun t pg => releaseRef h.part pg t) s1
    else s

/-! ### Partition loss and host detach -/

/-- A session's partition ends (03 R81). -/
def sessPartEnd (i : Nat) (s : State) : State :=
  let v := s.sess i
  match v.st with
  | .warm | .spilling => releaseSess i true s
  | .active =>
    match v.obj, (reqsOf s i).any fun e => e.2.rst with
    | some o, true =>
      let s1 := freeChains v.part i s
      s1.modSess i fun w => { w with
        st := if o.tier = 1 then .t1 else .t2, kvLen := o.kvLen, spillPend := false,
        obj := some { o with entered := s.now, expiry := if o.tier = 1 then ttl1 s else ttl2 s } }
    | _, _ => releaseSess i true s
  | _ => s

/-- A WARM session goes where its policy sends it at the end of a request (R69 item 4). -/
def idlePolicy (s : State) (i : Nat) : State :=
  let v := s.sess i
  if v.st = .warm then
    (if v.policy = 1 then spillStart i s else if v.policy = 2 then releaseSess i false s else s)
  else s

/-- Every ring of every kind is closed; nothing more is written to a ring buffer (R69). -/
def closeAll (s : State) : State :=
  let s1 := (s.modServ fun v => { v with rings := [] }).modHost fun h => { h with
    bisnp := h.bisnp.filter fun w => decide (tagReplay ≤ w.tag) }
  let s2 : State := { s1 with paths := SMap.keep s1.paths fun k _ => k < 2 }
  if s.fld pgServ 0 0x118 0 1 = 1 then s2.setRegN pgServ 0 0x118 0 else s2

/-- Host detach (R69): rings closed, live requests end CANCELLED without a completion entry, each with event 0x400E, sessions
move by their policy. -/
def hostDetach (s : State) : State :=
  let s1 := s.serv.reqs.foldl (fun t e =>
    if e.2.st = .ending && e.2.mute then t
    else
      let v := t.sess e.2.session
      let t1 := toEnding e.1 cCancelled true t
      let t2 := t1.raiseFrom pgServ agStw 0x400E
        (pack [(0, e.1), (2, e.2.session), (4, v.tenant), (6, e.2.delivered)])
      if e.2.atRest t2 then endRequest e.1 t2 else t2) (closeAll s)
  (s1.serv.sess.map (·.1)).foldl idlePolicy s1

end Sys2Proof.Machine
end

