-- ==== Sys2Proof/Machine/ReplayEnd.lean ====
section
/-! DEFINITION. The end of a replay (17 R426). -/

namespace Sys2Proof.Machine

/-- Chains of a replay's sequences are numbered after those of the sessions. -/
def rpChain (i : Nat) : Nat := 16384 + i

def State.modRp (s : State) (f : RpSt → RpSt) : State := { s with rp := f s.rp }

def RpSt.modSeq (r : RpSt) (i : Nat) (f : RpSeq → RpSeq) : RpSt := { r with seqs := r.seqs.modify i f }

/-- The replay is over: the target's pages and slots are free (R426). -/
def replayFinish (code : Nat) (s : State) : State :=
  let p := s.rp.tgt
  let s1 := (List.range s.rp.seqs.length).foldl (fun t i => freeChains p (rpChain i) t) s
  let s2 := (pruneAll p s1).modPart p fun q => { q with
    replayOf := false, transit := [], leaving := [],
    stages := q.stages.map fun g => { g with run := none, wait := none, done := false, incomplete := false } }
  let s3 := (s2.setRegN pgReplay 0 0x120 (2 + code * 2 ^ 16)).modRp fun r => { r with
    busy := false, seqs := [], steps := [], flying := [] }
  frWrite 14 s.rp.src (leBytes 1 s.rp.src ++ leBytes 1 p ++ leBytes 4 s.rp.eqx0 ++ leBytes 4 s.rp.eqx1) s3

/-- The replay ends by an abort or a fault that ends its target: 0x4074. -/
def replayAbort (s : State) : State :=
  if s.rp.busy then (replayFinish 0x4074 s).err pgReplay 1 0x4074 0 (pack [(0, s.rp.src), (1, s.rp.tgt)]) else s

end Sys2Proof.Machine
end

