-- ==== Sys2Proof/Machine/SchedOps.lean ====
section
/-! DEFINITION. Partitions (04): states, causes and holders, step estimates, injection, commits, abandonment, the
Equinox, and the end of a partition; the relocation service is in Reloc.lean. -/

namespace Sys2Proof.Machine

/-! ### Partition state -/

def schedBlk (ps : PState) (drainReloc : Bool) : BState :=
  match ps with
  | .running | .equinox | .paused => .running
  | .relocating => if drainReloc then .draining else .running
  | .draining => .draining
  | _ => .stopped

/-- The block state after a change: it follows pstate, but a page in RESET, FENCED or FAULTED stays so (02 R36). -/
def Block.follow (b : Block) (st : BState) (now : Nat) : Block :=
  if b.st = .stopped ∨ b.st = .running ∨ b.st = .draining then { b with
    st := st, stopReq := b.stopReq && !decide (st = .stopped), since := if b.st = st then b.since else now }
  else b

/-- GLB_RELOC_STAT while the relocation service runs step 4: busy, and the partition (16 R387); the Equinox notes the time. -/
def relocNote (p : Nat) (was now : PState) (s : State) : State :=
  if now = .relocating then
    ((s.modPart p fun q => { q with eqx := q.eqx.map fun e => { e with step4 := s.now } }).setFld pgFault 0 0x108 0 1 1).setFld
      pgFault 0 0x108 4 4 p
  else if was = .relocating then
    s.setFld pgFault 0 0x108 0 1 (if s.parts.any fun e => decide (e.1 ≠ p) && decide (e.2.ps = .relocating) then 1 else 0)
  else s

/-- The states in which time counts as budget deferral (04 R126). -/
def PState.counts : PState → Bool
  | .running | .equinox | .draining => true
  | _ => false

/-- The deferral clocks of a partition's requests stand from now on, or go on (04 R126). -/
def holdClocks (p : Nat) (ps : PState) (s : State) : State :=
  match (s.part p).heldAt, ps.counts with
  | none, false => s.modPart p fun v => { v with heldAt := some s.now }
  | some t, true =>
    (s.modServ fun v => { v with reqs := SMap.mapAll v.reqs fun _ r =>
      if (s.sess r.session).part = p then { r with deferSince := r.deferSince.map fun d => d + (s.now - t) } else r }).modPart p
        fun v => { v with heldAt := none }
  | _, _ => s

/-- Holder bit 3 is the Steward's while a stop is under way: while the partition drains, a fault of the drain included (04
R126). -/
def stewardBit (p : Nat) (ps : PState) (s : State) : State :=
  match ps with
  | .draining => s.modPart p fun q => { q with holders := q.holders ||| 8 }
  | .loaded | .unloaded | .lost | .running => s.modPart p fun q => { q with holders := q.holders % 8 }
  | _ => s

/-- A change of pstate (04 R124, R127, R134): the block state follows, event 0x4023, flight record 8. -/
def setPs (p : Nat) (ps : PState) (s0 : State) : State :=
  let s := stewardBit p ps (holdClocks p ps s0)
  let q := s.part p
  if q.ps = ps then s
  else
    let s1 := relocNote p q.ps ps (s.modPart p fun v => { v with ps := ps })
    let s2 := s1.modBlk (pgSched p) fun b => b.follow (schedBlk ps q.drainReloc) s.now
    let s3 := s2.raise (pgSched p) 0x4023 (pack [(0, p), (1, q.ps.code), (2, ps.code), (4, q.eqxNum % 2 ^ 32)])
    frWrite 8 p (leBytes 1 q.ps.code ++ leBytes 1 ps.code) s3

/-- A cause of an Equinox is pending (04 R120); one that arises on a member of a span reaches the head (13 R333). -/
def postCause (p bit : Nat) (s : State) : State :=
  let s1 := s.modPart p fun q => { q with causes := q.causes ||| 2 ^ bit }
  if (s.part p).isMember then sendSpan p 0 (.cause bit) s1 else s1

/-- A member of a span tells the head its pause holder bits. -/
def tellHolders (p : Nat) (s : State) : State :=
  if (s.part p).isMember then sendSpan p 0 (.holders (s.part p).holders) s else s

/-- Set a pause holder bit (04 R126). -/
def setHolder (p bit : Nat) (s : State) : State :=
  let s1 := tellHolders p (s.modPart p fun q => { q with holders := q.holders ||| 2 ^ bit })
  let q := s.part p
  -- step 7 does not follow the relocation of a drain: the cause is held for the next run (R127)
  if q.ps = .running ∨ q.ps = .draining ∨ q.ps = .loaded ∨ (q.ps = .relocating ∧ q.drainReloc = true) then postCause p 2 s1 else s1

/-! ### Cost (04 R117-R119) -/

/-- est_s in femtoseconds for N positions and context sum C. -/
def estStage (s : State) (p g n c : Nat) : Nat :=
  let r (off : Nat) : Nat := s.regN (pgSched p) g off
  Nat.max (r 0x144 * 1000000) (r 0x148 * n * 1000) + r 0x14C * c + r 0x150 * 1000000 + r 0x154 * n * 1000

def estStep (s : State) (p n c : Nat) : Nat :=
  (List.range (s.part p).stages.length).foldl (fun a g => Nat.max a (estStage s p g n c)) 0

/-- Frequency of a speed step in MHz (14 R344). -/
def stepMHz (k : Nat) : Nat := 1200 + 140 * k

/-- The lowest clock set for any core of a stage, in MHz. -/
def stageMHz (s : State) (p g : Nat) : Nat :=
  match (s.part p).stages[g]? with
  | none => 3300
  | some st => st.cores.foldl (fun a c =>
      match siteOfLogical s p c with
      | some x => Nat.min a (stepMHz (s.fld (pgCore x) 0 0x110 0 4))
      | none => a) 3300

/-- R117's limit in ns, rounded up. -/
def stageLimit (s : State) (p g : Nat) (t : Tok) : Nat :=
  let f := Nat.max 1 (stageMHz s p g)
  Nat.max 10000 ((2 * estStage s p g t.positions t.context * 3300 / f + 999999) / 1000000)

/-- What the head allows the member at place `pos`, timed as a whole, in ns (13 R332): R117's limit with an estimate that the
head's cost registers do not hold (R131), and twice the latency to the member; a later member gets the limits of those before it
too, since the head sees a step again only with its results (notes/assumptions/45.md). -/
def memberLimit (s : State) (p pos : Nat) (t : Tok) : Nat :=
  ((List.range pos).map fun i => Nat.max 10000 (Config.memberEst p (i + 1) t.positions t.context) +
    2 * (SMap.get s.mlk.peers {} ((s.part p).span.getD (i + 1) 0)).lat).sum

/-! ### Stages and tokens -/

def Part.modStage (q : Part) (g : Nat) (f : Stage → Stage) : Part :=
  { q with stages := q.stages.modify g f }
/-- A stage's input is free: nothing waits there or is on its way. -/
def Part.inputFree (q : Part) (g : Nat) : Bool := (q.stage g).wait.isNone && !(q.transit.any fun e => e.1 = g)

/-- The live request that holds a step slot of a partition; in a draft partition, the one whose draft slot it is. -/
def reqOfSlot (s : State) (p slot : Nat) : Option (Nat × Req) :=
  s.serv.reqs.find? fun e =>
    (e.2.slot = some slot && decide ((s.sess e.2.session).part = p)) ||
    (e.2.dslot = some slot && decide (e.2.dpart = p))

def frStep (p : Nat) (t : Tok) (s : State) : State :=
  frWrite 3 p (leBytes 4 t.step ++ leBytes 1 t.count ++ leBytes 1 t.kind ++ leBytes 1 t.epoch ++ leBytes 1 t.replay ++
    leBytes 4 t.positions ++ leBytes 2 t.eqx ++ leBytes 2 0 ++
    (t.ents.map fun e => leBytes 2 e.slot ++ leBytes 2 e.ntok ++ leBytes 4 e.pos).flatten) s

/-- Inject a step token at stage 0 (04 R109, R133). Steps of a replay are not recorded (17 R426). -/
def inject (p : Nat) (t : Tok) (s : State) : State :=
  let s1 := (s.setRegN (pgSched p) 0 0x134 t.step).modPart p fun q => { q with
    noPrefill := if t.kind = 1 then 0 else q.noPrefill + 1,
    transit := q.transit ++ [(0, t)], stages := q.stages.modify 0 fun g => if g.run.isSome then g else { g with clock := s.now } }
  let s2 := (s1.bump (pgSched p) 0 0x180).bump (pgSched p) 0 0x188 t.count
  let s3 := tokGoes p 0 t (if t.kind = 1 then s2.bump (pgSched p) 0 0x184 else s2)
  if (s.part p).replayOf then s3 else frStep p t s3

/-- A new token's fixed fields: the next step number, the current Equinox number. -/
def newTok (s : State) (p kind epoch : Nat) (ents : List Ent) : Tok :=
  { kind := kind, count := ents.length, part := p, epoch := epoch,
    step := ((s.part p).stepNum + 1) % 2 ^ 32,
    positions := ents.foldl (fun n e => n + e.ntok) 0,
    context := Nat.min 0xFFFFFFFF (ents.foldl (fun n e => n + e.ctx) 0),
    replay := 0, retry := 0, eqx := (s.part p).eqxNum % 2 ^ 16, ents := ents }

/-- Inject a newly built token: its requests have one more step in flight. -/
def injectNew (p : Nat) (t : Tok) (s : State) : State :=
  let s2 := s.modPart p fun q => { q with stepNum := t.step }
  let s3 := t.ents.foldl (fun u e => match reqOfSlot u p e.slot with
    | some (rid, _) => u.modReq rid fun r => { r with inflight := r.inflight + 1, ready := false }
    | none => u) s2
  inject p t s3

/-! ### Budget and token-log space at a commit -/

/-- One more token-log extent where the log crosses into it (03 R83, 11 R281); false where none can be had. -/
def logRoom (i n : Nat) (s : State) : State × Bool :=
  let len := (s.sess i).log.length
  let need := logExt (len + n) - logExt len
  if need = 0 then (s, true)
  else
    let s1 := if need ≤ poolFree s ∨ reclaimEn s = false then s else reclaim need 0 (s.serv.sess.length + 1) s
    if need ≤ poolFree s1 then (takeExt (.log i) need s1, true)
    else (s1.err pgMap 1 0x2044 i (pack [(0, i)]), false)

/-- How the Steward reaches a session's token log (11 R278, R282). -/
def logAcc (s : State) (i : Nat) : Access := { owner := 1, slot := (s.sess i).tenant, req := 2, content := 2, session := i }

/-- Tokens go into a log in edge memory from place `n` on, 4 bytes each (03 R83); false where the tenant's slot is empty. -/
def logWrite (i n : Nat) (l : List W32) (s : State) : Bool × State :=
  extWrite (logAcc s i) (.log i) (4 * n) (l.map fun t => leBytes 4 t.toNat).flatten s

def late (s : State) (r : Req) : Bool :=
  match r.deadline with
  | some d => decide (d < s.now)
  | none => false

/-- The tokens of a commit up to the first stop token, the last allowed token, the maximum context; and whether the
cut ends the request, with CTX_LIMIT or not (03 R85, 05 R144). -/
def cutToks (r : Req) (room : Nat) : List TokLp → Nat → List TokLp × Bool × Bool
  | [], _ => ([], false, false)
  | t :: ts, n =>
    if room ≤ n then ([], true, true)
    else
      let stop := t.tok.toNat = r.stop0 ∨ t.tok.toNat = r.stop1
      let last := r.maxNew ≠ 0 ∧ r.delivered + n + 1 = r.maxNew
      let ctx := n + 1 = room
      if stop ∨ last ∨ ctx then ([t], true, decide (ctx ∧ ¬ stop ∧ ¬ last))
      else
        let c := cutToks r room ts (n + 1)
        (t :: c.1, c.2.1, c.2.2)

/-- Write one token entry of a request and log the token (03 R74, R83). A token whose entry fails is not logged, nor is any behind
it: the ring has closed (R463). -/
def deliver (rid : Nat) (isLate : Bool) (t : TokLp) (s : State) : State :=
  match s.req rid with
  | none => s
  | some r =>
    let pos := (s.sess r.session).log.length
    let fl := (if isLate then flLate else 0) + (if r.switched && r.delivered = 0 then flSwitched else 0)
    let lp := if bitAt r.flags 3 then some t.lp else none
    let s1 := pushEntry r.ring (tokenEntry t.tok.toNat pos fl lp s) s
    if (s.ring r.ring).isNone || (s1.ring r.ring).isNone then s1
    else
      let s2 := (logWrite r.session pos [t.tok] s1).2.modSess r.session fun v => { v with log := v.log ++ [t.tok] }
      s2.modReq rid fun q => { q with delivered := q.delivered + 1 }

/-- A sequence leaves a step that will not run for it: its request has one step fewer in flight. -/
def unfly (rid : Nat) (s : State) : State := s.modReq rid fun r => { r with inflight := r.inflight - 1 }

/-- Enter PREFILL, charged once for the new tokens that are computed (R89), or DEFERRED (R90). -/
def enterPrefill (rid : Nat) (s : State) : State :=
  match s.req rid with
  | none => s
  | some r =>
    let v := s.sess r.session
    let s1 := refill v.tenant s
    if inBudget s1 v.tenant then
      let n := v.log.length - Nat.max r.newAt v.kvLen
      let s2 := if r.charged then s1 else charge v.tenant n (s1.tenant v.tenant).weight s1
      (letGo rid s2).modReq rid fun q => { q with st := .prefill, charged := true }
    else (holdBack rid s1).modReq rid fun q => { q with st := .deferred }

/-- A request returns to PREFILL to recompute positions from its session's KV length on (04 R128, 06 R175), under the test of
R90; what it was charged for is not charged again (R89). One whose restore runs waits for its end. -/
def backToPrefill (rid : Nat) (s : State) : State :=
  match s.req rid with
  | none => s
  | some r =>
    let v := s.sess r.session
    -- an ENDING request recomputes nothing: the session's next one reports what is computed again (06 R177)
    let end_ := decide (r.st = .ending)
    let s0 := s.modSess r.session fun w => { w with
      dkv := Nat.min w.dkv v.kvLen, recompTo := if end_ then w.recompTo else 0, evicted := end_ && w.evicted }
    let key := v.part * 4096 + r.slot.getD 0
    let s1 : State := { s0 with spec := { s0.spec with trees := SMap.del s0.spec.trees key } }
    let fend := if r.kind = .rollback then r.rlen - 1 else v.log.length - 1
    if r.st = .ending then s1
    else
      let s2 := s1.modReq rid fun q => { (q.setCond cRecompute) with
        fpos := v.kvLen, fend := fend, ready := true, sharedTo := Nat.min q.sharedTo v.kvLen,
        charged := q.charged || decide (q.st = .decode) }
      if r.rst then s2
      else if v.kvLen < fend then enterPrefill rid s2
      else s2.modReq rid fun q => { q with st := .decode }

/-- Commit the tokens of a step for a request (03 R85, R89, R91, R93): `P` is the KV length before them. A replay
compares instead (17 R424, R426). -/
def commitToks (rid pos : Nat) (toks : List TokLp) (s : State) : State :=
  match s.req rid with
  | none => s
  | some r =>
    let v := s.sess r.session
    let isLate := late s r
    let room := maxCtx s v.part - v.log.length
    let cut := cutToks r room toks 0
    -- tokens that are discarded were committed by the step: they are charged (R89)
    if isLate && bitAt r.flags 0 then
      -- pages that steps in flight may still write leave the chains when the last has left (05 R146)
      let s0 := s.modSess r.session fun w => { w with kvLen := Nat.min w.kvLen pos }
      let s1 := if r.inflight = 0 then truncSession v.part r.session pos s0 else s0
      toEnding rid cDrop false (charge v.tenant cut.1.length 4096 s1)
    else if (s.ring r.ring).isNone || r.mute then toEnd rid (charge v.tenant cut.1.length 4096 s)
    else
      let lr := logRoom r.session cut.1.length s
      -- with no extent to be had the request ends as at its maximum context: with the tokens that the log still holds (11 R281)
      let here := logExt v.log.length * 4096 - v.log.length
      let cut := if lr.2 then cut else (cut.1.take here, true, true)
      let s1 := cut.1.foldl (fun t x => deliver rid isLate x t) lr.1
      let n := (s1.sess r.session).log.length - v.log.length
      let s2 := charge v.tenant cut.1.length 4096 s1
      let short := decide ((s2.sess r.session).kvLen < pos)
      let s3 := s2.modSess r.session fun w => { w with kvLen := if w.kvLen < pos then w.kvLen else pos + n }
      let s4 := s3.modReq rid fun q => { q with ready := true }
      let s5 := if cut.2.2 then s4.modReq rid fun q => q.setCond cCtx else s4
      let s6 := if isLate then toEnding rid cLate false s5 else if cut.2.1 then toEnd rid s5 else s5
      match s6.req rid with
      | some q =>
        if q.st = .ending ∧ q.inflight = 0 then s6
        else endBatch r.ring false (if short ∧ q.st ≠ .ending then backToPrefill rid s6 else s6)
      | none => s6

/-! ### Abandonment (04 R128) -/

/-- The highest faulted stage. -/
def Part.topFault (q : Part) : Option Nat :=
  (q.stages.zipIdx.filter fun e => e.1.faulted).foldl (fun _ e => some e.2) none

/-- Insert a token by step number. -/
def insTok (t : Tok) : List Tok → List Tok
  | [] => [t]
  | u :: r => if t.step ≤ u.step then t :: u :: r else u :: insTok t r

/-- Take every step token that has not handed stage `g` on, in step-number order. -/
def Part.takeUpTo (q : Part) (g : Nat) : List Tok × Part :=
  let trs := (q.transit.filter fun e => e.1 ≤ g).map (·.2)
  let sts := (q.stages.take (g + 1)).foldl (fun a x => a ++ x.run.toList ++ x.wait.toList) []
  ((trs ++ sts).foldr insTok [], { q with
    transit := q.transit.filter fun e => g < e.1
    stages := q.stages.zipIdx.map fun e =>
      if e.2 ≤ g then { e.1 with run := none, done := false, incomplete := false, wait := none } else e.1 })

/-- Steps abandoned: `r` what was taken and the partition left. A member of a span keeps none: the head re-injects. -/
def setAbandoned (p : Nat) (r : List Tok × Part) (s : State) : State :=
  let ab := if r.2.isMember then r.2.abandoned else (r.2.abandoned ++ r.1).foldr insTok []
  (pruneToks p (s.setPart p { r.2 with abandoned := ab })).bump (pgSched p) 0 0x194 r.1.length

def abandonSteps (p : Nat) (s : State) : State :=
  match (s.part p).topFault with
  | none => s
  | some g => setAbandoned p ((s.part p).takeUpTo g) s

/-- The last place in the span whose module reports faulted stages. -/
def Eqx.spanFault (e : Eqx) : Option Nat :=
  (e.spanIn.filter fun a => a.faults ≠ []).foldl (fun m a => some (Nat.max (m.getD 0) a.pos)) none

/-- A fault at a member abandons the head's steps, and those away that neither it nor a later member keeps (13 R333). -/
def abandonSpan (p : Nat) (e : Eqx) (s : State) : State :=
  match e.spanFault with
  | none => s
  | some k =>
    let q := s.part p
    let keep := ((e.spanIn.filter fun a => k ≤ a.pos).map (·.held)).flatten
    let r := q.takeUpTo (q.stages.length - 1)
    let gone := q.away.filter fun t => !keep.contains t.step
    setAbandoned p (r.1 ++ gone, { r.2 with away := q.away.filter fun t => keep.contains t.step }) s

/-! ### The end of a partition (04 R129) -/

/-- Every live request of partition `p` ends PARTITION_LOST; steps in flight are abandoned; sessions move (03 R81). -/
def endPartReqs (p : Nat) (s : State) : State :=
  let mine := s.serv.reqs.filter fun e => (s.sess e.2.session).part = p
  let s1 := mine.foldl (fun t e => toEnding e.1 cLost false (t.modReq e.1 fun r => { r with inflight := 0 })) s
  let ss := (s.serv.sess.filter fun e => e.2.part = p).map (·.1)
  let s2 := ss.foldl (fun t i => sessPartEnd i t) s1
  mine.foldl (fun t e => endRequest e.1 t) s2

/-- Trees of a target whose draft partition ends keep the levels drafted; the draft's KV and its step slots are gone (05 R136, R137,
R148). The event is that of the draft which SPEC_PCFG.draft names. -/
def draftEnds (d : Nat) (s : State) : State :=
  let t := (s.part d).draftOf
  let fed (r : Req) : Bool := r.dslot.isSome && decide (r.dpart = d)
  let cut (k : Nat) (x : Tree) : Tree :=
    if k / 4096 = t && (reqOfSlot s t (k % 4096)).any fun e => fed e.2 then { x with depth := Nat.min x.depth x.levels, drafting := false } else x
  if t = 0xFF then s
  else
    let s0 : State := { s with spec := { s.spec with trees := SMap.mapAll s.spec.trees cut } }
    let s1 := s0.modServ fun v => { v with
      sess := SMap.mapAll v.sess fun i x => if (v.reqs.any fun e => e.2.session = i && fed e.2) then { x with dkv := 0 } else x
      reqs := SMap.mapAll v.reqs fun _ r => if fed r then { r with dslot := none } else r }
    if s.fld pgAcc t 0x104 0 4 = d then s1.err pgAcc 0 0x4030 (t * 2 ^ 16) (pack [(0, t)]) else s1

/-- Empty the pipeline of a partition. -/
def Part.flush (q : Part) : Part :=
  { q with
    transit := [], leaving := [], abandoned := [], eqx := none, causes := 0, stopHeld := false, drainReloc := false,
    away := [], inbox := [],
    stages := q.stages.map fun g => { g with run := none, done := false, incomplete := false, wait := none, faulted := false, outs := [] } }

/-- A partition's Solstice request is over: SVC_WE_NEXT.valid reads 0 (12 R313). The rule names latch and refusal; that a
request held when its partition ends or is reset goes with it, unreported, is the model's choice (notes/assumptions/80.md). -/
def dropRequest (p : Nat) (s : State) : State :=
  (s.modPart p fun q => { q with solstice := none }).setFld pgEpoch p 0x104 8 1 0

/-- A partition ends: R129. It stays LOST with its tiles until a partition reset. -/
def endPartition (p : Nat) (s : State) : State :=
  if (s.part p).ps = .unloaded ∨ (s.part p).ps = .lost then s
  else
    let s1 := pruneAll p (s.modPart p Part.flush)
    let s2 := endPartReqs p s1
    let s3 := draftEnds p s2
    let s4 := (setPs p .lost (dropRequest p s3)).err (pgSched p) 2 0x4022 0 (pack [(0, p)])
    let s5 := if (s.part p).replayOf then replayAbort s4 else s4
    { s5 with kv := SMap.upd s5.kv {} p fun q => { q with chains := [], copies := [] } }

/-- The end of a partition of a span that has lost a module (13 R338): event 0x6022, the module and partition in
ERR_LOC. -/
def spanEnd (p m : Nat) (s : State) : State :=
  if (s.part p).ps = .unloaded ∨ (s.part p).ps = .lost then s
  else (endPartition p s).err pgGroup 1 0x6022 (m + p * 2 ^ 8) (pack [(0, m), (1, p)])

/-- Partitions here whose span includes a module. -/
def spansWith (s : State) (m : Nat) : List Nat := (s.parts.filter fun e => e.2.span.contains m).map (·.1)

/-- Every partition here whose span includes module `m` ends (13 R338); of those that `tell` picks the other members hear it. -/
def spansEnd (m : Nat) (tell : Part → Bool) (s : State) : State :=
  (spansWith s m).foldl (fun t p =>
    let q := t.part p
    spanEnd p m (if tell q && !partLost t p then tellMembers p (.relocated 0 false) t else t)) s

/-! ### Solstice (12 R313) -/

def refuseSolstice (p e : Nat) (s : State) : State :=
  let s1 := dropRequest p s
  let s2 := s1.err pgEpoch 1 0x4051 (p + e * 2 ^ 16) (pack [(0, p), (1, e)])
  s2.bump pgEpoch p 0x188

/-- Step 6 of R121: latch the requested epoch, or refuse it (12 R313). -/
def latchSolstice (p eqxNum : Nat) (s : State) : State :=
  let q := s.part p
  match q.solstice with
  | none => s
  | some e =>
    if (q.epOther = e ∧ e ≠ 0xFF) ∧ q.epDrain = 0xFF ∧ q.epFill = false then
      let s1 := s.modPart p fun v => { v with
        solstice := none, epCur := e, epDrain := q.epCur, epOther := 0xFF,
        retainAt := some (s.now + s.fld pgEpoch p 0x10C 0 16 * ms) }
      let s2 := (s1.setFld pgEpoch p 0x104 8 1 0).bump pgEpoch p 0x184
      frWrite 5 p (leBytes 1 q.epCur ++ leBytes 1 e ++ leBytes 4 eqxNum) s2
    else refuseSolstice p e s

/-! ### Cores and page tags (06 R167, R168) -/

/-- The stage of partition `p` that a logical core belongs to. -/
def stageOfCore (q : Part) (c : Nat) : Option Nat := q.stages.findIdx? fun g => g.cores.contains c

/-- The partition and logical core bound to a site. -/
def boundAt (s : State) (site : Nat) : Option (Nat × Nat) :=
  s.parts.findSome? fun e => (e.2.bind.find? fun b => b.2 = site).map fun b => (e.1, b.1)

/-- ERR_LOC of a core page (07 R211): x, y, logical index, program counter. -/
def coreLoc (s : State) (site : Nat) : Nat :=
  siteX site + siteY site * 2 ^ 8 + s.fld (pgCore site) 0 0x104 0 14 * 2 ^ 16 + (s.core site).pc % 2 ^ 25 * 2 ^ 32

/-- R167: whether a session of a tenant and share group may touch a page. -/
def tagPass (g : Page) (tenant grp : Nat) : Bool :=
  decide (g.tenant = tenant) || (decide (g.group ≠ 0) && decide (grp = g.group))

/-- Tenant and share group of a session; in a member of a span, which holds the head's sessions, as the head has named them (13
R332); in a replay's target those of the session replayed. -/
def ownerPair (s : State) (p sess : Nat) : Nat × Nat :=
  if (s.part p).isMember then
    (((s.part p).spanSeqs.find? fun e => e.2.1 = sess).map fun e => (e.2.2.1, e.2.2.2)).getD (0, 0)
  else
    let i := if sess < rpChain 0 then sess else ((s.rp.seqs[sess - rpChain 0]?).map (·.session)).getD 0
    ((s.sess i).tenant, (s.sess i).group.getD 0)

/-- An access of a session's to a page fails the tag check. -/
def tagBad (s : State) (p sess pg : Nat) : Bool :=
  let o := ownerPair s p sess
  (SMap.find (s.pool p).pages pg).any fun g => !tagPass g o.1 o.2

/-- What a core whose access failed the tag check records: its event and ERR bit, FAULTED with code 0x7010, the allocator page's
ERR bit without an event, the page as lost (R168). -/
def tagRecord (p pg slot site : Nat) (s : State) : State :=
  let s1 := (s.err (pgCore site) 3 0x7010 (coreLoc s site) (pack [(0, pg), (4, slot)])).modBlk (pgCore site) fun b =>
    { b with st := .faulted }
  let s2 := s1.err pgKv 0 0x7010 (pg + p * 2 ^ 32) (pack [(0, pg)]) true
  (s2.modPart p fun q => { q with lostDue := q.lostDue ++ [pg] }).modCore site fun c =>
    { c with tf := true, fcode := 0x7010 }

/-! ### Merging (06 R174) -/

def maskOf (s : State) (p pg : Nat) : Nat := leNat (pageBytes s p pg 0x3FE0 16)
/-- What a page's trailer says of its live slots, and the unmasked ones of its first `n` (06 R156). -/
def liveTold (s : State) (p pg : Nat) : Nat := leNat (pageBytes s p pg 0x3FF4 1)
def liveOf (s : State) (p pg n : Nat) : Nat := ((List.range n).filter fun j => !bitAt (maskOf s p pg) j).length

def setMask (p pg m : Nat) (s : State) : State := putPageBytes p pg 0x3FE0 (leBytes 16 m) s

/-- Merge the live slots of page `y` (later) into masked slots of page `x` (earlier) of chain `ck`. -/
def mergePages (p ck x y : Nat) (s : State) : State :=
  let q := s.pool p
  match SMap.find q.pages x, SMap.find q.pages y with
  | some gx, some gy =>
    let dst := (List.range gx.fill).filter fun j => bitAt (maskOf s p x) j
    let src := (List.range gy.fill).filter fun j => !bitAt (maskOf s p y) j
    let s1 := (src.zip dst).foldl (fun t e =>
      setMask p x (maskOf t p x - 2 ^ e.2) (copySlot p y e.1 x e.2 t)) s
    let fp := Nat.min gx.firstPos gy.firstPos
    let s2 := putPageBytes p x 0x3FF0 (leBytes 4 fp) s1
    let s3 := putPageBytes p x 0x3FF4 (leBytes 1 (liveOf s p x gx.fill + liveOf s p y gy.fill)) s2
    let s4 := putPageBytes p x 0x3FF5 (leBytes 1 (leNat (pageBytes s3 p x 0x3FF5 1) ||| 4)) s3
    let s5 := s4.modPool p fun u => { u with
      pages := SMap.mod u.pages x fun g => { g with merged := true, firstPos := fp, also := g.also ++ gy.firsts },
      chains := SMap.mod u.chains ck fun c => { c with
        removed := c.removed + u.slots, pages := c.pages.filter (· ≠ y) } }
    -- the chain's page indexes above the freed page fall by one, in the holders' lists too
    let i := (SMap.get q.chains {} ck).pages.idxOf y
    let s6 := match slotOf s p (ck / 65536) with
      | none => s5
      | some sl => (q.groups[ck % 65536]?).elim s5 fun h => h.members.foldl (fun t c => setList p c sl (fun l => l.map fun e =>
            if e.head = h.head ∧ e.layer = h.layer ∧ i < e.idx then { e with idx := e.idx - 1 } else e) t) s5
    kvBump (releaseRef p y (dropGrant p (ck / 65536) y s6)) p 0x198
  | _, _ => s

/-- The pair of aged private pages of one chain on a core with the lowest combined live count that fits (06 R174).
A session that is SPILLING is skipped (11 R291). -/
def mergePick (s : State) (p core : Nat) : Option (Nat × Nat × Nat) :=
  let q := s.pool p
  let fillOf (pg : Nat) : Nat := ((SMap.find q.pages pg).map (·.fill)).getD 0
  let lives (pg : Nat) : Nat := liveOf s p pg (fillOf pg)
  let good (pg : Nat) : Bool := pageCore pg = core && match SMap.find q.pages pg with
    | some g => g.aged && decide (g.st = .priv)
    | none => false
  let cands := (q.chains.filter fun e => (s.sess (e.1 / 65536)).st ≠ .spilling).map fun e =>
    let ps := e.2.pages.filter good
    ((ps.map fun a => (ps.filter fun b => (e.2.pages.idxOf a) < (e.2.pages.idxOf b)).map fun b =>
      (lives a + lives b, e.1, a, b)).flatten)
  (((cands.flatten).filter fun x => x.1 ≤ q.slots && decide (lives x.2.2.2 + lives x.2.2.1 ≤ fillOf x.2.2.1)).foldl (fun a x => match a with
    | none => some x
    | some y => if x.1 < y.1 then some x else some y) (none : Option (Nat × Nat × Nat × Nat))).map fun x => x.2

/-- A merge that fails the tag check moves nothing; its core's stage joins the fault set of this Equinox (R168, 04 R122). -/
def mergeFault (p core pg ck : Nat) (s : State) : State :=
  match siteOfLogical s p core with
  | none => s
  | some site =>
    let s1 := tagRecord p pg ((slotOf s p (ck / 65536)).getD 0) site s
    match stageOfCore (s.part p) core with
    | none => s1
    | some g => s1.modPart p fun q => { (q.modStage g fun x => { x with faulted := true }) with
        eqx := q.eqx.map fun e => { e with faults := e.faults ++ [g] } }

def mergeCore (p core : Nat) : (fuel : Nat) → State → State
  | 0, s => s
  | f + 1, s => match mergePick s p core with
    | none => s
    | some (ck, x, y) => match [x, y].find? (tagBad s p (ck / 65536)) with
      | some pg => mergeFault p core pg ck s
      | none => mergeCore p core f (mergePages p ck x y s)

/-- At step 5 each holder with fewer free frames than merge_low merges up to merge_max pairs (06 R174). -/
def mergeAll (p : Nat) (s : State) : State :=
  let q := s.pool p
  let low := bitsOf q.hcfg2.toNat 8 10
  let top := bitsOf q.hcfg2.toNat 24 8
  q.cores.foldl (fun t e => if (t.pool p).freeFrames e.1 < low then mergeCore p e.1 top t else t) s

/-! ### The Equinox, steps 3 to 8 (04 R121) -/

/-- The sites of a tile, and the pages of a partition in the order of step 5: core, tile, fabric pages, its own. -/
def tileSites (t : Nat) : List Nat := (List.range 144).map (siteOf t)

def eqxPages (q : Part) (p : Nat) : List Nat :=
  ((q.tiles.map fun t => (tileSites t).map pgCore).flatten) ++ q.tiles.map pgTile ++ q.tiles.map pgFab ++ [pgSched p]

/-- Pages of a partition with a set pending, in that order. -/
def pendingPages (s : State) (p : Nat) : List Nat :=
  (eqxPages (s.part p) p).filter fun pg => (s.blk pg).commit.isSome &&
    (decide ((s.blk pg).st = .running) || (decide (pg = pgSched p) && decide ((s.blk pg).st = .draining)))

/-- Step 5: every committed set pending on a page of p applies; holders take their configuration; merges. -/
def eqxConfig (p : Nat) (s : State) : State :=
  let s1 := (pendingPages s p).foldl (fun t pg => applyCommit pg t) s
  let s2 := s1.modPool p fun q => { q with hcfg := s1.reg pgKv p 0x104, hcfg2 := s1.reg pgKv p 0x108 }
  mergeAll p s2

/-- The tokens that wait for re-injection once step 4 has abandoned its own (R128, 13 R333). -/
def Part.toAbandon (q : Part) (e : Eqx) : List Tok :=
  let own := match e.spanFault with
    | some k =>
      let keep := ((e.spanIn.filter fun a => k ≤ a.pos).map (·.held)).flatten
      (q.takeUpTo (q.stages.length - 1)).1 ++ q.away.filter fun t => !keep.contains t.step
    | none => match q.topFault with
      | some g => (q.takeUpTo g).1
      | none => []
  if q.isMember then q.abandoned else (q.abandoned ++ own).foldr insTok []

/-- Step 3: the flight recorder's record of the Equinox (17 R422): number, causes, the first step that step 4 abandons and their
count, the mask of faulted stages; then, which R121 has in the record and R422 does not list, 8 bytes for each step held at a
stage: stage and step number (notes/assumptions/72.md). -/
def recordEqx (p : Nat) (e : Eqx) (s : State) : State :=
  let q := s.part p
  let held := q.stages.map fun g => (g.run.toList ++ g.wait.toList).map (·.step)
  let ab := q.toAbandon e
  frWrite 4 p (leBytes 4 e.num ++ leBytes 4 e.causes ++ leBytes 4 (match ab with | t :: _ => t.step | [] => 0) ++
    leBytes 4 ab.length ++ leBytes 32 (e.faults.foldl (fun m g => m ||| 2 ^ g) 0) ++
    (held.zipIdx.map fun x => (x.1.map fun k => leBytes 4 x.2 ++ leBytes 4 k).flatten).flatten)
    (s.modPart p fun v => { v with eqxRec := some ⟨e.num, e.causes, held, e.faults⟩ })

/-- The clocks of steps not started stand from step 1 on (R117). -/
def standClocks (p : Nat) (s : State) : State := s.modPart p fun q => { q with clockAt := some (q.clockAt.getD s.now) }

/-- The clocks of steps not started go on: they have stood since step 1 of the first Equinox that has not released (R117). A
finished step that its stage holds counts among them (notes/assumptions/19.md). -/
def Part.startClocks (q : Part) (start now : Nat) : Part :=
  let t0 := q.clockAt.getD start
  { q with
    clockAt := none, awayClock := now - (t0 - q.awayClock)
    stages := q.stages.map fun g => if g.run.isSome && !g.done then g else { g with clock := now - (t0 - g.clock) } }

/-- Step 8: release. -/
def eqxRelease (p : Nat) (e : Eqx) (s : State) : State :=
  let dt := Nat.min (s.now - e.start) 0xFFFFFFFF
  let q := s.part p
  let s1 := s.modPart p fun v => { v.startClocks e.start s.now with eqx := none, eqxNum := e.num, lastEqx := s.now, mustEqx := false }
  let s2 := ((s1.setRegN (pgSched p) 0 0x12C (e.num % 2 ^ 24 + e.causes % 64 * 2 ^ 24)).setRegN (pgSched p) 0 0x130 dt).bump
    (pgSched p) 0 0x18C
  let s3 := s2.raise (pgSched p) 0x4024 (pack [(0, p), (3, e.causes % 64), (4, e.num % 2 ^ 32), (8, dt)])
  let s5 := (List.range q.stages.length).foldl (fun t g =>
    toLeader .eqxGo p g e.num [List.replicate 32 0] (t.emit (.notice agStw g 0x60 [p, e.num]))) s3
  if q.stopHeld then setPs p .draining (s5.modPart p fun v => { v with stopHeld := false })
  else setPs p .running s5

/-- Pages due are reported lost (16 R381); requests at rest whose positions are gone recompute them. -/
def reportLost (p : Nat) (s : State) : State :=
  let s1 := losePages p (s.part p).lostDue (s.modPart p fun q => { q with lostDue := [] })
  if (s.part p).lostDue = [] then s
  else s1.serv.reqs.foldl (fun t e =>
    let v := t.sess e.2.session
    if v.part = p ∧ e.2.inflight = 0 ∧
        ((e.2.st = .prefill ∧ v.kvLen < e.2.fpos) ∨ (e.2.st = .decode ∧ v.kvLen + 1 < v.log.length))
    then backToPrefill e.1 t else t) s1

/-- Step 6 in a span: every member has reported the epoch that EQX_REQ named resident and filled (13 R333). -/
def spanAgrees (q : Part) (e : Eqx) : Bool :=
  decide (q.span = []) || (decide (q.solstice = some e.sol) && decide (e.spanIn.length + 1 = q.span.length) && e.spanIn.all (·.ready))

/-- Steps 6 to 8. With a drain that a fault ended only step 6 follows (04 R127). In a span step 6 needs the epoch ready on
every member, step 7 looks at every module's holder bits and pauses every member, and step 8 releases them (13 R333). A stopped Steward releases
no partition (01 R16). -/
def eqxTail (p : Nat) (e : Eqx) (s : State) : State :=
  if s.mg.stwDead then s
  else if (s.part p).stages.any (·.faulted) then
    -- a stage that faulted after step 3: step 4 runs for it (R122)
    setPs p .relocating (abandonSteps p (s.modPart p fun v => { v with eqx := some { e with phase := 4 } }))
  else
  let before := (s.part p).epCur
  let s1 := if spanAgrees (s.part p) e then latchSolstice p e.num s
    else match (s.part p).solstice with
      | some x => refuseSolstice p x s
      | none => s
  let q := s1.part p
  if q.drainReloc then
    setPs p .loaded (s1.modPart p fun v => { v with eqx := none, eqxNum := e.num, drainReloc := false })
  else
    let ep := if q.epCur = before then 0xFF else q.epCur
    if q.holders ≠ 0 ∨ q.spanHold ≠ [] then
      let s2 := setPs p .paused (s1.modPart p fun v => { v with eqx := none, eqxNum := e.num })
      if q.isHead then tellMembers p (.pause e.num ep) s2 else s2
    else
      let s2 := eqxRelease p e s1
      if q.isHead then tellMembers p (.go e.num ep) s2 else s2

/-- The causes that an Equinox in progress takes (04 R120, R122): commits, a Solstice, a fault, and a pause where step 7
follows (R127). -/
def takenCauses (q : Part) : Nat := q.causes &&& (if q.drainReloc then 0xB else 0xF)

/-- Steps 5 to 8. The head of a span sends EQX_APPLY and waits for its members' answers; a member answers. -/
def eqxFinish (p : Nat) (e0 : Eqx) (s0 : State) : State :=
  let tk := takenCauses (s0.part p)
  let e : Eqx := { e0 with causes := e0.causes ||| tk }
  let s := eqxConfig p (reportLost p (s0.modPart p fun v => { v with causes := v.causes - tk }))
  let q := s.part p
  if q.isHead then
    let k := e.spanFault.getD 0
    (List.range q.span.length).foldl (fun t i => if i = 0 then t else sendSpan p i (.applySets e.num (decide (i < k))) t)
      (s.modPart p fun v => { v with eqx := some { e with
        phase := 5, spanOk := [], spanIn := e.spanIn.map fun a => { a with faults := [] } } })
  else if q.isMember then
    sendSpan p 0 (.applied e.num) (s.modPart p fun v => { v with eqx := some { e with phase := 6 } })
  else eqxTail p e s

/-- The head goes on once every member has answered EQX_APPLY. -/
def spanApplied (p pos : Nat) (s : State) : State :=
  match (s.part p).eqx with
  | none => s
  | some e =>
    let ok := if e.spanOk.contains pos then e.spanOk else e.spanOk ++ [pos]
    if e.phase = 5 then
      let e1 : Eqx := { e with spanOk := ok }
      let s1 := s.modPart p fun v => { v with eqx := some e1 }
      if ok.length + 1 = (s.part p).span.length then eqxTail p e1 s1 else s1
    else s

/-- R125: with the last holder bit clear, a paused partition runs a resume Equinox: steps 3, 5, 6 and 8. The head of a span
resumes it: step 6 needs what each member reports, so it sends EQX_REQ and goes on with the last SPAN_ARRIVE
(notes/assumptions/45.md). -/
def resumeEqx (p : Nat) (s : State) : State :=
  let q := s.part p
  if q.ps = .paused ∧ q.eqx = none ∧ q.holders = 0 ∧ q.spanHold = [] ∧ q.isMember = false then
    let e : Eqx := { num := (q.eqxNum + 1) % 2 ^ 32, causes := q.causes, start := s.now, phase := 3, sol := q.solstice.getD 0xFF }
    let s1 := s.modPart p fun v => { v with causes := 0 }
    if q.isHead then tellMembers p (.eqxReq e.num e.sol) (s1.modPart p fun v => { v with eqx := some e })
    else eqxFinish p e (recordEqx p e s1)
  else s

/-- Clear a pause holder bit (04 R126). -/
def clearHolder (p bit : Nat) (s : State) : State :=
  let q := s.part p
  if bitAt q.holders bit then
    resumeEqx p (tellHolders p (s.modPart p fun v => { v with holders := v.holders - 2 ^ bit }))
  else s

/-- Whether a pending Solstice's epoch is resident and filled here (12 R313). -/
def epochReady (q : Part) (e : Nat) : Bool :=
  decide (e = 0xFF) || (decide (q.epOther = e) && decide (q.epDrain = 0xFF) && !q.epFill)

/-- Step numbers that a pipeline holds. -/
def Part.heldSteps (q : Part) : List Nat :=
  ((q.transit.map (·.2)) ++ q.leaving ++ q.inbox ++
    (q.stages.map fun g => g.run.toList ++ g.wait.toList).flatten).map (·.step)

/-- A member's SPAN_ARRIVE (13 R333): fault set, causes, epoch, the steps it keeps. With faults it relocates. -/
def memberArrived (p : Nat) (e : Eqx) (s : State) : State :=
  let s1 := s.modPart p fun v => { v with eqx := some { e with phase := if e.faults = [] then 6 else 4 }, causes := 0 }
  let s2 := if e.faults = [] then s1 else setPs p .relocating (abandonSteps p s1)
  let q := s2.part p
  sendSpan p 0 (.arrive e.num e.faults (e.causes ||| (s.part p).causes) q.holders (epochReady q e.sol) q.heldSteps) s2

/-- Steps 3 and 4 once every stage has arrived or is faulted (04 R121), and at the head of a span every member: with
faults, the steps are abandoned and the partition waits for the relocation service; else steps 5 to 8. While the Steward is
stopped the partition waits here (01 R16). A resume Equinox of a span waits for its members only. -/
def eqxArrived (p : Nat) (s : State) : State :=
  let q := s.part p
  match q.eqx with
  | none => s
  | some e =>
    let all := q.stages.zipIdx.all fun g => g.1.faulted || e.arrived.contains g.2
    let there := !q.isHead || decide (e.spanIn.length + 1 = q.span.length)
    if (e.phase = 3 ∨ (e.phase = 2 ∧ all = true)) ∧ there = true ∧ s.mg.stwDead = false then
      let s := recordEqx p e s
      if q.isMember then memberArrived p e s
      else if e.faults = [] ∧ e.spanFault = none then eqxFinish p e s
      else
        let s1 := s.modPart p fun v => { v with eqx := some { e with phase := 4 } }
        setPs p .relocating (if e.spanFault = none then abandonSteps p s1 else abandonSpan p e s1)
    else s

/-- Relocation is over here, or on a member: the head goes on once it is over everywhere (13 R333). A member whose span is
paused is paused again. -/
def relocOver (p : Nat) (s : State) : State :=
  let q := s.part p
  match q.eqx with
  | none => s
  | some e =>
    let mine := !q.stages.any (·.faulted)
    let others := e.spanIn.all fun a => decide (a.faults = []) || e.spanOk.contains a.pos
    if e.phase = 4 ∧ mine = true ∧ others = true then
      if q.isMember then
        if e.own then tellHolders p (setPs p .paused (s.modPart p fun v => { v with eqx := none }))
        else sendSpan p 0 (.relocated e.num true) (s.modPart p fun v => { v with eqx := some { e with phase := 6, faults := [] } })
      else eqxFinish p e s
    else s

/-- Step 4 for a fault that comes after step 3 (R122): back to RELOCATING; steps 5 to 8 follow again. -/
def lateFault (p : Nat) (s : State) : State :=
  match (s.part p).eqx with
  | none => s
  | some e =>
    if e.phase = 5 ∨ e.phase = 6 then
      setPs p .relocating (abandonSteps p (s.modPart p fun v => { v with eqx := some { e with phase := 4, spanOk := [] } }))
    else s

/-- A stage is faulted (04 R124, R128): a cause in RUNNING, the fault set in EQUINOX, at once in PAUSED and DRAINING, where
step 3 records it (R125) under the next Equinox number: R123 does not say whether such a relocation counts as an Equinox (DESIGN
CHOICE, notes/assumptions/80.md). A member of a span forwards the fault to the head (13 R332). -/
def faultStage (p g : Nat) (s : State) : State :=
  let q := s.part p
  let s0 := s.modPart p fun v => v.modStage g fun x => { x with faulted := true }
  let s1 := if q.isMember then sendSpan p 0 (.fault g) s0 else s0
  let fresh : Eqx := { num := (q.eqxNum + 1) % 2 ^ 32, causes := 8, start := s.now, faults := [g], phase := 4, own := q.isMember }
  let now (t : State) : State := setPs p .relocating (abandonSteps p (recordEqx p fresh (standClocks p t)))
  match q.ps with
  | .running | .loaded => postCause p 3 s1
  | .equinox | .relocating =>
    let s2 := s1.modPart p fun v =>
      { v with eqx := v.eqx.map fun e => { e with faults := if e.faults.contains g then e.faults else e.faults ++ [g] } }
    if q.ps = .equinox then lateFault p (eqxArrived p s2) else abandonSteps p s2
  | .paused => match q.eqx with
    | none => now (s1.modPart p fun v => { v with eqx := some fresh })
    | some e =>
      -- a resume Equinox of a span is under way
      lateFault p (s1.modPart p fun v => { v with eqx := some { e with faults := if e.faults.contains g then e.faults else e.faults ++ [g] } })
  | .draining => now (s1.modPart p fun v => { v with eqx := some fresh, drainReloc := true })
  | _ => s1

/-- A member's fault at the head (13 R333): one that comes after the member's arrival joins what it reported, and after
EQX_APPLY step 4 runs again for it (04 R122). -/
def memberFault (p pos g : Nat) (s : State) : State :=
  match (s.part p).eqx with
  | none => postCause p 3 s
  | some e =>
    if e.spanIn.any fun a => a.pos = pos then
      let e1 : Eqx := { e with
        spanIn := e.spanIn.map fun a => if a.pos = pos then { a with faults := a.faults ++ [g] } else a
        spanOk := e.spanOk.filter (· ≠ pos), phase := if e.phase = 5 then 4 else e.phase }
      let s1 := s.modPart p fun v => { v with eqx := some e1 }
      if e.phase = 5 then setPs p .relocating (abandonSpan p e1 s1)
      else if e.phase = 4 then abandonSpan p e1 s1 else s1
    else s

/-- A core fault makes its stage faulted (16 R381). -/
def faultCoreStage (site : Nat) (s : State) : State :=
  match boundAt s site with
  | none => s
  | some (p, c) => match stageOfCore (s.part p) c with
    | some g => faultStage p g s
    | none => s

/-- A core enters FAULTED and its stage is faulted (16 R381). -/
def haltCore (site : Nat) (s : State) : State :=
  faultCoreStage site (s.modBlk (pgCore site) fun b => { b with st := .faulted })

/-- A core enters FAULTED with a code recorded in its header (07 R204, 16 R381). -/
def coreFault (site bit code : Nat) (data : BitVec 128) (s : State) : State :=
  haltCore site ((s.err (pgCore site) bit code (coreLoc s site) data).modCore site fun c => { c with fcode := code })

/-- The replay field of the step that a core's stage runs. -/
def coreReplay (s : State) (site : Nat) : Nat :=
  match boundAt s site with
  | none => 0
  | some (p, c) => match stageOfCore (s.part p) c with
    | none => 0
    | some g => match ((s.part p).stage g).run with
      | some t => t.replay
      | none => 0

/-- The same core faults in the same way again while it runs a replayed step: the partition ends (07 R205, 06 R168). -/
def endIfAgain (again : Bool) (site : Nat) (s0 s : State) : State :=
  match boundAt s0 site with
  | some (p, _) => if again = true ∧ 1 ≤ coreReplay s0 site then endPartition p s else s
  | none => s

/-- A page access that fails the tag check (06 R168). -/
def tagMismatch (p pg slot : Nat) (s : State) : State :=
  match siteOfLogical s p (pageCore pg) with
  | none => s
  | some site => endIfAgain (s.core site).tf site s (faultCoreStage site (tagRecord p pg slot site s))

/-- The first page of a session's chains that its own accesses may not touch. -/
def tagBadPage (s : State) (p sess : Nat) : Option Nat :=
  let q := s.pool p
  q.groupIdx.findSome? fun gi => (q.chain sess gi).pages.find? (tagBad s p sess)

/-- The drain of a partition is over when its last step has left the last stage (04 R124, R127). -/
def drainDone (p : Nat) (s : State) : State :=
  let q := s.part p
  if q.ps = .draining ∧ q.inFlight = 0 then
    let s1 := (((eqxPages q p).filter fun pg => (s.blk pg).commit.isSome)).foldl (fun t pg =>
      if (t.blk pg).st = .running ∨ pg = pgSched p then applyCommit pg t else t) s
    setPs p .loaded s1
  else s

end Sys2Proof.Machine
end

