-- ==== Sys2Proof/Machine/CmdOps.lean ====
section
/-! DEFINITION. Writes of fields whose action is a command of its own: the same judgement as any write (02 R40), then
the action. -/

namespace Sys2Proof.Machine

/-- The bring-up stage (18 R427). -/
def stageNow (s : State) : Nat := s.fld pgGlob 0 0x100 0 4

/-- The stage that decides what responds: a failed bring-up leaves what it had reached. -/
def stageReach (s : State) : Nat := if stageNow s = 15 then s.mg.reached else stageNow s

/-- A page responds to an agent: the AMP reaches it by the sideband, every other agent from the page's stage on
(02 R29). -/
def pageLive (s : State) (ag pg : Nat) : Bool :=
  match pageInfo pg with
  | some (k, _) => decide (ag = agAmp) || decide (k.fromStage ≤ stageReach s)
  | none => false

/-- Count a discarded early write in AMP_EARLY_STAT.drop_count, [31:16] (02 R30). -/
def dropEarly (s : State) : State :=
  s.setFld pgEarly 0 0x100 16 16 (satInc (s.fld pgEarly 0 0x100 16 16) 0xFFFF)

/-- A write of `v` to a register whose field acts: refused as R40 says, or the action. -/
def regCmd (ag pg off v : Nat) (f : State → State) (s : State) : State :=
  if pageLive s ag pg then
    match regWriteOf s pg off v with
    | none => s
    | some w => match w.forbidden s ag with
      | some (fd, r) => s.reject pg (w.off + fd.lo / 32 * 4) fd.cls.code r
      | none => f s
  else if ag = agHost then dropEarly s else s

/-- A write that is stored first and then acts: selectors that start a query. -/
def regStore (ag pg off v : Nat) (f : State → State) (s : State) : State :=
  regCmd ag pg off v (fun t => match regWriteOf t pg off v with
    | some w => f (w.store t)
    | none => t) s

def running (s : State) (pg : Nat) : Bool := (s.blk pg).st = .running

end Sys2Proof.Machine
end

