-- ==== Sys2Proof/Machine/SubOps.lean ====
section
/-! DEFINITION. Submission entries (03 R70-R73, 05 R149): their fields, the checks in the order of the table, what an
accepted one does, and the order in which the entries of a fetch are processed (R66). -/

namespace Sys2Proof.Machine

/-- Field of `n` bytes at `o`; bytes an entry lacks read as 0. -/
def eNum (e : List Byte) (o n : Nat) : Nat := leNat ((e.drop o).take n)
def eOp (e : List Byte) : Nat := eNum e 0 1
def eFlags (e : List Byte) : Nat := eNum e 2 2 % 32
def eTag (e : List Byte) : Nat := eNum e 4 4
def eSess (e : List Byte) : Nat := eNum e 8 2
def eAd (e : List Byte) : Nat := eNum e 10 2
def eRing (e : List Byte) : Nat := eNum e 96 4 % 2 ^ 20
def eDesc (e : List Byte) : BitVec 256 := BitVec.ofNat 256 (eNum e 64 32)
def eTenant (e : List Byte) : Nat := eNum e 12 2
def ePart (e : List Byte) : Nat := eNum e 14 1 % 16
def ePolicy (e : List Byte) : Nat := bitsOf (eNum e 15 1) 0 2
def ePrio (e : List Byte) : Nat := bitsOf (eNum e 15 1) 2 2
def ePin (e : List Byte) : Bool := bitAt (eNum e 15 1) 4
def eHandle (e : List Byte) : Nat := eNum e 24 8
def eBuf (e : List Byte) : Nat := eNum e 32 8

def opGenerate : Nat := 1
def opCancel : Nat := 2
def opOpen : Nat := 3
def opClose : Nat := 4
def opSpill : Nat := 5
def opConfig : Nat := 6
def opRegister : Nat := 7
def opRelease : Nat := 8
def opRollback : Nat := 9

/-- Opcodes that create a request. -/
def reqOp (op : Nat) : Bool := op = 1 || op = 7 || op = 9

/-- Tokens that a submission brings: token_count, or draft_count of a ROLLBACK. -/
def eCount (e : List Byte) : Nat := if eOp e = opRollback then eNum e 16 4 else eNum e 12 4
/-- The tokens lie in a token buffer (more than 7). -/
def needsBuf (e : List Byte) : Bool := reqOp (eOp e) && decide (7 < eCount e)
def eInline (e : List Byte) : List W32 := (List.range (eCount e)).map fun i => BitVec.ofNat 32 (eNum e (100 + 4 * i) 4)

def sessOpen (s : State) (i : Nat) : Bool :=
  decide (i < 16384) && decide ((s.sess i).st ≠ .closed) && !(s.sess i).closing

def tenantOn (s : State) (t : Nat) : Bool := decide (t < 4096) && (s.tenant t).enable

/-- A newest version in an adapter slot (12 R316). -/
def newestVer (s : State) (p slot : Nat) : Option Nat :=
  (s.we.vers.find? fun v => decide (v.1 / 256 = p * 1024 + slot) && decide (v.2.st = .newest)).map fun v => v.1 % 256

/-- The resident versions of a slot (12 R316). -/
def versOf (s : State) (p slot : Nat) : List (Nat × AdVer) :=
  s.we.vers.filter fun v => decide (v.1 / 256 = p * 1024 + slot) && decide (v.2.st ≠ .gone)

/-- A newest version becomes old; it is freed where nothing refers to it. -/
def makeOld (p slot ver : Nat) (s : State) : State :=
  sweepVer p slot ver { s with we := { s.we with vers := SMap.mod s.we.vers (verKey p slot ver) fun v => { v with st := .old } } }

/-- The version of those given that was loaded first. -/
def firstLoaded (l : List (Nat × AdVer)) : Option (Nat × AdVer) := l.foldl (fun a v => match a with
  | none => some v
  | some w => if v.2.ord < w.2.ord then some v else some w) none

/-- The slot's version whose load completed first becomes newest, at an admission decision (12 R317). -/
def adapterNewest (p slot : Nat) (s : State) : State :=
  match firstLoaded ((versOf s p slot).filter fun v => v.2.st = .loaded) with
  | none => s
  | some v =>
    let s1 := match newestVer s p slot with
      | some n => makeOld p slot n s
      | none => s
    recAdapter p slot (v.1 % 256) 1 { s1 with we := { s1.we with vers := SMap.mod s1.we.vers v.1 fun x => { x with st := .newest } } }

/-- Every version of a partition that has been loaded becomes newest in its turn. -/
def promoteAll (p : Nat) (s : State) : State :=
  (s.we.vers.filter fun v => decide (v.2.st = .loaded) && decide (v.1 / 256 / 1024 = p)).foldl (fun t v => adapterNewest p (v.1 / 256 % 1024) t) s

def liveHandles (s : State) : Nat := (s.serv.handles.filter fun h => h.2.live).length

/-- Codes of a check list, in order: the first whose condition holds, else 0. -/
def firstCode : List (Nat × Bool) → Nat
  | [] => 0
  | (c, b) :: r => if b then c else firstCode r

/-- R73's checks up to the alignment of the token buffer. -/
def preErr (s : State) (g : Ring) (e : List Byte) : Nat :=
  let op := eOp e
  let i := eSess e
  let v := s.sess i
  let ten := if op = opOpen then eTenant e else v.tenant
  let cfg : Bool := op = opOpen || op = opConfig
  let p := if cfg then ePart e else v.part
  firstCode [
    (0x4001, op = 0 || 9 < op),
    (0x4002, 16383 < i || (if op = opOpen then decide (v.st ≠ .closed) else !sessOpen s i)),
    (0x4003, (decide (dRestrict g.desc ≠ 0xFFFF) && decide (ten ≠ dRestrict g.desc)) || !tenantOn s ten),
    (0x400F, (cfg || reqOp op) && (partLost s p || (cfg && decide ((s.part p).draftOf ≠ 0xFF)))),
    (0x4002, op = opRelease && match handleLive s (eHandle e) with
      | some h => decide (h.tenant ≠ v.tenant) || decide (hTenant (eHandle e) ≠ v.tenant)
      | none => true),
    (0x4004, reqOp op && decide (descErr s (eRing e) (eDesc e) true = 1)),
    (0x4005, reqOp op && decide (descErr s (eRing e) (eDesc e) true ≠ 0)),
    (0x4006, (reqOp op && decide (65536 ≤ s.serv.reqs.length)) ||
      (op = opOpen && decide (16384 ≤ (s.serv.sess.filter fun x => x.2.st ≠ .closed).length))),
    (0x4007, needsBuf e && decide (eBuf e % 4 ≠ 0))]

/-- The checks that follow the read of the token buffer; `n` tokens. -/
def postErr (s : State) (e : List Byte) : Nat :=
  let op := eOp e
  let v := s.sess (eSess e)
  let proj := projected s (eSess e)
  let n := eCount e
  let gen : Bool := op = opGenerate || op = opRegister
  let len := eNum e 12 4
  firstCode [
    (0x4008, gen && decide (maxCtx s v.part < proj + n)),
    (0x4009, op = opRegister && (decide (dFmt (eDesc e) = 1) || decide (262144 ≤ liveHandles s))),
    (0x400A, gen && decide (n = 0) && decide (proj = 0)),
    (0x400B, reqOp op && decide (eAd e ≠ 0xFFFF) && (decide (1023 < eAd e) || (newestVer s v.part (eAd e)).isNone)),
    (0x400D, op = opConfig && (decide (eTenant e ≠ v.tenant) ||
      (decide (ePart e ≠ v.part) && decide (v.st ≠ .released)))),
    (0x4011, (op = opOpen || op = opConfig) && decide (ePolicy e = 3)),
    (0x4010, op = opRollback && (decide (len = 0) || decide (proj < len) || decide (15 < n))),
    (0x4008, op = opRollback && decide (maxCtx s v.part < len + n))]

/-- SUBMIT record (17 R422): ring, index, opcode, tag, session, code. -/
def recSubmit (r : Nat) (g : Ring) (e : List Byte) (code : Nat) (s : State) : State :=
  frWrite 1 0xFF (leBytes 4 (ringId r) ++ leBytes 3 g.cons ++ leBytes 1 (eOp e) ++ leBytes 4 (eTag e) ++ leBytes 2 (eSess e) ++
    leBytes 2 code) s

/-- A rejection (R73): counted, ERR_STAT.reject, event to the aux ring alone (17 R413). -/
def rejectSub (r : Nat) (g : Ring) (e : List Byte) (code : Nat) (s : State) : State :=
  let only := if dAuxValid g.desc then some (dAux g.desc) else none
  (s.bump pgServ 0 0x184).err pgServ 4 code (ringId r)
    (pack [(0, eTag e), (4, ringId r), (8, eOp e), (12, eSess e)]) false (some only)

/-- The lowest free request number (notes/assumptions/20.md). -/
def freeReq (s : State) : Nat := (firstFree (fun i => (s.req i).isSome) 65536 0).getD 0

/-- Accept a request: QUEUED, its output ring open (R85). -/
def acceptReq (g : Ring) (e : List Byte) (toks : List W32) (s : State) : State :=
  let op := eOp e
  let rid := freeReq s
  let rb : Bool := op = opRollback
  let dl := eNum e 20 4
  let sd := eNum e 48 8
  let r : Req := {
    st := .queued
    kind := if op = opRegister then .register else if rb then .rollback else .generate
    session := eSess e
    ring := eRing e
    readAt := g.last
    toks := toks
    maxNew := if op = opGenerate then eNum e 16 4 else 0
    deadline := if rb || dl = 0 then none else some (g.last + dl * us)
    handle := if rb then 0 else eHandle e
    adapter := eAd e
    flags := if rb then 0 else eFlags e
    temp := eNum e 40 2
    topP := eNum e 42 2
    topK := eNum e 44 2
    seed := if sd = 0 then (Config.fresh s.free).toNat else sd
    stop0 := if rb then 0xFFFFFFFF else eNum e 56 4
    stop1 := if rb then 0xFFFFFFFF else eNum e 60 4
    seq := s.serv.seq
    rlen := if rb then eNum e 12 4 else 0
    rk := if rb then eNum e 16 4 else 0 }
  let s1 := if sd = 0 then s.draw else s
  let s2 := s1.modServ fun v => { v with reqs := SMap.put v.reqs rid r, seq := v.seq + 1 }
  openRing (eRing e) (eDesc e) (some rid) g.last s2

/-- The image that a session records (R81). -/
def imageOf (s : State) (p : Nat) : Nat × Nat := ((s.part p).shape, (s.pool p).fmt)

def openSess (e : List Byte) (s : State) : State :=
  let im := imageOf s (ePart e)
  s.setSess (eSess e) {
    st := .warm, tenant := eTenant e, part := ePart e, policy := ePolicy e, prio := ePrio e, pin := ePin e
    shape := im.1, fmt := im.2, idleAt := s.now }

/-- SESSION_CONFIG: the fields of SESSION_OPEN; a change of partition records the image loaded there. -/
def configSess (e : List Byte) (s : State) : State :=
  let i := eSess e
  let v := s.sess i
  let s0 := if ePart e = v.part then s else freeDraft i s
  let im := imageOf s (ePart e)
  let s1 := s0.modSess i fun w =>
    let w1 := { w with part := ePart e, policy := ePolicy e, prio := ePrio e, pin := ePin e }
    if ePart e = v.part then w1 else { w1 with shape := im.1, fmt := im.2, lastAd := none, adGone := false }
  match v.lastAd with
  | some (sl, ver) => sweepVer v.part sl ver s1
  | none => s1

/-- SESSION_CLOSE: live requests end CANCELLED; the rest once their last step has left (R81). -/
def closeReq (i : Nat) (s : State) : State :=
  let s1 := cancelAll i cCancelled false s
  let s2 := s1.modSess i fun v => { v with closing := true }
  if (reqsOf s2 i).isEmpty then closeSess i s2 else s2

/-- SESSION_SPILL (R81): at once in WARM, after the request in ACTIVE, ignored elsewhere. -/
def spillReq (i : Nat) (s : State) : State :=
  match (s.sess i).st with
  | .warm => spillStart i s
  | .active => s.modSess i fun v => { v with spillPend := true }
  | _ => s

/-- What an accepted submission does. -/
def acceptSub (g : Ring) (e : List Byte) (toks : List W32) (s : State) : State :=
  let op := eOp e
  let i := eSess e
  if reqOp op then acceptReq g e toks s
  else if op = opCancel then cancelAll i cCancelled false s
  else if op = opOpen then openSess e s
  else if op = opClose then closeReq i s
  else if op = opSpill then spillReq i s
  else if op = opConfig then configSess e s
  else releaseHandle (hIndex (eHandle e)) s

/-- One entry is consumed. -/
def consumeOne (r : Nat) (s : State) : State :=
  ringCount r 1 (s.modRing r fun g => { g with cons := (g.cons + 1) % idx24 })

/-- Judge and act on an entry whose tokens are at hand; `ok` false where the token-buffer read failed. -/
def finishSub (r : Nat) (e : List Byte) (toks : List W32) (ok : Bool) (s : State) : State :=
  match s.ring r with
  | none => s
  | some g =>
    let pre := preErr s g e
    let code := if pre ≠ 0 then pre else if needsBuf e && !ok then 0x4007 else postErr s e
    let s1 := consumeOne r (recSubmit r g e code s)
    if code = 0 then acceptSub g e toks s1
    else
      let s2 := if pre = 0 && needsBuf e && !ok then s1.err pgServ 0 0x4007 (ringId r) (pack [(0, eTag e)]) true else s1
      rejectSub r g e code s2

/-- Process the entries of a fetch in index order; one that needs its token buffer waits for the read, and those
behind it with it (R66). The batch ends with the last entry (R64); a ring that has closed meanwhile is then gone. -/
def processSubs (r : Nat) : List (List Byte) → State → State
  | [], s =>
    if ((s.ring r).map (·.closed)).getD false then s.delRing r
    else endBatch r false (s.modRing r fun g => { g with held := [], fetch := 0 })
  | e :: rest, s =>
    match s.ring r with
    | none => s
    | some g =>
      if needsBuf e && decide (preErr s g e = 0) then
        let s1 := s.modRing r fun x => { x with held := e :: rest }
        if dLoc g.desc = 1 then s1 else s1.emit (.hostRead (eBuf e) (4 * eCount e))
      else processSubs r rest (finishSub r e (eInline e) true s)

/-- A ring from which entries may be taken: an open submission ring with entries outstanding, none being read; a stopped
Steward takes none (01 R16). -/
def subReady (s : State) (r : Nat) : Bool :=
  match s.ring r with
  | some g => decide (dKind g.desc = 0) && !g.closing && !g.closed && decide (0 < g.used) && decide (g.fetch = 0) && g.held.isEmpty &&
      running s pgServ && !s.mg.stwDead
  | none => false

/-- One submission as a fetch of its own, with its opcode. -/
def submitOne (op r : Nat) (e : List Byte) (s : State) : State :=
  when (subReady s r) (fun t => processSubs r [leBytes 1 op ++ (e.drop 1).take 127]
    (t.modRing r fun g => { g with fetch := 1, last := t.now })) s

end Sys2Proof.Machine
end

