-- ==== Sys2Proof/Machine/AdmOps.lean ====
section
/-! DEFINITION. Admission (03 R86, R464, 12 R318), restores (11 R294), and the dropping of sessions when the page pool
is exhausted (06 R175, R176). -/

namespace Sys2Proof.Machine

/-! ### Pool exhaustion (06 R175) -/

/-- The WARM session to drop next: lowest priority, longest idle, lowest number. -/
def warmWorse (s : State) (a b : Nat) : Bool :=
  let x := s.sess a
  let y := s.sess b
  y.prio < x.prio || (x.prio = y.prio && (x.idleAt < y.idleAt || (x.idleAt = y.idleAt && a < b)))

def pickBy (better : Nat → Nat → Bool) (l : List Nat) : Option Nat :=
  l.foldl (fun a i => match a with
    | none => some i
    | some b => if better i b then some i else some b) none

/-- `gi` the short group, none where a member of a span has reported a shortage, which names no group (13 R332). -/
def warmPick (s : State) (p : Nat) (gi : Option Nat) : Option Nat :=
  let ws := (s.serv.sess.filter fun e => decide (e.2.st = .warm) && decide (e.2.part = p) && holdsAny s p e.1).map (·.1)
  if ws.any fun i => gi.all fun g => holdsIn (s.pool p) i g then pickBy (warmWorse s) ws else none

/-- The ACTIVE session to drop: lowest priority, then the request admitted last; not the one waiting. -/
def activeWorse (s : State) (a b : Nat) : Bool :=
  let pr (rid : Nat) : Nat × Nat := match s.req rid with
    | some r => ((s.sess r.session).prio, r.adm)
    | none => (0, 0)
  (pr b).1 < (pr a).1 || ((pr a).1 = (pr b).1 && (pr b).2 < (pr a).2)

def activePick (s : State) (p waiting : Nat) : Option Nat :=
  pickBy (activeWorse s) ((s.serv.reqs.filter fun e => decide (e.1 ≠ waiting) && e.2.slot.isSome &&
    decide ((s.sess e.2.session).part = p) && decide ((s.sess e.2.session).st = .active) &&
    holdsAny s p e.2.session).map (·.1))

/-- The pages of an ACTIVE session are released; its request recomputes from KV length 0 (R175 item 2). -/
def dropActive (rid : Nat) (s : State) : State :=
  match s.req rid with
  | none => s
  | some r =>
    let p := (s.sess r.session).part
    let s1 := freeChains p r.session s
    let s2 := s1.modSess r.session fun v => { v with kvLen := 0, evicted := true, recompTo := Nat.max v.recompTo v.kvLen }
    backToPrefill rid ((s2.modReq rid fun q => { q with dropPend := false }))

/-- A session chosen for dropping is dropped when its last step in flight has left or is abandoned (R175). -/
def dropIfPending (rid : Nat) (s : State) : State :=
  match s.req rid with
  | some r => if r.dropPend ∧ r.inflight = 0 ∧ r.st ≠ .ending then kvBump (dropActive rid s) (s.sess r.session).part 0x190 else s
  | none => s

/-- What one more drop can do: a session dropped now, one that will be when its steps have left, or none. -/
inductive Drop where
  | done (s : State)
  | later (s : State)
  | none_
  deriving DecidableEq, Repr

def dropOne (p : Nat) (gi : Option Nat) (waiting : Nat) (s : State) : Drop :=
  match warmPick s p gi with
  | some i => .done (kvBump (releaseSess i true s) p 0x190)
  | none =>
    match s.serv.reqs.find? fun e => e.2.dropPend && decide ((s.sess e.2.session).part = p) with
    | some _ => .later s
    | none => match activePick s p waiting with
      | none => .none_
      | some rid => match s.req rid with
        | none => .none_
        | some r =>
          if r.inflight = 0 then .done (kvBump (dropActive rid s) p 0x190)
          else .later (s.modReq rid fun q => { q with dropPend := true })

/-- Room for positions below `to` on every chain of a session, dropping sessions until the pages can be placed. -/
inductive Room where
  | ok (s : State)
  | wait (s : State)
  | full (s : State)
  deriving DecidableEq, Repr

def makeRoom (p sess slot waiting upto : Nat) : (fuel : Nat) → State → Room
  | 0, s => .full s
  | f + 1, s =>
    let v := s.sess sess
    match growAll p sess slot v.tenant (v.group.getD 0) upto (s.pool p).groupIdx s with
    | .ok t => .ok t
    | .error gi => match dropOne p (some gi) waiting s with
      | .done t => makeRoom p sess slot waiting upto f t
      | .later t => .wait t
      | .none_ => .full s

/-- The waiting request ends as at the maximum context (R176). -/
def poolFullEnd (p rid : Nat) (s : State) : State :=
  match s.req rid with
  | none => s
  | some r => (toEnd rid (s.modReq rid fun q => q.setCond cCtx)).err pgKv 3 0x4043 (r.slot.getD 0 + p * 2 ^ 32)
      (pack [(0, p), (2, r.slot.getD 0)])

/-! ### Token log (R83, R86 step 2) -/

/-- Truncate the token log to `n` tokens; extents beyond are freed. -/
def truncLog (i n : Nat) (s : State) : State :=
  let old := (s.sess i).log.length
  freeExt (.log i) (logExt old - logExt (Nat.min n old)) (s.modSess i fun v => { v with log := v.log.take n })

/-- The KV length falls to `n`, a spilled copy's with it; pages beyond leave their chains (R84). -/
def cutKv (i n : Nat) (s : State) : State :=
  let v := s.sess i
  let n := mergedCut (s.pool v.part) i n
  if n < v.kvLen then truncSession v.part i n (s.modSess i fun w => { w with
    kvLen := n, dkv := Nat.min w.dkv n, obj := w.obj.map fun o => { o with kvLen := Nat.min o.kvLen n } }) else s

def keyThere (s : State) (tenant : Nat) : Bool := (SMap.get s.mem.tenantKeys {} tenant).key.isSome

/-! ### Admission -/

/-- Step slots of a partition that are taken, draft slots included. -/
def slotTaken (s : State) (p sl : Nat) : Bool := (reqOfSlot s p sl).isSome
def freeSlot (s : State) (p : Nat) : Option Nat := firstFree (slotTaken s p) 4096 0

/-- The adapter version a request binds (12 R318): none where it must end ADAPTER_GONE. A slot that was emptied after the submission
has none to bind: the request ends so too (notes/assumptions/83.md). -/
def bindAdapter (s : State) (r : Req) (v : Session) : Option (Nat × Nat) :=
  if r.adapter = 0xFFFF then some (0xFFFF, 0)
  else match v.lastAd.filter fun a => v.pin && decide (a.1 = r.adapter) with
    | some a => if v.adGone then none else some a
    | none => (newestVer s v.part r.adapter).map fun n => (r.adapter, n)

/-- The holders of a session's pages learn the step slot that uses them (06 R161). -/
def listAll (p sess slot : Nat) (s : State) : State :=
  (s.pool p).groupIdx.foldl (fun t gi => ((s.pool p).chain sess gi).pages.foldl (fun u pg => listGrant p slot gi pg u) t) s

/-- Steps 4 and 5 of R86. -/
def admitTail (rid : Nat) (s : State) : State :=
  match s.req rid with
  | none => s
  | some r =>
    if r.st = .ending then s
    else
      let v := s.sess r.session
      let s1 := if v.kvLen = 0 then prefixLookup rid r.session r s
        else if r.handle ≠ 0 then s.modReq rid fun q => q.setCond cIgnored else s
      let s1 := if v.kvLen = 0 then s1 else listAll v.part r.session (r.slot.getD 0) s1
      let v1 := s1.sess r.session
      let recomp := decide (v1.kvLen < Nat.min v1.recompTo r.newAt) && v1.evicted
      let s2 := if recomp then s1.modReq rid fun q => q.setCond cRecompute else s1
      let s3 := s2.modSess r.session fun w => { w with evicted := false, recompTo := 0 }
      let fend := if r.kind = .rollback then r.rlen - 1 else v1.log.length - 1
      -- what the request computes itself starts here (R96)
      let s4 := s3.modReq rid fun q => { q with fpos := v1.kvLen, fend := fend, sharedTo := v1.kvLen }
      if fend ≤ v1.kvLen then
        if r.kind = .register then toEnd rid (registerPrefix rid s4)
        else s4.modReq rid fun q => { q with st := .decode }
      else enterPrefill rid s4

/-- Allocate a restored page at the end of a chain's page list, dropping sessions where it must (11 R294). -/
def restorePage (p sess slot rid : Nat) (rc : SpillRec) : (fuel : Nat) → State → Option State
  | 0, _ => none
  | f + 1, s =>
    let v := s.sess sess
    match allocPage p rc.chain slot v.tenant (v.group.getD 0) rc.firstPos rc.idx none s with
    | some (pg, t) => some (t.modPool p fun q =>
        let c := q.chain sess rc.chain
        { (q.setChain sess rc.chain { c with pages := c.pages ++ [pg] }) with
          pages := SMap.mod q.pages pg fun g => { g with fill := rc.fill, aged := rc.aged, merged := rc.merged, also := rc.also } })
    | none => match dropOne p (some rc.chain) rid s with
      | .done t => restorePage p sess slot rid rc f t
      | _ => none

/-- Every page of the object is allocated, as far as frames go; the count that were. -/
def restoreAlloc (p sess slot rid : Nat) : List SpillRec → Nat → State → State × Nat
  | [], n, s => (s, n)
  | rc :: r, n, s =>
    match restorePage p sess slot rid rc (s.serv.sess.length + s.serv.reqs.length + 1) s with
    | some t => restoreAlloc p sess slot rid r (n + 1) t
    | none => (s, n)

/-- Step 3 of R86: RESTORING; the pages are granted (11 R294). -/
def startRestore (rid : Nat) (s : State) : State :=
  match s.req rid with
  | none => s
  | some r =>
    let v := s.sess r.session
    match v.obj with
    | none => s
    | some o =>
      let p := v.part
      let s1 := freeChains p r.session s
      let s2 := s1.modPool p fun q => o.chains.foldl (fun q c =>
        q.setChain r.session c.1 { len := c.2.1, removed := c.2.2, pages := [], wr := c.2.1 }) q
      let s3 := (restoreAlloc p r.session (r.slot.getD 0) rid o.recs 0 s2).1
      (t2Read o s3).modReq rid fun q => { q with st := .restoring, rst := true }

/-- Unpack a page record into its page (06 R156, 11 R290); the trailer as stored, or one built anew. -/
def unpackRec (p pg : Nat) (rc : SpillRec) (s : State) : State :=
  let q := s.pool p
  let n := rc.fill
  let fmt := q.fmt
  let s1 := ((slotParts fmt n).foldl (fun (a : State × List Byte) e =>
    (putPageBytes p pg e.1 (a.2.take e.2) a.1, a.2.drop e.2)) (s, rc.bytes)).1
  let body := (n * slotBytes fmt + 255) / 256 * 256
  if rc.trailer then putPageBytes p pg 0x3F00 (rc.bytes.drop body) s1
  else
    let g := (SMap.find q.pages pg).getD { st := .priv }
    putPageBytes p pg 0x3F00 (List.replicate 240 0#8 ++ leBytes 4 rc.firstPos ++ leBytes 1 n ++ leBytes 1 fmt ++
      leBytes 2 (g.layer + g.head * 256) ++ leBytes 4 pg ++ leBytes 4 0) s1

/-- Records with the page that each was granted, none where no frame was found. -/
def recPages (q : KvPool) (sess : Nat) (o : SpillObj) : List (SpillRec × Option Nat) :=
  o.recs.map fun rc =>
    let before := (o.recs.filter fun x => decide (x.chain = rc.chain) && decide (x.idx < rc.idx)).length
    (rc, (q.chain sess rc.chain).pages[before]?)

/-- What the restore reads of a spill object (11 R285, R294, R295): the directory and each record in T1, where a record that fails,
or that the command says fails, is reported by its controller; in T2 the generation in the descriptor decides for all. The records
with what was read of each, none where it failed. -/
def objReads (i : Nat) (o : SpillObj) (lost : List Nat) (s : State) : List (Option SpillRec) × State :=
  if o.tier ≠ 1 then
    let k := keySlot s 1 (s.sess i).tenant
    let code := if k.key = none then 0x7020 else if k.gen ≠ o.gen then 0x7021 else 0
    if code = 0 then ((o.recs.zipIdx).map fun e => if lost.contains e.2 then none else some e.1, s)
    else (o.recs.map fun _ => none, emcErr ((o.t2.map (t2Addr s)).headD 0 % 2048) 3 code s)
  else
    let x := spillAcc s i
    let h := extRead x (.spill i) 0 o.head.length s
    let r := (o.recs.zipIdx).foldl (fun (a : List (Option SpillRec) × Nat × State) e =>
      let n := e.1.bytes.length
      let at_ := a.2.1
      if lost.contains e.2 then
        (a.1 ++ [none], at_ + n, emcErr ((extAddr a.2.2 (.spill i) at_).getD (poolBase s)) 3 0x2010 a.2.2)
      else match extRead x (.spill i) at_ n a.2.2 with
        | (.error _, t) => (a.1 ++ [none], at_ + n, t)
        | (.ok b, t) => (a.1 ++ [some (if b.length = n then { e.1 with bytes := b } else e.1)], at_ + n, t)) ([], o.head.length, h.2)
    (r.1, r.2.2)

/-- The end of a restore (11 R294): pages filled, lost ones cut the KV length, the object freed. -/
def finishRestore (rid : Nat) (lost : List Nat) (s : State) : State :=
  match s.req rid with
  | none => s
  | some r =>
    let v := s.sess r.session
    let s0 := s.modReq rid fun q => { q with rst := false, st := if q.st = .ending then .ending else .queued }
    match v.obj with
    | none => admitTail rid s0
    | some o =>
      let p := v.part
      let got := objReads r.session o lost s0
      let s0 := got.2
      let rp := ((recPages (s.pool p) r.session o).zip got.1).map fun e => (e.2.getD e.1.1, e.1.2, e.2.isSome)
      let barred := rp.findSome? fun e => e.2.1.filter (tagBad s p r.session)
      let s0 := match barred with
        | some pg => tagMismatch p pg (r.slot.getD 0) s0
        | none => s0
      let bad (e : SpillRec × Option Nat × Bool) : Bool := !e.2.2 || e.2.1.isNone || e.2.1.any (tagBad s p r.session)
      let cut := mergedCut (s.pool p) r.session ((rp.filter bad).foldl (fun n e => Nat.min n e.1.firstPos) o.kvLen)
      let s1 := (rp.filter fun e => !bad e).foldl (fun t e => match e.2.1 with
        | some pg => unpackRec p pg e.1 t
        | none => t) s0
      let s2 := s1.modSess r.session fun w => { w with kvLen := cut, evicted := w.evicted || decide (cut < o.kvLen),
                                                         recompTo := if cut < o.kvLen then Nat.max w.recompTo o.kvLen else w.recompTo }
      let s3 := (truncSession p r.session cut (dropObj r.session s2)).bump pgMap 0 0x184
      admitTail rid s3

/-- ADMIT record (17 R422); `aux` keeps the step slot and whether the temperature is 0, which a replay needs (R424) and R422 does
not list (notes/assumptions/12.md). -/
def recAdmit (rid : Nat) (s : State) : State :=
  match s.req rid with
  | none => s
  | some r =>
    let v := s.sess r.session
    let dl := match r.deadline with
      | some d => (d - r.readAt) / us
      | none => 0
    frWrite 2 v.part (leBytes 2 rid ++ leBytes 2 r.session ++ leBytes 2 v.tenant ++
      leBytes 1 (r.epoch.getD (s.part v.part).epCur) ++ leBytes 2 r.adapter ++ leBytes 1 r.ver ++ leBytes 2 r.flags ++
      leBytes 4 r.toks.length ++ leBytes 4 v.kvLen ++ leBytes 8 r.seed ++ leBytes 4 dl) s
      (r.slot.getD 0 + if r.temp % 2 ^ 15 = 0 then 4096 else 0)

/-- R464: the request no longer fits the log. -/
def recheck (s : State) (r : Req) : Option Bool :=
  let v := s.sess r.session
  let n := v.log.length
  let top := maxCtx s v.part
  if top < n + r.toks.length then some true
  else if (r.kind = .rollback ∧ n < r.rlen) ∨ (n = 0 ∧ r.toks = []) then some false
  else none

/-- R150: the log is truncated to L, the acknowledgement written. -/
def rollbackTrunc (rid : Nat) (r : Req) (s : State) : State :=
  let gone := (s.sess r.session).log.length - r.rlen
  let s1 := cutKv r.session (r.rlen - 1) (truncLog r.session r.rlen s)
  let s2 := pushEntry r.ring (tokenEntry gone r.rlen (flRollback + if r.switched then flSwitched else 0) none s1) s1
  (endBatch r.ring false s2).modReq rid fun q => { q with switched := false }

/-- The log is read (R86 step 2): each data unit counts at its controller up to the one with a bad word, which reports it (11 R285).
The slot is the one the log was written under: a clear closes the session (11 R289). -/
def logReads (i : Nat) (bad : Option BadWord) (s : State) : State :=
  let n := 4 * (s.sess i).log.length
  let stop := match bad with
    | some w => Nat.min n (4 * w.word / 256 * 256)
    | none => n
  let s1 := (List.range ((stop + 255) / 256)).foldl (fun t u => match extAddr t (.log i) (256 * u) with
    | some a => t.bump (t1Page a) 0 0x18C
    | none => t) s
  match bad with
  | some w => if 4 * w.word < n then
      emcErr ((extAddr s (.log i) (4 * w.word)).getD (poolBase s)) 2 (if w.isMeta then 0x2011 else 0x2010) s1 else s1
  | none => s1

/-- Step 2 of R86 from the append on, then step 3 or 4. `badWord` is a log word that could not be corrected. -/
def admitLog (rid : Nat) (badWord : Option BadWord) (s : State) : State :=
  match s.req rid with
  | none => s
  | some r =>
    let i := r.session
    let s1 := if r.kind = .rollback then rollbackTrunc rid r s else s
    let n := (s1.sess i).log.length
    -- the ring closed at a failed acknowledgement: the request ends CANCELLED (R463)
    if (s1.req rid).any fun q => q.st = .ending then s1
    else if r.kind = .rollback ∧ r.rk = 0 then toEnd rid s1
    else
      let lr := logRoom i r.toks.length s1
      if lr.2 = false then toEnd rid (lr.1.modReq rid fun q => q.setCond cCtx)
      else
        let lw := logWrite i n r.toks lr.1
        if lw.1 = false then
        -- the write under an empty key slot is discarded, the read returns nothing (11 R288)
        toEnding rid cDataLoss false (freeExt (.log i) (logExt (n + r.toks.length) - logExt n) lw.2)
      else
        let s2 := lw.2.modSess i fun v => { v with log := v.log ++ r.toks }
        let s3 := (logReads i badWord s2).modReq rid fun q => { q with newAt := n }
        match badWord with
        | some w =>
          let k := w.word
          if k < n + r.toks.length then
            -- the last token left is the pending one: its KV is not held (R84)
            toEnding rid cDataLoss false (cutKv i (k - 1) (truncLog i k
              (s3.err pgServ 2 (if w.isMeta then 0x2011 else 0x2010) i (pack [(0, i), (4, k)]) true)))
          else if (s3.sess i).obj.isSome then startRestore rid s3 else admitTail rid s3
        | none => if (s3.sess i).obj.isSome then startRestore rid s3 else admitTail rid s3

/-- Step 1 of R86: bindings, step slots, the session to ACTIVE with what its state asks for (R81). -/
def admitBind (rid slot : Nat) (r : Req) (s : State) : State :=
  let i := r.session
  let v := s.sess i
  let p := v.part
  let ad := bindAdapter s r v
  let d := s.fld pgAcc p 0x104 0 4
  let spec := bitAt r.flags 4 && decide (s.fld pgAcc p 0x104 4 1 = 1) && decide ((s.part d).draftOf = p)
  let sw := match v.lastAd, ad with
    | some a, some b => a ≠ b
    | _, _ => false
  let s1 := s.modReq rid fun q => { q with
    slot := some slot
    adm := s.serv.adm
    epoch := if bitAt r.flags 1 then some (s.part p).epCur else none
    ver := (ad.map (·.2)).getD 0
    switched := sw
    dpart := d
    dslot := if spec then freeSlot s d else none }
  -- draft KV that this draft's pool does not hold is absent (05 R136)
  let s1 := if spec then s1.modSess i fun w => { w with dkv := heldLen (s.pool d) i w.dkv } else s1
  let s2 := (s1.modServ fun t => { t with adm := t.adm + 1 }).bump pgServ 0 0x180
  let s3 := if r.kind = .rollback then s2.bump pgAcc p 0x190 else s2
  -- SPILLING: abandoned; a move to T2 is abandoned, the copy in T1 stays (R81, 11 R296)
  let s4 := match v.st, v.obj with
    | .spilling, some _ => if holdsAny s p i then abandonSpill i s3 else s3
    | .t1, some o => if o.moving then
        (giveT2 o.extents s3).modSess i fun w => { w with obj := some { o with moving := false, t2 := [] } } else s3
    | _, _ => s3
  let s5 := s4.modSess i fun w => { w with
    st := .active, spillPend := false, lastAd := ad, adGone := false }
  let s6 := match v.lastAd with
    | some (sl, ver) => sweepVer p sl ver s5
    | none => s5
  -- a different image: the copy is freed unread, the history recomputed (R81)
  let im := imageOf s p
  let s7 := if (v.shape, v.fmt) = im then s6
    else (freeChains p i (dropObj i s6)).modSess i fun w => { w with
      kvLen := 0, dkv := 0, evicted := true, recompTo := w.log.length, shape := im.1, fmt := im.2 }
  if ad = none then
    (toEnding rid cGone false s7).err pgEpoch 2 0x4053 (p + r.adapter % 1024 * 2 ^ 16) (pack [(0, rid), (2, i)])
  else s7

/-- The next request of its session, in the order of acceptance (R82). -/
def isNext (s : State) (rid : Nat) (r : Req) : Bool :=
  (reqsOf s r.session).all fun e => decide (e.1 = rid) || decide (r.seq < e.2.seq)

/-- ADMISSION (R86); none by a stopped Steward (01 R16). -/
def admitReq (rid : Nat) (badWord : Option BadWord) (s : State) : State :=
  match s.req rid with
  | none => s
  | some r =>
    let p := (s.sess r.session).part
    if r.st = .queued ∧ r.slot = none ∧ isNext s rid r = true ∧ running s pgServ = true ∧ s.mg.stwDead = false then
      match freeSlot s p with
      | none => s
      | some slot =>
        let s1 := admitBind rid slot r (promoteAll p s)
        match s1.req rid with
        | none => s1
        | some r1 =>
          if r1.st = .ending then recAdmit rid s1
          else match recheck s1 r1 with
            | some long => recAdmit rid (toEnd rid (if long then s1.modReq rid fun q => q.setCond cCtx else s1))
            | none => admitLog rid badWord (recAdmit rid s1)
    else s

end Sys2Proof.Machine
end

