-- ==== Sys2Proof/Machine/SpecOps.lean ====
section
/-! DEFINITION. What the last stages compute from distributions: sampling (04 R116), the levels of a draft tree (05 R139), its
records (05 R140), masks (05 R142) and the acceptance rule (05 R143). A distribution is a list of tokens with weights, its
probabilities the weights over their sum; the arithmetic is exact (notes/assumptions/71.md). -/

namespace Sys2Proof.Machine

/-! ### Distributions and draws -/

def weightOf (l : List (Nat × Nat)) (x : Nat) : Nat := ((l.find? fun e => e.1 = x).map (·.2)).getD 0
def weightSum (l : List (Nat × Nat)) : Nat := l.foldl (fun n e => n + e.2) 0
def weights (l : List TokP) : List (Nat × Nat) := l.map fun e => (e.tok.toNat, e.weight)

/-- In descending weight, ties to the lower token. -/
def insTok2 (e : Nat × Nat) : List (Nat × Nat) → List (Nat × Nat)
  | [] => [e]
  | f :: r => if f.2 < e.2 ∨ (f.2 = e.2 ∧ e.1 < f.1) then e :: f :: r else f :: insTok2 e r

def byWeight (l : List (Nat × Nat)) : List (Nat × Nat) := l.foldr insTok2 []

/-- A token drawn from a distribution: which one of those with a positive weight is a free value of the distribution and of the
key (the generator of R116 is not described). -/
def drawTok (l : List (Nat × Nat)) (seed pos node : Nat) : Option Nat :=
  let pos_ := l.filter fun e => 0 < e.2
  (pos_[Config.pick l seed pos node % pos_.length]?).map (·.1)

/-- Temperature 0 (03 R70). -/
def Req.greedy (r : Req) : Bool := decide (r.temp % 2 ^ 15 = 0)

/-- The log-probability that the stage gives a token of its distribution (03 R74). -/
def lpOf (l : List TokP) (x : Nat) : W32 := ((l.find? fun e => e.tok.toNat = x).map (·.lp)).getD 0

/-- The token sampled for position `pos` (R116): the most probable one with temperature 0, else a draw keyed by seed and
position; none of an empty distribution. -/
def sampleTok (greedy : Bool) (seed pos : Nat) (l : List TokP) : Option TokLp :=
  let w := weights l
  (if greedy then ((byWeight w).head?).map (·.1) else drawTok w seed pos 64).map fun x => ⟨BitVec.ofNat 32 x, lpOf l x⟩

/-- The tokens sampled for the positions from `pos` on. -/
def sampleToks (greedy : Bool) (seed pos : Nat) (ls : List (List TokP)) : List TokLp :=
  ls.zipIdx.filterMap fun e => sampleTok greedy seed (pos + e.2) e.1

/-! ### Draft levels (05 R139) -/

/-- num / den, at most 1, as FP16, to nearest even. -/
def fp16Ratio (num den : Nat) : Nat :=
  if den = 0 then 0 else fpRound 5 10 false (num * 2 ^ 40 / den) (-40) (decide (num * 2 ^ 40 % den ≠ 0))

/-- An FP16 probability in units of 2^-24, exact. -/
def probUnits (h : Nat) : Nat :=
  match fpDecode 5 10 (h % 2 ^ 16) with
  | .fin false m e => m * 2 ^ (e + 24).toNat
  | _ => 0

/-- In descending draw of the Gumbel top-k, keyed by seed, P and node. -/
def insGumbel (key : Nat × Nat → Nat) (e : Nat × Nat) : List (Nat × Nat) → List (Nat × Nat)
  | [] => [e]
  | f :: r => if key f < key e ∨ (key f = key e ∧ e.1 < f.1) then e :: f :: r else f :: insGumbel key e r

/-- The candidates of a node in its order: q_u cut to its 16 most probable tokens, renormalised to FP16; with temperature 0 in
descending probability, else by the draw without replacement (R139 items 1 and 2). -/
def orderCands (greedy : Bool) (seed pos u : Nat) (l : List (Nat × Nat)) : List (Nat × Nat) :=
  let top := (byWeight l).take 16
  let q := top.map fun e => (e.1, fp16Ratio e.2 (weightSum top))
  if greedy then q else q.foldr (insGumbel fun e => Config.gumbel seed pos u e.1 e.2) []

/-- One choice: the best next unused candidate over the parents, ties to the lower parent (R139 item 4). `used` counts
the candidates already taken of each parent. -/
def bestCand (nodes : List TNode) (parents : List Nat) (used : SMap Nat) : Option (Nat × Nat × Nat) :=
  parents.foldl (fun a u =>
    let n := nodes.getD u ⟨0, 63, 0, 0, []⟩
    match n.cands[(SMap.get used 0 u)]? with
    | none => a
    | some c =>
      let sc := n.score * probUnits c.2
      match a with
      | none => some (u, c.1, sc)
      | some (_, _, best) => if best < sc then some (u, c.1, sc) else a) none

def chooseLevel (nodes : List TNode) (parents : List Nat) (depth : Nat) : (n : Nat) → SMap Nat → List TNode → List TNode
  | 0, _, l => l
  | n + 1, used, l =>
    match bestCand nodes parents used with
    | none => l
    | some (u, tok, sc) =>
      chooseLevel nodes parents depth n (SMap.put used u (SMap.get used 0 u + 1)) (l ++ [⟨tok, u, depth, sc, []⟩])

/-- Level `levels + 1` of a tree is drafted from the distributions at the nodes of the level before. -/
def draftLevel (t : Tree) (greedy : Bool) (seed : Nat) (cands : List (List (Nat × Nat))) : Tree :=
  let idx := (t.nodes.zipIdx.filter fun n => n.1.depth = t.levels).map (·.2)
  let nodes := t.nodes.zipIdx.map fun n =>
    if idx.contains n.2 then { n.1 with cands := orderCands greedy seed t.pos n.2 (cands.getD (idx.idxOf n.2) []) } else n.1
  let new := chooseLevel nodes idx (t.levels + 1) (t.widths.getD t.levels 0) [] []
  if new = [] then { t with depth := t.levels, drafting := false, nodes := nodes }
  else { t with nodes := nodes ++ new, levels := t.levels + 1, drafting := decide (t.levels + 1 < t.depth) }

/-! ### Nodes (05 R138, R140, R142) -/

/-- Children of node `u`, in order. -/
def Tree.kids (t : Tree) (u : Nat) : List Nat :=
  (t.nodes.zipIdx.filter fun n => n.1.parent = u && decide (0 < n.1.depth)).map (·.2)

/-- The 8-byte node record (R140). -/
def nodeRec (t : Tree) (i : Nat) : List Byte :=
  let n := t.nodes.getD i ⟨0, 63, 0, 0, []⟩
  leBytes 4 n.token ++ leBytes 1 n.parent ++ leBytes 1 n.depth ++ leBytes 1 ((t.kids i).headD 63) ++ leBytes 1 (t.kids i).length

/-- The 96-byte q record: 16 candidates, tokens with FP16 probabilities (R140). -/
def qRec (t : Tree) (i : Nat) : List Byte :=
  let n := t.nodes.getD i ⟨0, 63, 0, 0, []⟩
  ((List.range 16).map fun k => match n.cands[k]? with
    | some c => leBytes 4 c.1 ++ leBytes 2 c.2
    | none => List.replicate 6 0#8).flatten

/-- What goes to the target's last stage with a chunk (R141): the records of its nodes, q records of those with children. -/
def chunkRecs (t : Tree) (first cnt : Nat) : List Byte :=
  ((List.range cnt).map fun k =>
    nodeRec t (first + k) ++ (if (t.kids (first + k)).isEmpty then [] else qRec t (first + k))).flatten

/-- The ancestor mask of node `i` (R142): bit j that node j is node i or one of its ancestors. -/
def ancMask (nodes : List TNode) : (fuel i : Nat) → Nat
  | 0, _ => 0
  | f + 1, i => 2 ^ i ||| (match nodes[i]? with
    | some n => if n.parent < i then ancMask nodes f n.parent else 0
    | none => 0)

/-- The masks of `cnt` nodes from `first` on, as they travel with the step that carries them. -/
def nodeMasks (t : Tree) (first cnt : Nat) : List Nat := (List.range cnt).map fun k => ancMask t.nodes 64 (first + k)

/-! ### The acceptance rule (05 R143) -/

/-- normalise(max(0, p - q)), weights over a denominator each. Where nothing is left, which exact arithmetic brings only
when the two agree, p stays (notes/assumptions/71.md). -/
def residual (p q : List (Nat × Nat) × Nat) : List (Nat × Nat) × Nat :=
  let l := p.1.map fun e => (e.1, e.2 * q.2 - weightOf q.1 e.1 * p.2)
  if weightSum l = 0 then p else (l, weightSum l)

/-- The loop over the children: the first accepted one, and what is left of p. -/
def acceptLoop (seed pos u : Nat) : (kids : List Nat) → (j : Nat) → (p q : List (Nat × Nat) × Nat) → Option Nat × (List (Nat × Nat) × Nat)
  | [], _, p, _ => (none, p)
  | x :: r, j, p, q =>
    if (Config.uniform seed pos u j).toNat * (weightOf q.1 x * p.2) < 2 ^ 64 * (weightOf p.1 x * q.2) then (some j, p)
    else
      let rest := q.1.filter fun e => e.1 ≠ x
      acceptLoop seed pos u r (j + 1) (residual p q) (rest, weightSum rest)

/-- The outcome of a node from the target's distribution there (R143): the accepted child with its token's log-probability, or
no child (63) with the bonus token and its. -/
def nodeOutcome (greedy : Bool) (seed : Nat) (t : Tree) (u : Nat) (l : List TokP) : Option Outcome :=
  let kids := (t.kids u).map fun i => (t.nodes.getD i ⟨0, 63, 0, 0, []⟩).token
  let w := weights l
  let bonus (x : Option Nat) : Option Outcome := x.map fun b => ⟨63, b, (lpOf l b).toNat⟩
  let child (j : Nat) : Option Outcome := some ⟨j, 0, (lpOf l (kids.getD j 0)).toNat⟩
  if greedy then
    match (byWeight w).head? with
    | none => none
    | some (x, _) => match kids.findIdx? (· = x) with
      | some j => child j
      | none => bonus (some x)
  else
    let q := ((t.nodes.getD u ⟨0, 63, 0, 0, []⟩).cands.map fun c => (c.1, probUnits c.2), 2 ^ 24)
    match acceptLoop seed t.pos u kids 0 (w, weightSum w) q with
    | (some j, _) => if w = [] then none else child j
    | (none, p) => bonus (drawTok p.1 seed t.pos u)

end Sys2Proof.Machine
end

