-- ==== Sys2Proof/Machine/SchedBuild.lean ====
section
/-! DEFINITION. How the scheduler builds a step token (03 R87, R67, R90, 04 R119, 05 R136-R141): the ready sequences,
their order, trees, prefill chunks, and the steps of a draft partition. -/

namespace Sys2Proof.Machine

/-! ### Trees (05 R137, R138) -/

def shapeWords (s : State) (p : Nat) : List Nat := [0x108, 0x10C, 0x110, 0x114].map fun o => s.regN pgAcc p o

/-- The depth of a shape: leading widths that are not 0. -/
def shapeDepth (ws : List Nat) : Nat := ((List.range 16).takeWhile fun i => widthOf ws (i + 1) ≠ 0).length

/-- Nodes of a tree of depth `d`. -/
def treeNodes (ws : List Nat) (d : Nat) : Nat := (List.range d).foldl (fun n i => n + widthOf ws (i + 1)) 1

/-- The depth of a sequence's next tree (R137, R138). The draft may lag by the two positions that R145 lets its next
tree feed (notes/assumptions/21.md). -/
def treeDepth (s : State) (p : Nat) (r : Req) : Nat :=
  let v := s.sess r.session
  let en := s.fld pgAcc p 0x104 4 1 = 1
  let d := s.fld pgAcc p 0x104 0 4
  if en ∧ (s.part d).ps = .running ∧ (s.part d).draftOf = p ∧ r.dslot.isSome = true ∧ r.dpart = d ∧ v.kvLen ≤ v.dkv + 2 then
    let lim := maxCtx s p - 1 - (v.kvLen + 1)
    let lim2 := if r.maxNew = 0 then lim else Nat.min lim (r.maxNew - r.delivered - 1)
    Nat.min (shapeDepth (shapeWords s p)) lim2
  else 0

/-- A native_spec sequence without a step slot in the draft that now serves its target takes one, where one is free (R136,
R137); draft KV that its pool does not hold is absent. -/
def bindDraft (p rid : Nat) (r : Req) (s : State) : State :=
  let d := s.fld pgAcc p 0x104 0 4
  if bitAt r.flags 4 && decide (s.fld pgAcc p 0x104 4 1 = 1) && decide ((s.part d).ps = .running) && decide ((s.part d).draftOf = p) &&
      (r.dslot.isNone || decide (r.dpart ≠ d)) then
    match freeSlot s d with
    | none => s
    | some sl => (s.modReq rid fun q => { q with dslot := some sl, dpart := d }).modSess r.session fun v =>
        { v with dkv := heldLen (s.pool d) r.session v.dkv }
  else s

/-! ### Candidates -/

/-- A sequence that may enter a decode step: request, kind, entry, epoch, length its chains must reach, the tree that
starts with it. -/
structure Cand where
  rid : Nat
  kind : Nat
  ent : Ent
  epoch : Nat
  grow : Nat
  tree : Option Tree := none
  dl : Option Nat
  prio : Nat
  ten : Nat
  adm : Nat
  deriving DecidableEq, Repr

def adapterOf (r : Req) : Nat := r.adapter
def lpFlag (r : Req) : Nat := if bitAt r.flags 3 then 2 else 0

/-- Free entries that a sequence's next step needs (R67, 05 R151). -/
def ringNeed (r : Req) (depth : Nat) : Nat := if r.kind = .rollback then r.rk + 3 else depth + 2

def ringFree (s : State) (r : Req) : Nat :=
  match s.ring r.ring with
  | some g => g.space
  | none => 0

/-- The candidate that a ready request gives: plain decode, the root of a tree, or a rollback's chain. -/
def candOf (s : State) (p rid : Nat) (r : Req) : Cand :=
  let v := s.sess r.session
  let sl := r.slot.getD 0
  let d := treeDepth s p r
  let epoch := r.epoch.getD (s.part p).epCur
  let mk (kind : Nat) (e : Ent) (grow : Nat) (t : Option Tree) : Cand :=
    ⟨rid, kind, e, epoch, grow, t, r.deadline, (s.tenant v.tenant).prio, v.tenant, r.adm⟩
  let pend := (v.log.getD v.kvLen 0).toNat
  if r.kind = .rollback then
    mk 2 (mkEnt sl (r.rk + 1) (r.rlen - 1) sl (adapterOf r) r.ver (1 + lpFlag r)) (r.rlen + r.rk) none
  else if d = 0 then
    mk 0 (mkEnt sl 1 v.kvLen pend (adapterOf r) r.ver (1 + lpFlag r)) (v.kvLen + 1) none
  else
    let ws := shapeWords s p
    let old := SMap.find s.spec.trees (p * 4096 + sl)
    let t : Tree := { part := p, pos := v.kvLen, depth := d, slot := sl, session := r.session,
                      widths := (List.range d).map fun i => widthOf ws (i + 1), drafting := true,
                      nodes := [⟨pend, 63, 0, 1, []⟩], chunks := 1, inflight := 1,
                      old := match old with
                        | some x => x.inflight + x.old
                        | none => 0 }
    mk 2 { mkEnt sl 1 v.kvLen sl (adapterOf r) r.ver (5 + lpFlag r) with masks := [1] } (v.kvLen + treeNodes ws d) (some t)

/-- Examine a request in DECODE for a step: stalled for ring space, deferred for budget, or a candidate (R87, R67,
R90). A sequence short of both is counted in SVC_CNT_STALL alone: R103 does not say (DESIGN CHOICE, notes/assumptions/80.md). -/
def examine (p : Nat) (a : State × List Cand) (e : Nat × Req) : State × List Cand :=
  let v := a.1.sess e.2.session
  if e.2.st = .decode ∧ e.2.ready = true ∧ e.2.dropPend = false ∧ e.2.slot.isSome = true ∧ v.part = p then
    let s := bindDraft p e.1 e.2 a.1
    let r := (s.req e.1).getD e.2
    let need := ringNeed r (treeDepth s p r)
    let s1 := refill v.tenant s
    if ringFree s r < need then
      let s2 := if inBudget s1 v.tenant then letGo e.1 s1 else s1
      ((s2.modReq e.1 fun q => q.setCond cStalled).bump pgServ 0 0x18C, a.2)
    else if inBudget s1 v.tenant then (letGo e.1 s1, a.2 ++ [candOf s1 p e.1 r])
    else (holdBack e.1 s1, a.2)
  else a

/-- A request that a decode step may carry: in DECODE, or ending with its tree still open (R147). -/
def mayDecode (s : State) (p : Nat) (r : Req) : Bool :=
  decide (r.st = .decode) || (decide (r.st = .ending) && treeOpen s p (r.slot.getD 4096))

/-- Verify chunks whose level has been drafted (05 R141). -/
def chunkCands (s : State) (p : Nat) : List Cand :=
  s.spec.trees.filterMap fun e =>
    let t := e.2
    if e.1 / 4096 = p ∧ t.committed = false ∧ t.chunks ≤ t.levels ∧ t.chunks ≤ t.depth then
      match reqOfSlot s p t.slot with
      | none => none
      | some (rid, r) =>
        if mayDecode s p r = true ∧ r.dropPend = false then
          let first := (t.nodes.takeWhile fun n => n.depth < t.chunks).length
          let cnt := (t.nodes.filter fun n => n.depth = t.chunks).length
          let v := s.sess r.session
          some { rid := rid, kind := 2, epoch := r.epoch.getD (s.part p).epCur, grow := t.pos + first + cnt,
                 ent := { mkEnt t.slot cnt (t.pos + first) (t.slot + first * 4096) (adapterOf r) r.ver (5 + lpFlag r) with
                          ctx := t.pos + t.chunks + 1, masks := nodeMasks t first cnt },
                 dl := r.deadline, prio := (s.tenant v.tenant).prio, ten := v.tenant, adm := r.adm }
        else none
    else none

/-! ### Order (R87 item 2) -/

def lowestBy (f : Cand → Nat) (l : List Cand) : Option Cand :=
  l.foldl (fun a c => match a with
    | none => some c
    | some b => if f c < f b then some c else some b) none

/-- Earliest deadline first, ties to the earlier admission; then by priority, tenants in turn, oldest admission. -/
def pickCand (s : State) (p : Nat) (l : List Cand) : Option Cand :=
  match l.filter (fun c => c.dl.isSome) with
  | c :: r => lowestBy (fun c => c.dl.getD 0 * 2 ^ 64 + c.adm) (c :: r)
  | [] =>
    let pr := l.foldl (fun a c => Nat.min a c.prio) 3
    let q := l.filter fun c => c.prio = pr
    let last := (SMap.find s.serv.turn (p * 4 + pr)).getD 4095
    lowestBy (fun c => (c.ten + 4096 - (last + 1) % 4096) % 4096 * 2 ^ 64 + c.adm) q

/-! ### Building (R87, 04 R119) -/

/-- A step being built: entries in order, epoch and kind of the first. -/
structure Bld where
  kind : Nat := 0
  epoch : Nat := 0
  ents : List Ent := []
  closed : Bool := false
  deriving DecidableEq, Repr

def estEnts (s : State) (p : Nat) (l : List Ent) : Nat :=
  estStep s p (l.foldl (fun n e => n + e.ntok) 0) (l.foldl (fun n e => n + e.ctx) 0)

def budgetFs (s : State) (p : Nat) : Nat := s.fld (pgSched p) 0 0x128 0 16 * 1000000
def maxBatch (s : State) (p : Nat) : Nat := s.fld (pgSched p) 0 0x128 16 7

/-- The state that a taken candidate leaves: its tree, and the tenant's turn. A sequence that is taken by its deadline moves no
turn: R87 gives the turns to sequences without one (DESIGN CHOICE, notes/assumptions/80.md). -/
def takeCand (p : Nat) (c : Cand) (s : State) : State :=
  let s1 : State := match c.tree with
    | some t => { s with spec := { s.spec with trees := SMap.put s.spec.trees (p * 4096 + t.slot) t } }
    | none =>
      let k := p * 4096 + c.ent.slot
      if c.kind = 2 then { s with spec := { s.spec with trees := SMap.mod s.spec.trees k fun t =>
        { t with chunks := t.chunks + 1, inflight := t.inflight + 1 } } } else s
  let s2 := match s1.req c.rid with
    | some r => if c.kind = 0 ∧ bitAt r.flags 4 then s1.bump pgAcc p 0x18C else s1
    | none => s1
  if c.dl.isSome then s2
  else s2.modServ fun v => { v with turn := SMap.put v.turn (p * 4 + c.prio) c.ten }

/-- Take sequences while the step accepts them; a chunk's pages stand since its tree began. -/
def fillStep (p : Nat) : (fuel : Nat) → List Cand → Bld → State → Bld × State
  | 0, _, b, s => (b, s)
  | f + 1, l, b, s =>
    if maxBatch s p ≤ b.ents.length then (b, s)
    else
      let fit := if b.ents = [] then l else l.filter fun c => decide (c.epoch = b.epoch) && decide (c.kind = b.kind)
      match pickCand s p fit with
      | none => (b, s)
      | some c =>
        let rest := l.filter fun x => x ≠ c
        let big := b.ents ≠ [] ∧ budgetFs s p ≠ 0 ∧ budgetFs s p < estEnts s p (b.ents ++ [c.ent])
        -- a step has at most 2,048 positions (04 R109): it goes without what would pass them (notes/assumptions/71.md)
        if 2048 < b.ents.foldl (fun n e => n + e.ntok) c.ent.ntok then (b, s)
        else if big then ({ b with closed := true }, s)
        else match s.req c.rid with
          | none => fillStep p f rest b s
          | some r =>
            if mayDecode s p r = false ∨ r.dropPend = true then fillStep p f rest b s
            else match makeRoom p r.session (r.slot.getD 0) c.rid c.grow (s.serv.sess.length + s.serv.reqs.length + 1) s with
              | .ok t => fillStep p f rest ⟨c.kind, c.epoch, b.ents ++ [c.ent], false⟩ (takeCand p c t)
              | .wait t => fillStep p f rest b t
              | .full t => fillStep p f rest b (poolFullEnd p c.rid t)

/-- Entries whose request still decodes: one that pool exhaustion sent back leaves the step (06 R175). -/
def liveEnts (s : State) (p : Nat) (l : List Ent) : List Ent :=
  l.filter fun e => match reqOfSlot s p e.slot with
    | some (_, r) => mayDecode s p r
    | none => false

/-- The records of a step's chunks go to the last stage on VC4 (05 R141). -/
def sendRecs (p : Nat) (ents : List Ent) (s : State) : State :=
  match siteOfLogical s p ((s.part p).stage ((s.part p).stages.length - 1)).leader with
  | none => s
  | some site => ents.foldl (fun u e => match u.tree p e.slot with
      | some t => if bitAt e.flags 2 then u.emit (.flit 4 steward site ((chunkRecs t (e.token / 4096 % 64) e.ntok).map (·.toNat))) else u
      | none => u) s

def buildDecode (p : Nat) (l : List Cand) (s : State) : State × Bool :=
  let r := fillStep p (l.length + 1) l {} s
  let ents := liveEnts r.2 p r.1.ents
  if ents = [] then (r.2, false)
  else
    let s1 := if r.1.closed then r.2.bump (pgSched p) 0 0x19C else r.2
    (injectNew p (newTok s1 p r.1.kind r.1.epoch ents) (if r.1.kind = 2 then sendRecs p ents s1 else s1), true)

/-! ### Prefill -/

def chunkSize (s : State) : Nat := match s.fld pgServ 0 0x104 4 2 with
  | 0 => 16 | 1 => 32 | _ => 64

/-- Requests by earliest deadline, then those without, by admission. -/
def dlKey (r : Req) : Nat := (match r.deadline with
  | some d => d
  | none => 2 ^ 64) * 2 ^ 64 + r.adm

def insReq (key : Req → Nat) (e : Nat × Req) : List (Nat × Req) → List (Nat × Req)
  | [] => [e]
  | f :: r => if key e.2 < key f.2 then e :: f :: r else f :: insReq key e r

/-- A request whose next chunk may go: positions that its chunk builds on are held (03 R84). -/
def chunkDue (s : State) (p : Nat) (r : Req) : Bool :=
  decide (r.st = .prefill) && decide (r.fpos < r.fend) && !r.dropPend && decide ((s.sess r.session).part = p) &&
    decide (r.fpos ≤ (s.sess r.session).kvLen)

def prefillWaiting (s : State) (p : Nat) : List (Nat × Req) :=
  (s.serv.reqs.filter fun e => chunkDue s p e.2).foldr (insReq dlKey) []

/-- One prefill step: a chunk of the first request whose pages can be placed. -/
def buildPrefill (p : Nat) : List (Nat × Req) → State → State × Bool
  | [], s => (s, false)
  | (rid, r0) :: rest, s =>
    -- a drop for another sequence may have sent this one back meanwhile (06 R175)
    let r := (s.req rid).getD r0
    let n := Nat.min (chunkSize s) (r.fend - r.fpos)
    if !chunkDue s p r then buildPrefill p rest s
    else match makeRoom p r.session (r.slot.getD 0) rid (r.fpos + n) (s.serv.sess.length + s.serv.reqs.length + 1) s with
    | .wait t => buildPrefill p rest t
    | .full t => buildPrefill p rest (poolFullEnd p rid t)
    | .ok t =>
      let e := mkEnt (r.slot.getD 0) n r.fpos 0xFFFFFFFF (adapterOf r) r.ver 0
      let t1 := (t.modReq rid fun q => { q with fpos := r.fpos + n }).modSess r.session fun v =>
        { v with kvLen := if v.kvLen < r.fpos then v.kvLen else Nat.max v.kvLen (r.fpos + n) }
      (injectNew p (newTok t1 p 1 (r.epoch.getD (t1.part p).epCur) [e]) t1, true)

/-- DEFERRED requests of a partition, at a scheduler decision (R85, R90), earliest admission first. -/
def retryDeferred (p : Nat) (s : State) : State :=
  ((s.serv.reqs.filter fun e => decide (e.2.st = .deferred) && decide ((s.sess e.2.session).part = p)).foldr
    (insReq fun r => r.adm) []).foldl (fun t e => enterPrefill e.1 t) s

/-- The step of a target, or of any partition that is no draft (R87). -/
def buildTarget (p : Nat) (s0 : State) : State :=
  let s := retryDeferred p s0
  let ex := s.serv.reqs.foldl (examine p) (s, [])
  let cands := ex.2 ++ chunkCands ex.1 p
  let pre := prefillWaiting ex.1 p
  let due := decide (s.fld pgServ 0 0x104 0 4 ≤ (s.part p).noPrefill + 1)
  if !pre.isEmpty && (due || cands.isEmpty) then
    let r := buildPrefill p pre ex.1
    if r.2 then r.1 else (buildDecode p cands r.1).1
  else
    let r := buildDecode p cands ex.1
    if r.2 then r.1 else (buildPrefill p pre r.1).1

/-! ### Draft partitions (05 R136, R139) -/

def isDraft (s : State) (p : Nat) : Bool := decide ((s.part p).draftOf ≠ 0xFF)

/-- Requests of target `t` whose draft KV is missing history (R136). -/
def draftBehind (s : State) (d t : Nat) : List (Nat × Req) :=
  (s.serv.reqs.filter fun e =>
    let v := s.sess e.2.session
    e.2.dslot.isSome && decide (e.2.dpart = d) && decide (v.part = t) && decide (e.2.st ≠ .ending) &&
    decide (v.dkv + 2 < v.kvLen)).foldr (insReq dlKey) []

def draftSlot (s : State) (t slot : Nat) : Option (Nat × Req) :=
  match reqOfSlot s t slot with
  | some (_, r) => r.dslot.map fun d => (d, r)
  | none => none

/-- Room in the draft's pool, whose sessions' pages no R175 drop can free. -/
def draftRoom (d sess slot upto : Nat) (s : State) : Option State :=
  let v := s.sess sess
  match growAll d sess slot v.tenant (v.group.getD 0) upto (s.pool d).groupIdx s with
  | .ok t => some t
  | .error _ => none

/-- The next level of a tree: a draft step over the nodes of the level before (R139); level 1 also feeds the positions
that the draft lacks (R145). -/
def levelEnt (s : State) (t : Tree) (dsl : Nat) : Ent :=
  let first := (t.nodes.takeWhile fun n => n.depth < t.levels).length
  let cnt := (t.nodes.filter fun n => n.depth = t.levels).length
  let lag := if t.levels = 0 then t.pos - (s.sess t.session).dkv else 0
  { mkEnt dsl (cnt + lag) (t.pos + first - lag) (t.slot + first * 4096) 0xFFFF 0 4 with
    ctx := t.pos + t.levels + 1, masks := nodeMasks t first cnt }

/-- Draft steps that can go: the level before is drafted, no step of the tree is in the draft. -/
def fillDraft (d tp : Nat) : List (Nat × Tree) → List Ent → State → List Ent × State
  | [], l, s => (l, s)
  | (k, t) :: r, l, s =>
    if maxBatch s d ≤ l.length then (l, s)
    else match draftSlot s tp t.slot with
      | none => fillDraft d tp r l s
      | some (dsl, _) =>
        let e := levelEnt s t dsl
        if 2048 < l.foldl (fun n e => n + e.ntok) e.ntok then (l, s)
        else match draftRoom d t.session dsl (e.pos + e.ntok) s with
        | none =>
          -- no room in the draft: the tree ends at the levels it has (notes/assumptions/22.md)
          fillDraft d tp r l { s with spec := { s.spec with trees := SMap.mod s.spec.trees k fun x =>
            { x with depth := x.levels, drafting := false } } }
        | some s1 => fillDraft d tp r (l ++ [e]) { s1 with spec := { s1.spec with trees := SMap.mod s1.spec.trees k fun x =>
            { x with dInj := x.levels + 1, dStep := some (((s1.part d).stepNum + 1) % 2 ^ 32) } } }

/-- A prefill step of the draft over history it lacks; no tenant is charged. -/
def draftPrefill (d : Nat) : List (Nat × Req) → State → State × Bool
  | [], s => (s, false)
  | (_, r) :: rest, s =>
    let v := s.sess r.session
    let n := Nat.min (chunkSize s) (v.kvLen - v.dkv)
    let dsl := r.dslot.getD 0
    match draftRoom d r.session dsl (v.dkv + n) s with
    | none => draftPrefill d rest s
    | some s1 =>
      let e := mkEnt dsl n v.dkv 0xFFFFFFFF 0xFFFF 0 0
      let s2 := s1.modSess r.session fun w => { w with dkv := v.dkv + n }
      let t := newTok s2 d 1 (s2.part d).epCur [e]
      (inject d t (s2.modPart d fun q => { q with stepNum := t.step }), true)

def buildDraft (d tp : Nat) (s : State) : State :=
  let ready := s.spec.trees.filter fun e => decide (e.1 / 4096 = tp) && e.2.drafting && !e.2.committed &&
    decide (e.2.dInj = e.2.levels) && decide (e.2.levels < e.2.depth)
  let pre := draftBehind s d tp
  let due := decide (s.fld pgServ 0 0x104 0 4 ≤ (s.part d).noPrefill + 1)
  let lev (s : State) : State × Bool :=
    let r := fillDraft d tp ready [] s
    if r.1 = [] then (r.2, false)
    else
      let t := newTok r.2 d 3 (r.2.part d).epCur r.1
      (inject d t (r.2.modPart d fun q => { q with stepNum := t.step }), true)
  if !pre.isEmpty && (due || ready.isEmpty) then
    let r := draftPrefill d pre s
    if r.2 then r.1 else (lev r.1).1
  else
    let r := lev s
    if r.2 then r.1 else (draftPrefill d pre r.1).1

/-! ### Abandoned steps (04 R128) -/

/-- Whether a sequence of a token has lost positions its entry builds on (04 R128): its KV length, or in a draft
partition its draft KV length, lies below what the entry follows; a tree's chunks and levels follow its root, and the nodes
before them on its pages. -/
def lostBase (s : State) (p : Nat) (t : Tok) (e : Ent) (r : Req) : Bool :=
  let v := s.sess r.session
  let gone := decide (heldLen (s.pool p) r.session e.pos < e.pos)
  if isDraft s p then gone || decide (t.kind ≠ 3 ∧ v.dkv < e.pos)
  else match t.kind, s.tree p e.slot with
    | 2, some x => gone || decide (v.kvLen < x.pos)
    | _, _ => decide (v.kvLen < e.pos)

/-- A sequence leaves an abandoned step: that of a target recomputes; a tree whose level a draft loses ends with the levels it
has. -/
def removeEnt (p : Nat) (t : Tok) (e : Ent) (rid : Nat) (s : State) : State :=
  if isDraft s p then
    (if t.kind = 3 then s.modTree (s.part p).draftOf (e.token % 4096) fun x =>
      if x.dStep = some t.step then { x with depth := x.levels, drafting := false, dStep := none } else x else s)
  else dropIfPending rid (backToPrefill rid (unfly rid s))

/-- Filter a token for re-injection: sequences that have lost positions are removed; those of a target recompute. -/
def filterTok (p : Nat) (t : Tok) (s : State) : Tok × State :=
  t.ents.foldl (fun a e =>
    match reqOfSlot a.2 p e.slot with
    | none => a
    | some (rid, r) =>
      if lostBase a.2 p t e r then (a.1, removeEnt p t e rid a.2)
      else ({ a.1 with ents := a.1.ents ++ [e] }, a.2)) ({ t with ents := [] }, s)

/-- Pages for what an entry writes (04 R111): those of lost pages behind its base are allocated again. -/
def entRoom (p : Nat) (e : Ent) (s : State) : Room :=
  match reqOfSlot s p e.slot with
  | none => .ok s
  | some (rid, r) =>
    if isDraft s p then (match draftRoom p r.session e.slot (e.pos + e.ntok) s with
      | some t => .ok t
      | none => .full s)
    else makeRoom p r.session e.slot rid (e.pos + e.ntok) (s.serv.sess.length + s.serv.reqs.length + 1) s

/-- A prefill chunk that is fed again computes its positions again (04 R128): the KV length that a lost page had cut among them
rises with it. -/
def refeed (p : Nat) (t : Tok) (e : Ent) (s : State) : State :=
  match reqOfSlot s p e.slot with
  | none => s
  | some (_, r) =>
    let up (n : Nat) : Nat := if t.kind = 1 ∧ e.pos ≤ n then Nat.max n (e.pos + e.ntok) else n
    if isDraft s p then s.modSess r.session fun v => { v with dkv := up v.dkv }
    else s.modSess r.session fun v => { v with kvLen := up v.kvLen }

/-- The entries of a token for which there is room, and whether one waits for a drop (06 R175). -/
def roomFor (p : Nat) (t : Tok) : List Ent → List Ent → State → List Ent × State × Bool
  | [], l, s => (l, s, false)
  | e :: r, l, s =>
    match entRoom p e s with
    | .ok u => roomFor p t r (l ++ [e]) (refeed p t e u)
    | .wait u => (l ++ e :: r, u, true)
    | .full u =>
      roomFor p t r l (match reqOfSlot u p e.slot with
        | none => u
        | some (rid, _) => if isDraft u p then removeEnt p t e rid u else poolFullEnd p rid (unfly rid u))

/-- Re-inject the first abandoned token that still has sequences, at most `fuel` of them looked at. -/
def reinject (p : Nat) : (fuel : Nat) → State → State
  | 0, s => s
  | f + 1, s =>
    match (s.part p).abandoned with
    | [] => s
    | t :: rest =>
      let s1 := s.modPart p fun q => { q with abandoned := rest }
      let r := filterTok p t s1
      let m := roomFor p t r.1.ents [] r.2
      let u : Tok := { t with ents := m.1 }
      if m.2.2 then m.2.1.modPart p fun q => { q with abandoned := u :: q.abandoned }
      else if m.1.isEmpty then reinject p f m.2.1
      else
        inject p { u with
          count := m.1.length, replay := satInc t.replay 255, retry := 0, eqx := (s.part p).eqxNum % 2 ^ 16,
          positions := m.1.foldl (fun n e => n + e.ntok) 0,
          context := Nat.min 0xFFFFFFFF (m.1.foldl (fun n e => n + e.ctx) 0) } m.2.1

end Sys2Proof.Machine
end

