-- ==== Sys2Proof/Machine/ReplayOps.lean ====
section
/-! DEFINITION. The steps of a replay in its target partition (17 R424-R426). -/

namespace Sys2Proof.Machine

/-- Room in the target's pool; pages carry the recorded tenant's tag (R426). -/
def rpRoom (i upto : Nat) (s : State) : Option State :=
  match s.rp.seqs[i]? with
  | none => none
  | some q =>
    let v := s.sess q.session
    match growAll s.rp.tgt (rpChain i) q.slot v.tenant (v.group.getD 0) upto (s.pool s.rp.tgt).groupIdx s with
    | .ok t => some t
    | .error _ => none

/-- A sequence that gets no pages is excluded (notes/assumptions/23.md). -/
def rpExclude (i : Nat) (s : State) : State :=
  (s.modRp fun r => { r with
    steps := r.steps.map fun t => { t with ents := t.ents.filter fun e => e.1 ≠ i }
    seqs := r.seqs.modify i fun q => { q with need := q.fed } }).bump pgReplay 0 0x12C

/-- The sequence to warm up next. -/
def rpWarm (s : State) : Option (Nat × RpSeq) :=
  (s.rp.seqs.zipIdx.find? fun e => e.1.fed < e.1.need).map fun e => (e.2, e.1)

def rpEnt (s : State) (e : Nat × Nat × Nat) (kind : Nat) : Ent :=
  let q := s.rp.seqs.getD e.1 ⟨0, 0, 0, 0, 0xFFFF, 0, 0, 0, 0, false, 0, false⟩
  let tok := if kind = 1 then 0xFFFFFFFF else ((s.sess q.session).log.getD e.2.2 0).toNat
  mkEnt q.slot e.2.1 e.2.2 tok q.adapter q.ver (if kind = 1 then 0 else 1)

def rpInject (kind epoch : Nat) (l : List (Nat × Nat × Nat)) (rec : Option RpStep) (s : State) : State :=
  let p := s.rp.tgt
  let t := newTok s p kind epoch (l.map fun e => rpEnt s e kind)
  inject p t ((s.modPart p fun q => { q with stepNum := t.step }).modRp fun r =>
    { r with flying := r.flying ++ [rec] })

/-- The target's next step: a warm-up chunk, else the next recorded step that still has a sequence. -/
def replayBuild : (fuel : Nat) → State → State
  | 0, s => s
  | f + 1, s =>
    match rpWarm s with
    | some (i, q) =>
      let n := Nat.min (chunkSize s) (q.need - q.fed)
      (match rpRoom i (q.fed + n) s with
      | none => replayBuild f (rpExclude i s)
      | some t => rpInject 1 (t.part t.rp.tgt).epCur [(i, n, q.fed)] none
          (t.modRp fun r => r.modSeq i fun x => { x with fed := q.fed + n }))
    | none => match s.rp.steps with
      | [] => s
      | t :: rest =>
        let s1 := s.modRp fun r => { r with steps := rest }
        if t.ents = [] then replayBuild f s1
        else
          let g := t.ents.foldl (fun (a : State × List (Nat × Nat × Nat)) e =>
            match rpRoom e.1 (e.2.2 + e.2.1) a.1 with
            | some u => (u, a.2 ++ [e])
            | none => (rpExclude e.1 a.1, a.2)) (s1, [])
          if g.2 = [] then replayBuild f g.1 else rpInject t.kind t.epoch g.2 (some { t with ents := g.2 }) g.1

/-- A divergence entry (R425). -/
def rpDiverge (q : RpSeq) (t : RpStep) (pos logged got : Nat) (s : State) : State :=
  let s1 := s.bump pgReplay 0 0x128
  let n := s.rp.outN
  if s.regN pgReplay 0 0x118 ≤ n then s1
  else
    let b := leBytes 4 t.step ++ leBytes 2 q.src ++ leBytes 2 q.session ++ leBytes 4 pos ++ leBytes 4 logged ++
      leBytes 4 got ++ leBytes 4 t.eqx ++ leBytes 2 q.req ++ leBytes 6 0
    hdmDevWrite tagReplay (s.reg64 pgReplay 0 0x110 + 32 * n) b (s1.modRp fun r => { r with outN := n + 1 })

/-- Compare one sampled token with the log (R424 item 4). -/
def rpCompare (t : RpStep) (i pos : Nat) (got : W32) (s : State) : State :=
  match s.rp.seqs[i]? with
  | none => s
  | some q =>
    match (s.sess q.session).log[pos]? with
    | none => s.bump pgReplay 0 0x130
    | some w =>
      let s1 := s.bump pgReplay 0 0x124
      if w = got || q.diverged then s1
      else rpDiverge q t pos w.toNat got.toNat (s1.modRp fun r => r.modSeq i fun x => { x with diverged := true })

/-- A step of the target leaves the last stage: its samples are compared; warm-up and prefill steps are not. -/
def replayCommit (res : List SeqRes) (s : State) : State :=
  match s.rp.flying with
  | [] => s
  | none :: r => s.modRp fun x => { x with flying := r }
  | some t :: r =>
    let s1 := s.modRp fun x => { x with flying := r }
    if t.kind = 1 then s1
    else t.ents.foldl (fun u e =>
      match u.rp.seqs[e.1]? with
      | none => u
      | some q => match res.find? fun x => x.slot = q.slot with
        | none => u
        | some x => ((sampleToks q.greedy q.seed (e.2.2 + 1) x.dists).zipIdx).foldl (fun w k =>
            rpCompare t e.1 (e.2.2 + 1 + k.2) k.1.tok w) u) s1

end Sys2Proof.Machine
end

