-- ==== Sys2Proof/Machine/SchedCommit.lean ====
section
/-! DEFINITION. What happens when a step leaves the last stage (04 R115): prefill, decode, draft levels (05 R139),
verify chunks and the walk of the acceptance unit (05 R144-R147), rollback predictions (05 R150). -/

namespace Sys2Proof.Machine

/-! ### Commits -/

/-- A step in flight less for a request. -/
def landed (rid : Nat) (s : State) : State := unfly rid s

/-- A prefill chunk leaves the last stage (03 R85, R96, R98). Where a page lost meanwhile has cut the KV length below what the
chunks have fed, the last of them sends the request back to recompute from there (R84, 04 R128). -/
def prefillLeft (rid : Nat) (e : Ent) (s : State) : State :=
  match s.req rid with
  | none => s
  | some r =>
    if r.st = .prefill ∧ (s.sess r.session).kvLen < Nat.min r.fpos r.fend then
      if r.inflight = 0 then backToPrefill rid s else s
    else if r.st = .prefill ∧ r.fend ≤ e.pos + e.ntok then
      let s1 := prefixInsert r s
      if r.kind = .register then toEnd rid (registerPrefix rid s1)
      else s1.modReq rid fun q => { q with st := .decode, ready := true }
    else s

/-- Predictions of a rollback (05 R150): k + 1 entries, not logged, each charged as a decode token. -/
def rollbackDone (rid : Nat) (toks : List TokLp) (s : State) : State :=
  match s.req rid with
  | none => s
  | some r =>
    let v := s.sess r.session
    let mine := toks.take (r.rk + 1)
    let s1 := if r.mute || (s.ring r.ring).isNone then s else
      (mine.zipIdx).foldl (fun t x =>
        (pushEntry r.ring (tokenEntry x.1.tok.toNat (r.rlen + x.2) 0 none t) t).modReq rid fun q =>
          { q with delivered := q.delivered + 1 }) s
    let s2 := charge v.tenant mine.length 4096 s1
    let n := r.rlen + r.rk - 1
    toEnd rid (truncSession v.part r.session n (s2.modSess r.session fun w =>
      { w with kvLen := if w.kvLen < r.rlen - 1 then w.kvLen else n }))

/-- One entry of a step that left the last stage of `p`. -/
def commitEnt (p : Nat) (t : Tok) (res : List SeqRes) (s : State) (e : Ent) : State :=
  match reqOfSlot s p e.slot with
  | none => s
  | some (rid, r) =>
    let x := (res.find? fun y => y.slot = e.slot).getD ⟨e.slot, [], []⟩
    let tp := (s.part p).draftOf
    if tp ≠ 0xFF then
      if t.kind = 3 then
        match s.tree tp (e.token % 4096) with
        -- a level of an earlier tree of the slot finds none that waits for its step
        | some tr => if !tr.committed && tr.drafting && decide (tr.dStep = some t.step)
            then s.modTree tp (e.token % 4096) fun z => { draftLevel z r.greedy r.seed x.cands with dStep := none }
            else s
        | none => s
      else s
    else
      let s1 := landed rid s
      let s2 :=
        if t.kind = 1 then prefillLeft rid e s1
        else if t.kind = 0 then commitToks rid e.pos (sampleToks r.greedy r.seed (e.pos + 1) (x.dists.take 1)) s1
        else if r.kind = .rollback then rollbackDone rid (sampleToks r.greedy r.seed (e.pos + 1) x.dists) s1
        else
          let s3 := s1.bump pgAcc p 0x184 e.ntok
          s3.modTree p e.slot fun z =>
            if 0 < z.old then { z with old := z.old - 1 } else { z with inflight := z.inflight - 1 }
      dropIfPending rid s2

/-- STEP_COMMIT: the oldest step that has left the last stage is committed, then a drain that it ends (04 R127). The last
member of a span sends the results to the head (13 R332). -/
def commitStep (p : Nat) (res : List SeqRes) (s : State) : State :=
  match (s.part p).leaving with
  | [] => s
  | t :: rest =>
    let s1 := s.modPart p fun q => { q with leaving := rest }
    let s2 := if (s.part p).isMember then sendSpan p 0 (.results t.step res) s1 else if (s.part p).replayOf then replayCommit res s1 else t.ents.foldl (commitEnt p t res) s1
    drainDone p s2

/-! ### The acceptance unit (05 R143-R147) -/

/-- The `j`-th child of node `u`. -/
def childNode (t : Tree) (u j : Nat) : Option Nat := (t.kids u)[j]?

/-- The walk from the root: the path's nodes after the root with their outcomes' log-probabilities, and the bonus; none
while an outcome is missing. -/
def walkTree (t : Tree) : (fuel : Nat) → (u : Nat) → List (Nat × TokLp) → Option (List (Nat × TokLp) × TokLp)
  | 0, _, _ => none
  | f + 1, u, path =>
    match SMap.find t.outs u with
    | none => none
    | some o =>
      match (if o.child = 63 then none else childNode t u o.child) with
      | none => some (path, ⟨BitVec.ofNat 32 o.bonus, BitVec.ofNat 32 o.logprob⟩)
      | some c =>
        let n := t.nodes.getD c ⟨0, 63, 0, 0, []⟩
        walkTree t f c (path ++ [(c, ⟨BitVec.ofNat 32 n.token, BitVec.ofNat 32 o.logprob⟩)])

/-- Path moves (R145): storage position P + i_k to P + k where they differ. -/
def pathMoves (pos : Nat) (path : List Nat) : List (Nat × Nat) :=
  (path.zipIdx.filter fun e => e.1 ≠ e.2 + 1).map fun e => (pos + e.1, pos + e.2 + 1)

def setMoves (p slot sess : Nat) (l : List (Nat × Nat)) (s0 : State) : State :=
  let k := p * 4096 + slot
  let s := finishMoves p slot sess s0
  { s with spec := { s.spec with
      moves := if l = [] then SMap.del s.spec.moves k else SMap.put s.spec.moves k l
      moved := SMap.del s.spec.moved k } }

/-- The commit of a walk (R144, R145, R147). -/
def commitWalk (p slot rid : Nat) (t : Tree) (path : List (Nat × TokLp)) (bonus : TokLp) (s : State) : State :=
  match s.req rid with
  | none => s
  | some r =>
    let n0 := r.delivered
    let s1 := s.modTree p slot fun z => { z with committed := true, drafting := false }
    let drop := late s r && bitAt r.flags 0
    let s2 := commitToks rid t.pos (path.map (·.2) ++ [bonus]) s1
    let m := match s2.req rid with
      | some q => q.delivered - n0
      | none => 0
    -- a tree cut to its root counts among those of depth 0 (R154)
    let s3 := (s2.bump pgAcc p (if t.depth = 0 then 0x18C else 0x180)).bump pgAcc p 0x188 (Nat.min path.length m)
    if drop then s3.modSess r.session fun v => { v with dkv := Nat.min v.dkv t.pos }
    else
      let mv := pathMoves t.pos (path.map (·.1))
      let s4 := setMoves p slot r.session mv s3
      let s5 := match r.dslot with
        | some d => setMoves r.dpart d r.session mv s4
        | none => s4
      match r.dslot with
      | some _ => s5.modSess r.session fun v => { v with dkv := heldLen (s5.pool r.dpart) r.session (Nat.min (t.pos + t.depth) v.kvLen) }
      | none => s5

/-- SPEC_OUTCOME: the outcome of a node of an injected chunk (R143); the walk commits as soon as it can. -/
def outcome (p slot node : Nat) (l : List TokP) (s : State) : State :=
  match s.tree p slot, reqOfSlot s p slot with
  | some t, some (rid, r) =>
    let depth := (t.nodes.getD node ⟨0, 63, 99, 0, []⟩).depth
    match nodeOutcome r.greedy r.seed t node l with
    | none => s
    | some o =>
      if !t.committed && decide (t.old = 0) && decide (node < t.nodes.length) && decide (depth < t.chunks) then
        let t1 := { t with outs := SMap.put t.outs node o }
        let s1 := s.modTree p slot fun _ => t1
        match walkTree t1 (t1.nodes.length + 1) 0 [] with
        | none => s1
        | some (path, bonus) => commitWalk p slot rid t1 path bonus s1
      else s
  | _, _ => s

/-- TREE_PAGES_RELEASE (R146): with no chunk of the old tree in flight, pages of positions beyond the KV length that the
next tree, or the next decode step where its depth is 0, does not hold leave the chains of target and draft. -/
def treePagesRelease (p slot : Nat) (s : State) : State :=
  match s.tree p slot, reqOfSlot s p slot with
  | some t, some (_, r) =>
    let v := s.sess r.session
    if t.old = 0 ∧ (t.committed = false ∨ t.inflight = 0) then
      let top := if t.committed then v.kvLen + (if 0 < r.inflight then 1 else 0) else Nat.max v.kvLen (t.pos + 1 + t.widths.foldl (· + ·) 0)
      let s1 := truncSession p r.session top s (edge := false)
      match r.dslot with
      | some _ => truncSession r.dpart r.session top s1 (edge := false)
      | none => s1
    else s
  | _, _ => s

/-- A tree buffer word that cannot be corrected (R140): nothing commits, the tree is rewound and discarded. -/
def treeUe (p slot code : Nat) (s : State) : State :=
  match s.tree p slot, reqOfSlot s p slot with
  | some t, some (rid, r) =>
    if t.committed then s
    else
      -- its pages are released once no chunk of it is in flight (R146)
      let s1 := s.modSess r.session fun v => { v with kvLen := Nat.min v.kvLen t.pos, dkv := Nat.min v.dkv t.pos }
      let s2 := (s1.modTree p slot fun z => { z with committed := true, drafting := false }).modReq rid fun q => { q with ready := true }
      s2.err pgAcc 1 code (slot + p * 2 ^ 16) (pack [(0, p), (2, slot)]) true
  | _, _ => s

/-! ### Page tags, path moves and grants at a holder (05 R145, 06 R161-R168) -/

/-- The session that a step slot works for, with its tenant and share group; on a member of a span as its head says (06 R167, 13
R332). -/
def slotOwner (s : State) (p slot : Nat) : Option (Nat × Nat × Nat) :=
  match reqOfSlot s p slot with
  | some (_, r) => let v := s.sess r.session; some (r.session, v.tenant, v.group.getD 0)
  | none =>
    -- in a replay's target the chains of a sequence are numbered for the replay (17 R424)
    if (s.part p).replayOf then (s.rp.seqs.findIdx? fun q => q.slot = slot).map fun i =>
      let v := s.sess (((s.rp.seqs[i]?).map (·.session)).getD 0)
      (rpChain i, v.tenant, v.group.getD 0)
    else SMap.find (s.part p).spanSeqs slot

/-- The first page of a step's chains at a stage that fails the tag check. -/
def tagFail (s : State) (p g : Nat) (t : Tok) : Option (Nat × Nat) :=
  t.ents.findSome? fun e => match slotOwner s p e.slot with
    | none => none
    | some (sess, ten, grp) =>
      let q := s.pool p
      q.groups.zipIdx.findSome? fun h =>
        if h.1.stage ≠ g then none
        else (q.chain sess h.2).pages.findSome? fun pg => match SMap.find q.pages pg with
          | some x => if tagPass x ten grp then none else some (pg, e.slot)
          | none => none

/-- The stage does the path moves it owes for the slots of a step, in increasing k, once. -/
def doMoves (p g : Nat) (t : Tok) (s : State) : State :=
  t.ents.foldl (fun u e =>
    let k := p * 4096 + e.slot
    match SMap.find u.spec.moves k, reqOfSlot u p e.slot with
    | some mv, some (_, r) =>
      if (SMap.get u.spec.moved [] k).contains g then u
      else
        let q := u.pool p
        let w := (q.groups.zipIdx.filter fun h => h.1.stage = g).foldl (fun a h =>
          mv.foldl (moveSlot p (q.chain r.session h.2)) a) u
        { w with spec := { w.spec with moved := SMap.put w.spec.moved k (SMap.get w.spec.moved [] k ++ [g]) } }
    | _, _ => u) s

/-- A stage writes K and V of one position of a chain (04 R113), and what the trailer says of it (06 R156): first_pos with slot 0,
live. -/
def writeSlot (p ck gi step : Nat) (c : Chain) (s : State) (pos : Nat) : State :=
  match locate (s.pool p) c pos with
  | none => s
  | some (pg, j) =>
    let s1 := (slotRanges (s.pool p).fmt j).foldl (fun t x =>
      putPageBytes p pg x.1 ((List.range x.2).map fun k => Config.kvByte p step gi pos (x.1 + k)) t) s
    let s2 := if j = 0 then putPageBytes p pg 0x3FF0 (leBytes 4 pos) s1 else s1
    let s3 := putPageBytes p pg 0x3FF4 (leBytes 1 (Nat.max (liveTold s p pg) (liveOf s p pg (j + 1)))) s2
    s3.modPool p fun q => { q with chains := SMap.mod q.chains ck fun x => { x with wr := Nat.max x.wr (pos + 1) } }

/-- K and V of a step's positions, in the chains of a stage. -/
def stageWrites (p g : Nat) (t : Tok) (s : State) : State :=
  let q := s.pool p
  t.ents.foldl (fun u e => match slotOwner u p e.slot with
    | none => u
    | some (sess, _, _) => (q.groups.zipIdx.filter fun h => h.1.stage = g).foldl (fun a h =>
        ((List.range e.ntok).map (e.pos + ·)).foldl (writeSlot p (chainKey sess h.2) h.2 t.step (q.chain sess h.2)) a) u) s

/-- The first grant of a core's queue that `sel` picks, and the rest. -/
def takeGrant (core : Nat) (sel : Grant → Bool) : List Grant → Option (Grant × List Grant)
  | [] => none
  | g :: r => if g.core = core && sel g then some (g, r) else (takeGrant core sel r).map fun x => (x.1, g :: x.2)

/-- The trailer that a newly granted page gets: zero but for page number, layer, head and format (06 R156). -/
def zeroTrailer (fmt : Nat) (g : Grant) : List Byte :=
  List.replicate 245 0#8 ++ leBytes 1 fmt ++ leBytes 2 (g.layer + g.head * 256) ++ leBytes 4 g.page ++ leBytes 4 0

/-- Entries of a local list stand in chain order (06 R161). -/
def PEnt.key (e : PEnt) : Nat := (e.layer * 16 + e.head) * 2 ^ 32 + e.idx
def insEnt (e : PEnt) : List PEnt → List PEnt
  | [] => [e]
  | f :: r => if e.key ≤ f.key then e :: f :: r else f :: insEnt e r

def delEnt (l : List PEnt) (pg : Nat) : List PEnt := l.filter fun e => e.frame ≠ pageFrame pg
def addEnt (l : List PEnt) (g : Grant) : List PEnt := insEnt ⟨pageFrame g.page, g.head, g.layer, g.idx⟩ (delEnt l g.page)

/-- A holder applies a grant (06 R161). -/
def applyGrant (p : Nat) (g : Grant) (s : State) : State :=
  let list (f : List PEnt → List PEnt) (t : State) : State := setList p g.core g.slot f t
  match g.op with
  | .allocate => list (fun l => addEnt l g) (putPageBytes p g.page 0x3F00 (zeroTrailer (s.pool p).fmt g) s)
  | .share | .copy => list (fun l => addEnt l g) s
  | .release => list (fun l => delEnt l g.page) s
  | .truncate => putPageBytes p g.page 0x3FF4 (leBytes 1 (Nat.min (liveTold s p g.page) (liveOf s p g.page g.slots))) s

/-- The bytes of a copy (06 R164): the source's slots below the writer's length, scores and mask bits, trailer. -/
def copyPage (p : Nat) (g : Grant) (s : State) : State :=
  let q := s.pool p
  let s1 := (slotParts q.fmt g.slots ++ [(0x3F00, 2 * g.slots)]).foldl (fun t (x : Nat × Nat) => copyBytes p g.src x.1 g.page x.1 x.2 t) s
  let m := maskOf s p g.src % 2 ^ g.slots
  let s2 := setMask p g.page m s1
  let fp := ((SMap.find q.pages g.page).getD { st := .priv }).firstPos
  putPageBytes p g.page 0x3FF0 (leBytes 4 fp ++ leBytes 1 (liveOf s2 p g.page g.slots) ++ leBytes 1 q.fmt) s2

/-- A copy lands; one whose source or frame the slot may not touch moves nothing, and the frame it should have filled is lost with
the page that failed (06 R167, R168). -/
def landCopy (p : Nat) (g : Grant) (s : State) : State :=
  let bad := match slotOwner s p g.slot with
    | some (sess, _, _) => [g.src, g.page].find? fun pg => tagBad s p sess pg
    | none => none
  match bad with
  | some pg => tagMismatch p pg g.slot (s.modPart p fun q => { q with lostDue := q.lostDue ++ [g.page] })
  | none => applyGrant p g (copyPage p g s)

/-! ### Ageing (06 R172, R173) -/

/-- FP16 scores compared as numbers; scores are never negative (R172). -/
def insScore (sc : Nat → Nat) (j : Nat) : List Nat → List Nat
  | [] => [j]
  | i :: r => if sc i < sc j then j :: i :: r else i :: insScore sc j r

/-- Slots to keep: the `n` highest scores, the lower slot on ties. -/
def keepSlots (sc : Nat → Nat) (fill n : Nat) : List Nat := ((List.range fill).foldl (fun l j => insScore sc j l) []).take n

/-- Whether a page's last slot lies below the window base of its chain: the slots written less the window (R160, R172). -/
def hasAged (q : KvPool) (pg : Nat) : Bool :=
  let win := bitsOf q.hcfg.toNat 16 16
  q.chains.any fun e => match e.2.pages.findIdx? (· = pg) with
    | some i => decide (e.2.removed + (i + 1) * q.slots + win ≤ e.2.wr)
    | none => false

/-- A page that its holder still has to examine, since it has aged (R173). -/
def ageDue (q : KvPool) (pg : Nat) : Bool :=
  (SMap.find q.pages pg).any fun g =>
    !g.aged && hasAged q pg && decide (bitsOf q.hcfg.toNat 0 1 = 1) && decide (g.st ≠ .lost)

/-- The session whose chain holds a page. -/
def sessOfPage (q : KvPool) (pg : Nat) : Option Nat := (q.holderOf pg).map fun e => e.1 / 65536

/-- PAGE_AGE_EXAMINE (R173). -/
def ageExamine (p pg : Nat) (s : State) : State :=
  let q := s.pool p
  match SMap.find q.pages pg with
  | none => s
  | some g =>
    -- the examination reads the trailer
    let s := if ageDue q pg then pageReads p pg 0x3F00 256 s else s
    if ageDue q pg = false then s
    else if (sessOfPage q pg).any fun i => tagBad s p i pg then
      tagMismatch p pg (((sessOfPage q pg).bind (slotOf s p)).getD 0) s
    else
      let setAged (t : State) : State := t.modPool p fun u => { u with pages := SMap.mod u.pages pg fun x => { x with aged := true } }
      let mark (t : State) : State :=
        setAged (putPageBytes p pg 0x3FF5 (leBytes 1 (leNat (pageBytes t p pg 0x3FF5 1) ||| 2)) t)
      if g.st = .shared ∨ g.firstPos < bitsOf q.hcfg2.toNat 0 8 then mark s
      else
        let sc (j : Nat) : Nat := leNat (pageBytes s p pg (0x3F00 + 2 * j) 2) % 2 ^ 15
        let keep := keepSlots sc g.fill (bitsOf q.hcfg.toNat 8 7)
        let masked := (List.range g.fill).filter fun j => !keep.contains j
        let m := masked.foldl (fun a j => a ||| 2 ^ j) (maskOf s p pg)
        let s1 := putPageBytes p pg 0x3FF4 (leBytes 1 keep.length) (setMask p pg m s)
        removeNodesOf p pg (kvBump (mark s1) p 0x194 masked.length)

end Sys2Proof.Machine
end

