-- ==== Sys2Proof/Machine/VecOps.lean ====
section
/-! DEFINITION. Lane arithmetic of the vector unit (08 R227-R229): lane types, fixed-tree sums, the transcendental
functions, conversion between lane types; and the scalar arithmetic of the control unit (07 R187). -/

namespace Sys2Proof.Machine

/-! ### Scalar arithmetic -/

/-- Leading zeros of a 64-bit value. -/
def clz64 (v : W64) : Nat := ((List.range 64).find? fun i => v.getLsbD (63 - i)).getD 64
def popc64 (v : W64) : Nat := ((List.range 64).filter fun i => v.getLsbD i).length

/-- A shift by 64 or more is a value the spec does not state (notes/assumptions/4.md). -/
def shiftBy (op : Nat) (f : W64 → Nat → W64) (a b d : W64) : W64 :=
  if b.toNat < 64 then f a b.toNat else Config.scalar op a b d

def boolW (b : Bool) : W64 := if b then 1 else 0

/-! ### FP32 lanes -/

/-- floor of the square root, from bit `n` down. -/
def isqrtGo (v : Nat) : (n acc : Nat) → Nat
  | 0, acc => acc
  | n + 1, acc =>
    let t := acc + 2 ^ n
    isqrtGo v n (if t * t ≤ v then t else acc)
def isqrt (v : Nat) : Nat := isqrtGo v (Nat.log2 v / 2 + 1) 0

/-- Order of finite and infinite codes, −0 below +0. -/
def orderKey (w : Nat) (c : Nat) : Int := if bitAt c (w - 1) then -((c % 2 ^ (w - 1) : Nat) : Int) - 1 else (c : Int)

/-- A format's codes for IEEE arithmetic without saturation: FP32, FP16 (R227). -/
def fmtFp (f : EF) (x : Fp) : Nat := fpEncode f.ew f.mw x

def fMax (f : EF) (a b : Nat) : Nat :=
  if (f.decode a).isNan || (f.decode b).isNan then f.nan
  else if orderKey (1 + f.ew + f.mw) a < orderKey (1 + f.ew + f.mw) b then b else a
def fMin (f : EF) (a b : Nat) : Nat :=
  if (f.decode a).isNan || (f.decode b).isNan then f.nan
  else if orderKey (1 + f.ew + f.mw) b < orderKey (1 + f.ew + f.mw) a then b else a

/-! ### Transcendental functions (R228)

Each is evaluated in fixed point with 320 fraction bits; one of the FP32 magnitude codes within 2 units in the last place of
that value is the result (notes/assumptions/25.md). -/

def fxBits : Nat := 320
def fxOne : Nat := 2 ^ fxBits
def fxMul (a b : Nat) : Nat := a * b / fxOne

/-- 2 atanh(z) = 2 (z + z³/3 + …), `n` terms. -/
def fxAtanh2 (z : Nat) : Nat :=
  let z2 := fxMul z z
  2 * ((List.range 110).foldl (fun (a : Nat × Nat) i => (a.1 + a.2 / (2 * i + 1), fxMul a.2 z2)) (0, z)).1
def fxLn2 : Nat := fxAtanh2 (fxOne / 3)

/-- e^x for 0 ≤ x < 1. -/
def fxExpSmall (x : Nat) : Nat :=
  ((List.range 80).foldl (fun (a : Nat × Nat) i => (a.1 + a.2, fxMul a.2 x / (i + 1))) (0, fxOne)).1

/-- e^(±x), x in fixed point: significand (fixed point) and power of two. -/
def fxExp (neg : Bool) (x : Nat) : Nat × Int :=
  let l := fxLn2
  if neg then
    let n := x / l + 1
    (fxExpSmall (n * l - x), -(n : Int))
  else (fxExpSmall (x % l), (x / l : Nat))

/-- m times 2^e in fixed point, rounded down. -/
def toFx (m : Nat) (e : Int) : Nat := let k := e + fxBits; m * 2 ^ k.toNat / 2 ^ (-k).toNat

/-- Where an exact magnitude lies: the code at or below it (0x7F800000 where it is 2^128 or more), whether it is that code's
value, whether it lies at most half way to the next. -/
structure Floor where
  code : Nat
  exact : Bool := false
  low : Bool := false
  deriving DecidableEq, Repr

/-- The floor of num / den times 2^e. -/
def floorCode (num den : Nat) (e : Int) : Floor :=
  if num = 0 then ⟨0, true, true⟩
  else
    let t := EF.fp32.floorQ num den e
    ⟨Nat.min t.1 0x7F800000, decide (t.2.1 = 0), decide (2 * t.2.1 ≤ t.2.2)⟩

/-- The magnitude codes within 2 units in the last place of a value (R228): a unit is the distance of the value's own binade, half
of which is the distance of the codes below a power of two. -/
def nearCodes (f : Floor) : List Nat :=
  let c := f.code
  let edge (k : Nat) : Bool := decide (k % 2 ^ 23 = 0) && decide (2 ^ 23 < k)
  let above := if edge (c + 1) then [c, c + 1] else [c, c + 1, c + 2]
  let below :=
    if edge c then (if f.exact then 4 else if f.low then 3 else 2)
    else if edge (c - 1) then (if f.exact then 3 else if f.low then 2 else 1)
    else if f.exact then 2 else 1
  if 0x7F800000 ≤ c then [0x7F800000] else above ++ (List.range below).map fun k => c - 1 - k

/-- The floor of a value of a function that is no FP32 value: it lies strictly above it. -/
def inexact (f : Floor) : Floor := { f with exact := false }

/-- The one of them that the device gives (notes/assumptions/25.md). -/
def nearCode (fn : Nat) (x : W32) (f : Floor) : Nat :=
  let l := nearCodes f
  l.getD (Config.ulps fn x % l.length) f.code

def fNan : W32 := 0x7FC00000#32
def fInf (n : Bool) : W32 := if n then 0xFF800000#32 else 0x7F800000#32
def signW (n : Bool) (mag : Nat) : W32 := BitVec.ofNat 32 ((if n then 2 ^ 31 else 0) + mag)

def vexp (x : W32) : W32 :=
  match f32 x with
  | .nan => fNan
  | .inf n => if n then 0#32 else fInf false
  | .fin n m e =>
    if leMag (110, 0) (m, e) then (if n then signW false (nearCode 8 x ⟨0, false, true⟩) else fInf false)
    else
      let r := fxExp n (toFx m e)
      signW false (nearCode 8 x (if m = 0 then ⟨0x3F800000, true, true⟩ else inexact (floorCode r.1 1 (r.2 - fxBits))))

def vlog (x : W32) : W32 :=
  match f32 x with
  | .nan => fNan
  | .inf n => if n then fNan else fInf false
  | .fin n m e =>
    if m = 0 then fInf true
    else if n then fNan
    else
      let k := Nat.log2 m
      let f := m * fxOne / 2 ^ k
      let l := fxAtanh2 ((f - fxOne) * fxOne / (f + fxOne))
      let v : Int := (k + e) * fxLn2 + l
      if v = 0 then 0#32 else signW (decide (v < 0)) (nearCode 9 x (inexact (floorCode v.natAbs 1 (-(fxBits : Int)))))

def vrcp (x : W32) : W32 :=
  match f32 x with
  | .nan => fNan
  | .inf n => signW n 0
  | .fin n m e => if m = 0 then fInf n else signW n (nearCode 10 x (floorCode 1 m (-e)))

/-- floor of 2^400 sqrt(v) for v = m times 2^e, with the exactness. -/
def sqrtFx (num den : Nat) (e : Int) : Nat × Bool :=
  let k := e + 800
  let t := num * 2 ^ k.toNat / (den * 2 ^ (-k).toNat)
  let r := isqrt t
  (r, decide (r * r = t ∧ num * 2 ^ k.toNat % (den * 2 ^ (-k).toNat) = 0))

def vrsq (x : W32) : W32 :=
  match f32 x with
  | .nan => fNan
  | .inf n => if n then fNan else 0#32
  | .fin n m e =>
    if m = 0 then fInf n
    else if n then fNan
    else
      let r := sqrtFx 1 m (-e)
      let c := floorCode r.1 1 (-400)
      signW false (nearCode 11 x { c with exact := c.exact && r.2 })

/-- Square root, correctly rounded, in a format. -/
def fSqrt (f : EF) (c : Nat) : Nat :=
  match f.decode c with
  | .nan => f.nan
  | .inf n => if n then f.nan else f.top + 1
  | .fin n m e =>
    if m = 0 then c
    else if n then f.nan
    else
      let r := sqrtFx m 1 e
      fpRound f.ew f.mw false r.1 (-400) (!r.2)

def vtanh (x : W32) : W32 :=
  match f32 x with
  | .nan => fNan
  | .inf n => signW n 0x3F800000
  | .fin n m e =>
    if m = 0 then x
    else if leMag (40, 0) (m, e) then signW n (nearCode 13 x ⟨0x3F7FFFFF, false, false⟩)
    else
      let r := fxExp false (2 * toFx m e)
      let ex := r.1 * 2 ^ r.2.toNat
      signW n (nearCode 13 x (inexact (floorCode (ex - fxOne) (ex + fxOne) 0)))

/-! ### Lane types (07 R186) -/

def halves (f : Nat → Nat → Nat) (a b : W32) : W32 :=
  BitVec.ofNat 32 (f (a.toNat % 65536) (b.toNat % 65536) + 65536 * f (a.toNat / 65536) (b.toNat / 65536))

/-- Widen a BF16 code to FP32. -/
def bfWide (c : Nat) : W32 := BitVec.ofNat 32 (c * 65536)
/-- An FP32 result rounded to BF16, to nearest even, without saturation. -/
def bfRound (v : W32) : Nat := fmtFp .bf16 (f32 v)

/-- A two-operand lane operation from its exact form and its INT32 form. -/
def laneOp2 (ty : Nat) (fp : Fp → Fp → Fp) (int : W32 → W32 → W32) (a b : W32) : W32 :=
  match ty with
  | 0 => toF32 (fp (f32 a) (f32 b))
  | 1 => int a b
  | 2 => halves (fun x y => bfRound (toF32 (fp (f32 (bfWide x)) (f32 (bfWide y))))) a b
  | _ => halves (fun x y => fmtFp .fp16 (fp (EF.fp16.decode x) (EF.fp16.decode y))) a b

/-- A lane operation on codes: max and min. -/
def laneCodes (ty : Nat) (f : EF → Nat → Nat → Nat) (int : W32 → W32 → W32) (a b : W32) : W32 :=
  match ty with
  | 0 => BitVec.ofNat 32 (f .fp32 a.toNat b.toNat)
  | 1 => int a b
  | 2 => halves (f .bf16) a b
  | _ => halves (f .fp16) a b

/-- One of the six comparisons from "less" and "equal": 0 equal, 1 not equal, 2 less, 3 not above, 4 above, 5 not less. -/
def cmpHolds (k : Nat) (lt eq : Bool) : Bool :=
  match k with
  | 0 => eq | 1 => !eq | 2 => lt | 3 => lt || eq | 4 => !(lt || eq) | _ => !lt

/-- Order of codes as numbers: −0 equals +0. -/
def numKey (w c : Nat) : Int := if bitAt c (w - 1) then -((c % 2 ^ (w - 1) : Nat) : Int) else (c : Int)

/-- A comparison of two codes: with a NaN only "not equal" holds (R227). -/
def cmpFp (f : EF) (k a b : Nat) : Bool :=
  if (f.decode a).isNan || (f.decode b).isNan then decide (k = 1)
  else
    let w := 1 + f.ew + f.mw
    cmpHolds k (decide (numKey w a < numKey w b)) (decide (numKey w a = numKey w b))

/-- VCMP of a lane: whether the comparison holds for the low and for the high half; a 32-bit lane has one answer. -/
def laneCmp (ty k : Nat) (a b : W32) : Bool × Bool :=
  let half (f : EF) : Bool × Bool :=
    (cmpFp f k (a.toNat % 65536) (b.toNat % 65536), cmpFp f k (a.toNat / 65536) (b.toNat / 65536))
  let one (r : Bool) : Bool × Bool := (r, r)
  match ty with
  | 0 => one (cmpFp .fp32 k a.toNat b.toNat)
  | 1 => one (cmpHolds k (decide (a.toInt < b.toInt)) (decide (a = b)))
  | 2 => half .bf16
  | _ => half .fp16

def intMax (a b : W32) : W32 := if a.toInt < b.toInt then b else a
def intMin (a b : W32) : W32 := if b.toInt < a.toInt then b else a

/-- Fused multiply-add, one rounding (R227): a b + d. -/
def laneFma (ty : Nat) (a b d : W32) : W32 :=
  let half (g : Nat → Nat → Nat → Nat) : W32 := BitVec.ofNat 32
    (g (a.toNat % 65536) (b.toNat % 65536) (d.toNat % 65536) +
      65536 * g (a.toNat / 65536) (b.toNat / 65536) (d.toNat / 65536))
  match ty with
  | 0 => toF32 (((f32 a).mul (f32 b)).add (f32 d))
  | 1 => a * b + d
  | 2 => half fun x y z => bfRound (toF32 (((f32 (bfWide x)).mul (f32 (bfWide y))).add (f32 (bfWide z))))
  | _ => half fun x y z => fmtFp .fp16 (((EF.fp16.decode x).mul (EF.fp16.decode y)).add (EF.fp16.decode z))

/-- A one-operand lane operation: FP32, INT32; BF16 through FP32, FP16 directly. -/
def laneOp1 (ty : Nat) (f : W32 → W32) (int : W32 → W32) (h : Nat → Nat) (a : W32) : W32 :=
  match ty with
  | 0 => f a
  | 1 => int a
  | 2 => halves (fun x _ => bfRound (f (bfWide x))) a a
  | _ => halves (fun x _ => h x) a a

/-- |x| and −x of a code; a NaN becomes the canonical NaN. -/
def fAbs (f : EF) (c : Nat) : Nat := if (f.decode c).isNan then f.nan else c % 2 ^ (f.ew + f.mw)
def fNeg (f : EF) (c : Nat) : Nat :=
  if (f.decode c).isNan then f.nan
  else if bitAt c (f.ew + f.mw) then c % 2 ^ (f.ew + f.mw) else c + 2 ^ (f.ew + f.mw)

/-- Binary16 of a function of binary32. -/
def via32 (f : W32 → W32) (c : Nat) : Nat := fmtFp .fp16 (f32 (f (toF32 (EF.fp16.decode c))))

/-- VRSUM (R228): the fixed tree, FP32 with rne32 after each addition. -/
def treeAdd (ty : Nat) (a b : W32) : W32 :=
  if ty = 0 then (rne32 ((f32 a).add (f32 b))).1 else laneOp2 ty Fp.add (· + ·) a b
def treeSum (ty : Nat) : (n : Nat) → List W32 → W32
  | 0, l => l.headD 0
  | n + 1, l => treeSum ty n (((l.take (2 ^ n)).zip (l.drop (2 ^ n))).map fun e => treeAdd ty e.1 e.2)

/-! ### VCVT (R229) -/

/-- The FP32-to-INT32 conversion: nearest even, saturating, NaN to 0. -/
def toInt32 (x : Fp) : W32 :=
  match x with
  | .nan => 0#32
  | .inf n => if n then 0x80000000#32 else 0x7FFFFFFF#32
  | .fin n m e =>
    let v := rneShift (m * 2 ^ e.toNat) (-e).toNat false
    if n then (if 2 ^ 31 ≤ v then 0x80000000#32 else BitVec.ofInt 32 (-(v : Int)))
    else if 2 ^ 31 ≤ v then 0x7FFFFFFF#32 else BitVec.ofNat 32 v

def halfOf (v : W32) (hi : Bool) : Nat := if hi then v.toNat / 65536 else v.toNat % 65536

/-- One lane of VCVT: source type, destination type, half, source lane, destination lane before. -/
def cvtLane (src dst : Nat) (hi : Bool) (a old : W32) : W32 :=
  let x : Fp := match src with
    | 0 => f32 a
    | 1 => .fin (decide (a.toInt < 0)) a.toInt.natAbs 0
    | 2 => f32 (bfWide (halfOf a hi))
    | _ => EF.fp16.decode (halfOf a hi)
  let put (c : Nat) : W32 :=
    BitVec.ofNat 32 (if hi then old.toNat % 65536 + 65536 * c else old.toNat / 65536 * 65536 + c)
  match dst with
  | 0 => toF32 x
  | 1 => if src = 1 then a else toInt32 x
  | 2 => put (EF.bf16.conv x)
  | _ => put (EF.fp16.conv x)

end Sys2Proof.Machine
end

