-- ==== Sys2Proof/Machine/CoreOps.lean ====
section
/-! DEFINITION. What the instructions of a core share (07): registers, regions, the scoreboard, program faults, the
frame in which an instruction issues and retires, the counters of the scratchpad ports (09). -/

namespace Sys2Proof.Machine

/-! ### Registers of a core (R181) -/

def Core.greg (c : Core) (r : Nat) : W64 := if r = 0 then 0 else SMap.get c.g 0 r
def Core.setG (c : Core) (r : Nat) (x : W64) : Core := if r = 0 then c else { c with g := SMap.set c.g 0 r x }
def Core.vec (c : Core) (r : Nat) : List W32 := (List.range 64).map fun l => SMap.get c.v 0 (64 * r + l)
def Core.setV (c : Core) (r : Nat) (x : List W32) : Core :=
  { c with v := x.zipIdx.foldl (fun m e => SMap.set m 0 (64 * r + e.2) e.1) c.v }
def Core.accW (c : Core) (t r k : Nat) : W32 := SMap.get c.acc 0 (4096 * t + 64 * r + k)
def Core.setAccW (c : Core) (t r k : Nat) (x : W32) : Core :=
  { c with acc := SMap.set c.acc 0 (4096 * t + 64 * r + k) x }
def Core.accRow (c : Core) (t r : Nat) : List W32 := (List.range 64).map (c.accW t r)
def Core.setAccRow (c : Core) (t r : Nat) (x : List W32) : Core :=
  x.zipIdx.foldl (fun d e => d.setAccW t r e.2 e.1) c

/-- Set a tile's overflow flag (R192): CORE_ACC_OVF. -/
def setOvf (site t : Nat) (f : Bool) (s : State) : State :=
  if f then s.setReg64 (pgCore site) 0 0x130 (s.reg64 (pgCore site) 0 0x130 ||| 2 ^ t) else s

/-- Clear the overflow flags written as 1 (R189, R192). -/
def clearOvf (site : Nat) (v : W64) (s : State) : State :=
  let cur := BitVec.ofNat 64 (s.reg64 (pgCore site) 0 0x130)
  s.setReg64 (pgCore site) 0 0x130 (cur &&& (v ^^^ 0xFFFFFFFFFFFFFFFF#64)).toNat

/-! ### Instruction fields (R186) -/

/-- The 64-bit word of an instruction: opcode and bits [63:8]. -/
def insnOf (op : Nat) (w : BitVec 56) : Nat := op + 256 * w.toNat
def fD (i : Nat) : Nat := bitsOf i 8 5
def fA (i : Nat) : Nat := bitsOf i 13 5
def fB (i : Nat) : Nat := bitsOf i 18 5
def fI (i : Nat) : Bool := bitAt i 23
def fMod (i : Nat) : Nat := bitsOf i 24 8
def fImm (i : Nat) : Nat := bitsOf i 32 32
def fOp (i : Nat) : Nat := bitsOf i 0 8
/-- The immediate, sign-extended. -/
def fImmS (i : Nat) : W64 := (BitVec.ofNat 32 (fImm i)).signExtend 64
/-- Operand b: register b, or the immediate where bit i is set. -/
def opB (c : Core) (i : Nat) : W64 := if fI i then fImmS i else c.greg (fB i)

/-! ### Regions (R183-R185) -/

def rRow0 (d : W64) : Nat := bitsOf d.toNat 0 14
def rCol0 (d : W64) : Nat := bitsOf d.toNat 14 6
def rRows (d : W64) : Nat := bitsOf d.toNat 20 12 + 1
def rCols (d : W64) : Nat := bitsOf d.toNat 32 6 + 1
def rStep (d : W64) : Nat := Nat.max 1 (bitsOf d.toNat 40 8)
def rBytes (d : W64) : Nat := rRows d * rCols d * 32
/-- Out of range: program fault 0x1003. -/
def rBad (d : W64) : Bool := decide (64 < rCol0 d + rCols d) || decide (12287 < rRow0 d + (rRows d - 1) * rStep d)
/-- The range: first and last element address. -/
def rRange (d : W64) : Nat × Nat :=
  (64 * rRow0 d + rCol0 d, 64 * (rRow0 d + (rRows d - 1) * rStep d) + rCol0 d + rCols d - 1)
/-- Element addresses in region order. -/
def rElems (d : W64) : List Nat :=
  ((List.range (rRows d)).map fun r =>
    (List.range (rCols d)).map fun k => 64 * (rRow0 d + r * rStep d) + rCol0 d + k).flatten
/-- Byte address of row `r` of a region. -/
def rRowAt (d : W64) (r : Nat) : Nat := 32 * (64 * (rRow0 d + r * rStep d) + rCol0 d)
/-- The rows a region touches. -/
def rRowList (d : W64) : List Nat := (List.range (rRows d)).map fun r => rRow0 d + r * rStep d

def Core.readRegion (c : Core) (d : W64) : List Byte := ((rElems d).map fun e => Mem.read c.spad (32 * e) 32).flatten

/-- Write a byte string into elements, 32 bytes each, as far as it goes. -/
def writeElems (m : Mem) : List Nat → List Byte → Mem
  | _, [] => m
  | [], _ => m
  | e :: r, b => writeElems (Mem.write m (32 * e) (b.take 32)) r (b.drop 32)
def Core.writeRegion (c : Core) (d : W64) (b : List Byte) : Core := { c with spad := writeElems c.spad (rElems d) b }

/-- A row lies in a valid read-only weight region (R203). -/
def wregRow (s : State) (site row : Nat) : Bool :=
  (List.range 4).any fun k =>
    let w := s.regN (pgCore site) 0 (0x120 + 4 * k)
    bitAt w 31 && decide (bitsOf w 0 14 ≤ row) && decide (row ≤ bitsOf w 16 14)

/-! ### The scoreboard (R195-R197) -/

def overlaps (a b : Nat × Nat) : Bool := decide (a.1 ≤ b.2) && decide (b.1 ≤ a.2)
def Core.xfers (c : Core) : List QXfer := (c.qs.map (·.2)).flatten
/-- H: entries that queue transfers hold until a WAIT retires them. -/
def Core.held (c : Core) : Nat := c.xfers.length
/-- A pending write (a load not complete) or a pending read (a store not complete) overlaps a range. -/
def Core.pendW (c : Core) (r : Nat × Nat) : Bool := c.xfers.any fun x => !x.store && !x.done && overlaps r (rRange x.desc)
def Core.pendR (c : Core) (r : Nat × Nat) : Bool := c.xfers.any fun x => x.store && !x.done && overlaps r (rRange x.desc)
/-- An operand: its range, whether it is written. -/
def Core.mustHold (c : Core) (o : (Nat × Nat) × Bool) : Bool := c.pendW o.1 || (o.2 && c.pendR o.1)

/-! ### Program faults (R203-R205) -/

/-- The event data of a program fault. -/
def faultData (pc insn : Nat) (r : Nat × Nat) : BitVec 128 :=
  pack [(0, pc), (4, insn), (12, r.1 % 2 ^ 20 + Nat.min 4095 (r.2 + 1 - r.1) * 2 ^ 20)]

/-- A program fault: `rng` the reported range, `far` the far address of 0x1005 and 0x100A, `target` a queue or counter. -/
def progFault (site insn code : Nat) (rng : Option (Nat × Nat)) (far target : Nat) (s : State) : State :=
  let c := s.core site
  let first := decide ((s.blk (pgCore site)).errStat &&& 0x7FFFFFFF#32 = 0)
  let r := rng.getD (0, 0)
  let p := pgCore site
  let s1 := if first then
      (((s.setRegN p 0 0x150 c.pc).setReg64 p 0 0x158 insn).setReg64 p 0 0x160
        (match rng with
         | some e => e.1 % 2 ^ 20 + e.2 % 2 ^ 20 * 2 ^ 20 + target * 2 ^ 40
         | none => target * 2 ^ 40)).setReg64 p 0 0x168 far
    else s
  let data := match rng with
    | some _ => faultData c.pc insn r
    | none => pack [(0, c.pc), (4, insn)]
  let s2 := coreFault site 0 code data s1
  endIfAgain c.pf site s (s2.modCore site fun d => { d with pf := true, fcode := code })

/-- A condition of an instruction: it holds, its code, the range reported, the far address. -/
structure Chk where
  bad : Bool
  code : Nat
  rng : Option (Nat × Nat) := none
  far : Nat := 0
  deriving DecidableEq, Repr

/-! ### Issue (R186, R196, R204) -/

/-- Words corrected in a core's storage: CORE_ECC_CE and GLB_CNT_CE (16 R378, R393). -/
def ceWords (site n : Nat) (s : State) : State := (s.bump (pgCore site) 0 0x210 n).bump pgFault 0 0x180 n

/-- The frame that holds a scratchpad element, as a page of the partition's pool: the core's KV region (06 R157). -/
def framePage (s : State) (site e : Nat) : Option (Nat × Nat) :=
  match boundAt s site with
  | none => none
  | some (p, c) =>
    let k := (s.pool p).kvCore c
    let a := 32 * e
    if k.base ≤ a ∧ a < k.base + 16384 * k.frames then some (p, pageNo c ((a - k.base) / 16384)) else none

/-- An uncorrectable word that a core's instruction reads (16 R381): the instruction has no effect; the location goes to
ERR_LOC, the core to FAULTED. A page that holds a scratchpad word is reported lost at the next Equinox. -/
def wordFault (site : Nat) (u : WordErr) (s : State) : State :=
  let pg := pgCore site
  let d := pack [(0, agCore site), (4, match u with | .spad e => e | _ => 0)]
  let loc := BitVec.ofNat 64 (coreLoc s site)
  let s1 := ((s.bump pg 0 0x214).bump pgFault 0 0x184).modBlk pg fun b =>
    if b.errStat &&& 0x7FFFFFFF#32 = 0 then { b with errLoc := loc } else b
  match u with
  | .acc => haltCore site ((s1.raise pg 0x2003 d).modCore site fun c => { c with fcode := 0x2003 })
  | .ctl => coreFault site 2 0x2004 d (s1.modCore site fun c => { c with fcode := 0x2004 })
  | .spad e =>
    let s2 := (s1.raise pg 0x2002 d).modCore site fun c => { c with fcode := 0x2002, fbads := c.fbads ++ [e] }
    let s3 := match framePage s site e with
      | some (p, pg) => s2.modPart p fun q => { q with lostDue := q.lostDue ++ [pg] }
      | none => s2
    haltCore site s3

/-- A core that issues: its block RUNNING, its island on and clocked, no WAIT in progress (02 R36, R201). -/
def canIssue (s : State) (site : Nat) : Bool :=
  running s (pgCore site) && (s.core site).on && !(s.core site).gated && (s.core site).wait.isNone

/-- The instruction retires: the next program counter, CORE_CNT_RETIRE. -/
def retire (site pc : Nat) (s : State) : State :=
  (s.modCore site fun c => { c with pc := pc % 2 ^ 25, lastRet := s.now }).bump (pgCore site) 0 0x200

/-- The queue that a fault at issue names: a queue overflow's (R200, CORE_FAULT_RANGE.target). -/
def faultTarget (code insn : Nat) : Nat := if code = 0x1009 then bitsOf insn 24 5 else 0

/-- An instruction at issue: an uncorrectable word it reads, the first condition that faults, a hold (nothing
happens), or its effect. -/
def issueWith (site insn : Nat) (ecc : Ecc) (chk : List Chk) (ops : List ((Nat × Nat) × Bool)) (eff : State → State)
    (s : State) : State :=
  match ecc.ue with
  | some u => wordFault site u (ceWords site ecc.ce s)
  | none =>
    match chk.find? (·.bad) with
    | some c => progFault site insn c.code c.rng c.far (faultTarget c.code insn) s
    | none =>
      if ops.any (s.core site).mustHold then s
      else eff (ceWords site ecc.ce s)

/-- An instruction with its command's frame: at a site, while the core issues. -/
def insnAct (site op : Nat) (w : BitVec 56) (f : Nat → State → State) (s : State) : Res :=
  act (decide (site < sites)) (when (canIssue s site) (f (insnOf op w))) s

/-- An instruction whose only effect is on the core's own registers. -/
def simple (site op : Nat) (w : BitVec 56) (ecc : Ecc) (chk : List Chk) (f : Nat → Core → Core) (s : State) : Res :=
  insnAct site op w (fun i t => issueWith site i ecc chk []
    (fun u => retire site ((u.core site).pc + 8) (u.modCore site (f i))) t) s

end Sys2Proof.Machine
end

