-- ==== Sys2Proof/Machine/FamVector.lean ====
section
/-! DEFINITION. Vector instructions of a core (07 R186-R188, 08 R227-R229). -/

namespace Sys2Proof.Machine

def laneTy (i : Nat) : Nat := fMod i % 4
/-- Operand b of a vector instruction: register b, or the immediate in every lane. -/
def vecB (c : Core) (i : Nat) : List W32 :=
  if fI i then List.replicate 64 (BitVec.ofNat 32 (fImm i)) else c.vec (fB i)

/-- v[d] := f of the instruction, the sources' lanes and the old lanes. -/
def vecOp (site op : Nat) (w : BitVec 56) (ecc : Ecc) (f : Nat → List W32 → List W32 → List W32 → List W32) (s : State) : Res :=
  simple site op w ecc [] (fun i c => c.setV (fD i) (f i (c.vec (fA i)) (vecB c i) (c.vec (fD i)))) s

/-- A lane-wise operation by lane type. -/
def lanes2 (f : Nat → W32 → W32 → W32) (i : Nat) (a b _ : List W32) : List W32 := List.zipWith (f (laneTy i)) a b
def lanes1 (f : Nat → W32 → W32) (i : Nat) (a _ _ : List W32) : List W32 := a.map (f (laneTy i))
/-- Lanes that the spec does not state (notes/assumptions/4.md). -/
def freeLanes (op : Nat) (i : Nat) (a b d : List W32) : List W32 :=
  (List.range 64).map fun l => Config.lane op (fMod i) l a b d

def execIVadd (site : Nat) (w : BitVec 56) (ecc : Ecc) (s : State) : Res :=
  vecOp site 0x40 w ecc (lanes2 fun ty => laneOp2 ty Fp.add (· + ·)) s
def execIVsub (site : Nat) (w : BitVec 56) (ecc : Ecc) (s : State) : Res :=
  vecOp site 0x41 w ecc (lanes2 fun ty => laneOp2 ty (fun x y => x.add y.neg) (· - ·)) s
def execIVmul (site : Nat) (w : BitVec 56) (ecc : Ecc) (s : State) : Res :=
  vecOp site 0x42 w ecc (lanes2 fun ty => laneOp2 ty Fp.mul (· * ·)) s
/-- VFMA: v[d] := v[a] v[b] + v[d] (notes/assumptions/24.md). -/
def execIVfma (site : Nat) (w : BitVec 56) (ecc : Ecc) (s : State) : Res :=
  vecOp site 0x43 w ecc (fun i a b d => List.zipWith (fun x y => laneFma (laneTy i) x.1 x.2 y) (a.zip b) d) s
def execIVmax (site : Nat) (w : BitVec 56) (ecc : Ecc) (s : State) : Res :=
  vecOp site 0x44 w ecc (lanes2 fun ty => laneCodes ty fMax intMax) s
def execIVmin (site : Nat) (w : BitVec 56) (ecc : Ecc) (s : State) : Res :=
  vecOp site 0x45 w ecc (lanes2 fun ty => laneCodes ty fMin intMin) s
def execIVabs (site : Nat) (w : BitVec 56) (ecc : Ecc) (s : State) : Res :=
  vecOp site 0x46 w ecc (lanes1 fun ty a =>
    laneCodes ty (fun f x _ => fAbs f x) (fun x _ => if x.toInt < 0 then -x else x) a a) s
def execIVneg (site : Nat) (w : BitVec 56) (ecc : Ecc) (s : State) : Res :=
  vecOp site 0x47 w ecc (lanes1 fun ty a => laneCodes ty (fun f x _ => fNeg f x) (fun x _ => -x) a a) s

/-- A function of binary32; INT32 lanes, for which the spec states no result, are free values. -/
def transc (op : Nat) (f : W32 → W32) (i : Nat) (a b d : List W32) : List W32 :=
  if laneTy i = 1 then freeLanes op i a b d else a.map (laneOp1 (laneTy i) f id (via32 f))

def execIVexp (site : Nat) (w : BitVec 56) (ecc : Ecc) (s : State) : Res := vecOp site 0x48 w ecc (transc 0x48 vexp) s
def execIVlog (site : Nat) (w : BitVec 56) (ecc : Ecc) (s : State) : Res := vecOp site 0x49 w ecc (transc 0x49 vlog) s
def execIVrcp (site : Nat) (w : BitVec 56) (ecc : Ecc) (s : State) : Res := vecOp site 0x4A w ecc (transc 0x4A vrcp) s
def execIVrsq (site : Nat) (w : BitVec 56) (ecc : Ecc) (s : State) : Res := vecOp site 0x4B w ecc (transc 0x4B vrsq) s
def vsqrt (x : W32) : W32 := BitVec.ofNat 32 (fSqrt .fp32 x.toNat)
def execIVsqrt (site : Nat) (w : BitVec 56) (ecc : Ecc) (s : State) : Res :=
  vecOp site 0x4C w ecc (fun i a b d =>
    if laneTy i = 1 then freeLanes 0x4C i a b d else a.map (laneOp1 (laneTy i) vsqrt id (fSqrt .fp16))) s
def execIVtanh (site : Nat) (w : BitVec 56) (ecc : Ecc) (s : State) : Res := vecOp site 0x4D w ecc (transc 0x4D vtanh) s

/-- VCVT (08 R229). -/
def execIVcvt (site : Nat) (w : BitVec 56) (ecc : Ecc) (s : State) : Res :=
  vecOp site 0x4E w ecc (fun i a _ d =>
    List.zipWith (cvtLane (fMod i % 4) (fMod i / 4 % 4) (bitAt (fMod i) 4)) a d) s

/-- VCMP: whether the comparison holds in each lane or half (08 R227); the encodings of the comparison and of its result are
free (notes/assumptions/4.md). -/
def execIVcmp (site : Nat) (w : BitVec 56) (ecc : Ecc) (s : State) : Res :=
  vecOp site 0x4F w ecc (fun i a b d => (List.range 64).map fun l =>
    let k := Config.cmpCode (fMod i) (fImm i) % 6
    let r := laneCmp (laneTy i) k (a.getD l 0) (b.getD l 0)
    Config.cmpWord (fMod i) r.1 r.2 (d.getD l 0)) s
/-- VSEL: the spec gives no encoding of the selector. -/
def execIVsel (site : Nat) (w : BitVec 56) (ecc : Ecc) (s : State) : Res := vecOp site 0x50 w ecc (freeLanes 0x50) s
def execIVand (site : Nat) (w : BitVec 56) (ecc : Ecc) (s : State) : Res := vecOp site 0x51 w ecc (lanes2 fun _ a b => a &&& b) s
def execIVor (site : Nat) (w : BitVec 56) (ecc : Ecc) (s : State) : Res := vecOp site 0x52 w ecc (lanes2 fun _ a b => a ||| b) s
def execIVxor (site : Nat) (w : BitVec 56) (ecc : Ecc) (s : State) : Res := vecOp site 0x53 w ecc (lanes2 fun _ a b => a ^^^ b) s

/-- A shift of 32-bit lanes, of 16-bit halves for the pair types; by the width or more it is a free value. -/
def shiftLanes (op : Nat) (f : Nat → Nat → Nat → Nat) (i : Nat) (a b d : List W32) : List W32 :=
  (List.range 64).map fun l =>
    let x := a.getD l 0
    let y := b.getD l 0
    let free := Config.lane op (fMod i) l a b d
    if laneTy i < 2 then (if y.toNat < 32 then BitVec.ofNat 32 (f 32 x.toNat y.toNat) else free)
    else if y.toNat % 65536 < 16 ∧ y.toNat / 65536 < 16 then halves (f 16) x y else free

def execIVshl (site : Nat) (w : BitVec 56) (ecc : Ecc) (s : State) : Res :=
  vecOp site 0x54 w ecc (shiftLanes 0x54 fun n x k => x * 2 ^ k % 2 ^ n) s
def execIVshr (site : Nat) (w : BitVec 56) (ecc : Ecc) (s : State) : Res :=
  vecOp site 0x55 w ecc (shiftLanes 0x55 fun _ x k => x / 2 ^ k) s

/-- A reduction: lane 0 holds the result; the spec states no other lane. -/
def reduceTo (op : Nat) (x : W32) (i : Nat) (a b d : List W32) : List W32 := x :: (freeLanes op i a b d).drop 1

def execIVrsum (site : Nat) (w : BitVec 56) (ecc : Ecc) (s : State) : Res :=
  vecOp site 0x56 w ecc (fun i a b d => reduceTo 0x56 (treeSum (laneTy i) 6 a) i a b d) s
def execIVrmax (site : Nat) (w : BitVec 56) (ecc : Ecc) (s : State) : Res :=
  vecOp site 0x57 w ecc (fun i a b d =>
    reduceTo 0x57 ((a.drop 1).foldl (laneCodes (laneTy i) fMax intMax) (a.headD 0)) i a b d) s
/-- VPERM, VBCAST, VMOVS: no operand roles are stated. -/
def execIVperm (site : Nat) (w : BitVec 56) (ecc : Ecc) (s : State) : Res := vecOp site 0x58 w ecc (freeLanes 0x58) s
def execIVbcast (site : Nat) (w : BitVec 56) (ecc : Ecc) (s : State) : Res := vecOp site 0x59 w ecc (freeLanes 0x59) s
/-- VMOVG writes a general register from a vector register; which lane is not stated. -/
def execIVmovg (site : Nat) (w : BitVec 56) (ecc : Ecc) (s : State) : Res :=
  simple site 0x5A w ecc [] (fun i c =>
    c.setG (fD i) (Config.laneG 0x5A (fMod i) (BitVec.ofNat 32 (fImm i)) (c.vec (fA i)))) s
def execIVmovs (site : Nat) (w : BitVec 56) (ecc : Ecc) (s : State) : Res :=
  simple site 0x5B w ecc [] (fun i c =>
    let x := c.greg (fA i)
    c.setV (fD i) (freeLanes 0x5B i [x.truncate 32, (x >>> 32).truncate 32] (vecB c i) (c.vec (fD i)))) s

/-- VARGMAX, VTOPK16 are illegal on stepping A1 (R188). -/
def b0Op (site op : Nat) (w : BitVec 56) (ecc : Ecc) (s : State) : Res :=
  simple site op w ecc [⟨!s.b0, 0x1002, none, 0⟩] (fun i c =>
    c.setV (fD i) (freeLanes op i (c.vec (fA i)) (vecB c i) (c.vec (fD i)))) s
def execIVargmax (site : Nat) (w : BitVec 56) (ecc : Ecc) (s : State) : Res := b0Op site 0x5C w ecc s
def execIVtopk16 (site : Nat) (w : BitVec 56) (ecc : Ecc) (s : State) : Res := b0Op site 0x5D w ecc s

/-! ### Vector memory (R187, R195) -/

/-- The element address g[a] + imm, and the conditions of a vector access: its 8 elements lie in one row. -/
def elemAddr (c : Core) (i : Nat) : Nat := (c.greg (fA i) + fImmS i).toNat
def vecChk (e : Nat) : List Chk :=
  [⟨decide (56 < e % 64), 0x1002, none, 0⟩, ⟨decide (12288 * 64 ≤ e), 0x1003, some (e, e + 7), 0⟩]
def needEntries (c : Core) (k : Nat) (rng : Nat × Nat) : Chk := ⟨decide (32 < c.held + k), 0x1004, some rng, 0⟩

/-- The 64 lanes of 256 bytes. -/
def lanesOf (b : List Byte) : List W32 := (List.range 64).map fun l => BitVec.ofNat 32 (leNat ((b.drop (4 * l)).take 4))
def bytesOf (v : List W32) : List Byte := (v.map fun x => leBytes 4 x.toNat).flatten

def vecLoad (site op : Nat) (w : BitVec 56) (ecc : Ecc) (f : Nat → List W32 → List W32 → List W32) (s : State) : Res :=
  insnAct site op w (fun i t =>
    let c := t.core site
    let e := elemAddr c i
    issueWith site i ecc (vecChk e ++ [needEntries c 1 (e, e + 7)]) [((e, e + 7), false)] (fun u =>
      let b := lanesOf (Mem.read (u.core site).spad (32 * e) 256)
      retire site ((u.core site).pc + 8) (countOperand site ((List.range 8).map (e + ·))
        (u.modCore site fun d => d.setV (fD i) (f i b (d.vec (fD i)))))) t) s

/-- A store of a vector: `f` gives for each lane what is written, none where the element keeps it. An element that is written in part
is read first (09 R240). -/
def vecStore (site op : Nat) (w : BitVec 56) (ecc : Ecc) (f : Nat → Core → List W32 → List W32 → List (Option W32))
    (s : State) : Res :=
  insnAct site op w (fun i t =>
    let c := t.core site
    let e := elemAddr c i
    issueWith site i ecc (vecChk e ++ [⟨wregRow t site (e / 64), 0x1008, some (e, e + 7), 0⟩, needEntries c 1 (e, e + 7)])
      [((e, e + 7), true)] (fun u =>
      let old := lanesOf (Mem.read (u.core site).spad (32 * e) 256)
      let new := f i c (c.vec (fB i)) old
      let lanes (k : Nat) : List (Option W32) := (new.drop (8 * k)).take 8
      let whole := (List.range 8).filter fun k => (lanes k).all (·.isSome)
      let some_ := (List.range 8).filter fun k => (lanes k).any (·.isSome)
      retire site ((u.core site).pc + 8) (countOperands site
        [(some_.filter fun k => !whole.contains k).map (e + ·), some_.map (e + ·)]
        (u.modCore site fun d => { d with
          spad := Mem.write d.spad (32 * e) (bytesOf ((List.range 64).map fun l => (new.getD l none).getD (old.getD l 0))) }))) t) s

def execIVld (site : Nat) (w : BitVec 56) (ecc : Ecc) (s : State) : Res := vecLoad site 0x60 w ecc (fun _ b _ => b) s
/-- VST stores v[b] (notes/assumptions/24.md). -/
def execIVst (site : Nat) (w : BitVec 56) (ecc : Ecc) (s : State) : Res := vecStore site 0x61 w ecc (fun _ _ v _ => v.map some) s
/-- VLDB and VSTM: which lanes take which elements, and the mask, are not stated: free values of the operands alone (08 R234). -/
def execIVldb (site : Nat) (w : BitVec 56) (ecc : Ecc) (s : State) : Res :=
  vecLoad site 0x62 w ecc (fun i b d => freeLanes 0x62 i b [] d) s
def execIVstm (site : Nat) (w : BitVec 56) (ecc : Ecc) (s : State) : Res :=
  vecStore site 0x63 w ecc (fun i c v old => (List.range 64).map fun l =>
    if (Config.lane 0x63 (fMod i) l v (c.vec (fD i)) old).getLsbD 0 then some (v.getD l 0) else none) s

end Sys2Proof.Machine
end

