-- ==== Sys2Proof/Machine/FabOps.lean ====
section
/-! DEFINITION. Links and routers of the Ihlyr fabric (10): the choice of a flit, delivery, multicast, reductions, end-to-end
retry, dead links. -/

namespace Sys2Proof.Machine

/-! ### Forwarding (R254) -/

/-- A flow's slot mask at a router. -/
def flowMask (s : State) (site flow : Nat) : Nat :=
  let e := tabEntry s site 0 flow
  if bitAt e 0 then bitsOf e 32 64 else 0

/-- The flows with a valid source entry: source, flow, destination (of a flow marked mcast its tree), slot mask. -/
def sourceFlows (s : State) : List (Nat × Nat × Nat × Nat) :=
  ((s.regs.filter fun e => decide (2 ^ 37 ≤ e.1) && decide (e.1 < 2 ^ 37 + 2 ^ 34) && decide (e.1 % 2 ^ 20 < 2 ^ 12) &&
      decide (e.1 % 4 = 0)).map fun e => (e.1 / 2 ^ 20 - 2 ^ 17, e.1 % 2 ^ 20 / 4)).filterMap fun x =>
    let v := tabEntry s x.1 0 x.2
    if bitAt v 0 && bitAt v 1 then
      some (x.1, x.2, if bitAt v 3 then treeBase + x.2 else siteAt (bitsOf v 12 7) (bitsOf v 19 7), bitsOf v 32 64)
    else none

/-- The links of the R251 path from `a` to `b`: router and output. -/
def pathLinks (b : Nat) : (fuel : Nat) → (a : Nat) → List (Nat × Nat)
  | 0, _ => []
  | f + 1, a =>
    if a = b then []
    else
      let d := dor a b
      match neighbour a d with
      | some x => (a, d) :: pathLinks b f x
      | none => [(a, d)]

def path (a b : Nat) : List (Nat × Nat) := pathLinks b 208 a

/-- Valid rectangles of a descriptor, as far as the grid has sites there. -/
def rects (d : Nat) : List (Nat × Nat × Nat × Nat) :=
  (List.range 4).filterMap fun k =>
    let r := (bitsOf d (28 * k) 7, bitsOf d (28 * k + 7) 7, bitsOf d (28 * k + 14) 7, bitsOf d (28 * k + 21) 7)
    if bitAt d (112 + k) && decide (r.1 ≤ r.2.2.1) && decide (r.2.1 ≤ r.2.2.2) && decide (r.1 ≤ 107) && decide (r.2.1 ≤ 95) then
      some (r.1, r.2.1, Nat.min r.2.2.1 107, Nat.min r.2.2.2 95)
    else none

/-- The outputs of a router on the R251 paths from a source to sites of the rectangles. -/
def mcastOuts (site src d : Nat) : List Nat :=
  let x := siteX site
  let y := siteY site
  let sx := siteX src
  let sy := siteY src
  let rs := rects d
  let col (r : Nat × Nat × Nat × Nat) : Bool := decide (r.1 ≤ x) && decide (x ≤ r.2.2.1)
  (if decide (y ≤ sy) && rs.any fun r => col r && decide (r.2.1 < y) then [0] else []) ++
  (if decide (sy ≤ y) && rs.any fun r => col r && decide (y < r.2.2.2) then [1] else []) ++
  (if decide (y = sy) && decide (sx ≤ x) && rs.any fun r => decide (x < r.2.2.1) then [2] else []) ++
  (if decide (y = sy) && decide (x ≤ sx) && rs.any fun r => decide (r.1 < x) then [3] else [])

/-- Whether a flow uses an output of a router: that of its R251 path, or one of its tree (R260, R261). -/
def flowUses (s : State) (x : Nat × Nat × Nat × Nat) (site port : Nat) : Bool :=
  if treeBase ≤ x.2.2.1 then (mcastOuts site x.1 (tabEntry s site 2 (bitsOf (tabEntry s x.1 0 x.2.1) 4 8))).contains port
  else (path x.1 x.2.2.1).contains (site, port)

/-- Slots that flows reserve on a link. -/
def reserved (s : State) (flows : List (Nat × Nat × Nat × Nat)) (site port : Nat) : Nat :=
  flows.foldl (fun m x => if flowMask s site x.2.1 ≠ 0 ∧ flowUses s x site port = true then m ||| flowMask s site x.2.1 else m) 0

/-- Whether a scheduled flow reserves a slot on a link. -/
def slotReserved (s : State) (site port slot : Nat) : Bool :=
  (sourceFlows s).any fun x => bitAt (flowMask s site x.2.1) slot && flowUses s x site port

/-- A flit of VC1 that travels at VC4 priority outside its own slots: on a detour, of a flow that holds no slot on the link or
fewer than it needs (R262, R271). -/
def atBulk (s : State) (site : Nat) (f : Flit) : Bool :=
  f.detour || decide (flowMask s site f.id = 0) || SMap.get s.fab.degraded false (1024 * site + f.id)

/-- The flit that channel `vc` would send on an output: the next of the packet in progress while one of it can still come, else
the first that no earlier one of its packet precedes; the flits of a reduction are combined one by one. Where flits of a packet
have been lost (R270) the others go on. -/
def vcNext (s : State) (site port vc : Nat) (sel : Flit → Bool) : Option Flit :=
  let mine := s.fab.flits.filter fun f => f.loc = site && f.vc = vc && sel f && outOf s f = some port
  let first (f : Flit) : Bool := f.idx = 0 || vc = 2 || !(s.fab.flits.any fun g => g.pid = f.pid && decide (g.idx < f.idx))
  match (SMap.find (s.link site port).prog vc).filter fun v => s.fab.flits.any fun f => f.pid = v / 64 && decide (v % 64 ≤ f.idx) with
  | some v => mine.find? fun f => f.pid = v / 64
  | none => mine.find? first

/-- Flits that travel at VC4 priority: VC4, and those of VC1. -/
def bulkNext (s : State) (site port : Nat) : Option Flit :=
  match vcNext s site port 4 fun _ => true with
  | some f => some f
  | none => vcNext s site port 1 (atBulk s site)

def orElse (a : Option Flit) (b : Option Flit) : Option Flit := match a with
  | some x => some x
  | none => b

/-- The flit that a flit time sends (R254), in the order of its seven rules. -/
def pickFlit (s : State) (site port slot : Nat) : Option Flit :=
  let anyF : Flit → Bool := fun _ => true
  let res := slotReserved s site port slot
  let flow := vcNext s site port 1 fun f => !f.detour && bitAt (flowMask s site f.id) slot
  let makeup := vcNext s site port 1 fun f => !f.detour && decide (0 < SMap.get (s.link site port).credit 0 f.id)
  let v5 := vcNext s site port 5 anyF
  let low := orElse (vcNext s site port 2 anyF) (orElse (vcNext s site port 3 anyF) (orElse v5 (bulkNext s site port)))
  orElse (vcNext s site port 0 fun f => f.barrier) (orElse (vcNext s site port 0 anyF) (orElse flow (orElse makeup
    (if !res && (!(s.link site port).vc5 || decide (slot < (s.link site port).slot)) then orElse v5 low
     else if res then bulkNext s site port else low))))

/-- Where a detoured flit arrives it leaves the detour once its R251 path avoids every region listed there (R271). -/
def leaveDetour (s : State) (f : Flit) : Flit :=
  let rs := deadRegions s f.loc
  if f.legs ≠ [] ∧ rs ≠ [] ∧ (rs.any fun r => pathCrosses f.loc f.dst r) = false then { f with legs := [] } else f

def stepLegs : List (Nat × Nat) → List (Nat × Nat)
  | [] => []
  | (d, n) :: r => if n ≤ 1 then r else (d, n - 1) :: r

/-- Whether a unicast flit's route reaches its destination: no dead link without a detour entry, no dead region listed
around the destination, no way off the grid (R251, R271). -/
def routeLive (s : State) : (fuel : Nat) → Flit → Bool
  | 0, _ => false
  | n + 1, f =>
    if f.loc = f.dst then true
    else if (deadRegions s f.loc).any fun r => inRegion (dstX f.dst) (dstY f.dst) r then false
    else match hopOf s f with
      | none => false
      | some (d, legs) => match neighbour f.loc d with
        | none => false
        | some x => routeLive s n (leaveDetour s { f with loc := x, legs := stepLegs legs })

/-- A route of VC4 from a site to another. -/
def siteRoute (s : State) (a b : Nat) : Bool :=
  routeLive s 512 { pid := 0, idx := 0, len := 1, vc := 4, src := a, dst := b, loc := a, inp := 4 }

/-- The 24 routers beside an edge tile (R250). -/
def edgeRouters (e : Nat) : List Nat :=
  (List.range 24).map fun k =>
    if e = 2 ∨ e = 3 ∨ e = 4 then siteAt (36 * e - 66 + k) 0
    else if 5 ≤ e ∧ e ≤ 7 then siteAt 107 (30 * e - 144 + k)
    else if 8 ≤ e ∧ e ≤ 10 then siteAt (366 - 36 * e + k) 95
    else siteAt 0 ((if e = 0 then 36 else if e = 1 then 6 else 66) + k)

/-- Whether a core's traffic reaches the edge tile of channel `n`, E(n/4), and for a load comes back: at one of the edge
tile's routers (11 R276, R279; which of the 24 is not given, notes/assumptions/82.md). -/
def channelRoute (s : State) (site n : Nat) (store : Bool) : Bool :=
  (edgeRouters (n / 4)).any fun x => siteRoute s site x && (store || siteRoute s x site)

/-- Whether a core's traffic reaches every channel that `n` bytes from T1 address `a` lie in (11 R279). -/
def t1Route (s : State) (site a n : Nat) (store : Bool) : Bool :=
  (List.range (Nat.min 48 ((a + n + 2047) / 2048 - a / 2048))).all fun k => channelRoute s site ((a / 2048 + k) % 48) store

/-- The 96 tag bits of a flit; a body flit carries [5:0], the round and the incomplete bit only (R252). -/
def Flit.tag (f : Flit) : Nat :=
  let b (x : Bool) (k : Nat) : Nat := if x then 2 ^ k else 0
  let xy (d : Nat) : Nat := if d = steward then 0x7F + 0x7F * 2 ^ 7 else siteX d + siteY d * 2 ^ 7
  let every := f.vc % 8 + b (f.idx = 0) 3 + b (f.idx + 1 = f.len) 4 + b f.barrier 5 + f.round % 16 * 2 ^ 91 + b f.inc 95
  if f.idx = 0 then
    every + (f.len - 1) % 64 * 2 ^ 6 + xy f.dst % 2 ^ 14 * 2 ^ 12 + xy f.src % 2 ^ 14 * 2 ^ 26 + f.seq % 65536 * 2 ^ 40 +
      f.elem % 2 ^ 20 * 2 ^ 56 + f.ctr % 32 * 2 ^ 76 + f.id % 1024 * 2 ^ 81
  else every

/-- The last 32 flits that a sender keeps for a link, with one more. -/
def keepSent (l : List (Nat × List Byte)) (f : Flit) : List (Nat × List Byte) :=
  let all := l ++ [(f.tag, f.data)]
  all.drop (all.length - 32)

/-- The link's bookkeeping when a flit leaves: packet in progress, frame, credits. -/
def linkSent (s : State) (site port slot : Nat) (f : Flit) : LinkSt :=
  let l := s.link site port
  let wrap := slot < l.slot
  let lose := decide (f.vc = 0)
  let res := slotReserved s site port slot
  let flow := vcNext s site port 1 fun g => !g.detour && bitAt (flowMask s site g.id) slot
  let credit := match flow with
    | some g => if lose then SMap.set l.credit 0 g.id (Nat.min 4 (SMap.get l.credit 0 g.id + 1)) else l.credit
    | none =>
      if f.vc = 1 ∧ f.detour = false ∧ ¬ bitAt (flowMask s site f.id) slot = true then SMap.set l.credit 0 f.id (SMap.get l.credit 0 f.id - 1)
      else l.credit
  { l with
    prog := if f.idx + 1 = f.len then SMap.del l.prog f.vc else SMap.put l.prog f.vc (64 * f.pid + f.idx + 1)
    slot := slot, credit := credit, fails := 0, replay := keepSent l.replay f, last := s.now
    vc5 := (if wrap then false else l.vc5) || (!res && (decide (2 ≤ f.vc) || (decide (f.vc = 1) && atBulk s site f))) }

/-- Whether VC0 takes the flit time from a packet in progress of another channel. -/
def preempts (s : State) (site port : Nat) (f : Flit) : Bool :=
  decide (f.vc = 0) && (s.link site port).prog.any fun e => e.1 ≠ 0 && (vcNext s site port e.1 fun _ => true).isSome

/-- Whether an edge tile holds Merdutra ports (13 R322). -/
def linkTile (e : Nat) : Bool := (List.range 16).any fun p => decide (portEdge p = e)

/-- A reduction flit leaves the mesh at router `f.loc`'s edge link for another module: with the round's last it goes as one RED
packet on VL2 (13 R325, R332); incomplete where one of its flits is. -/
def redLeaves (f : Flit) (s : State) : State :=
  let site := f.loc
  let mine (g : Flit) : Bool := g.loc = site && g.id = f.id && g.round = f.round
  let all := s.mlk.redOut.filter mine ++ [f]
  if all.length < f.len then s.modMlk fun m => { m with redOut := m.redOut ++ [f] }
  else
    let p := bitsOf (routerCfg s site) 14 4
    let data := ((List.range f.len).map fun i => match all.find? fun g => g.idx = i with
      | some g => padTo 32 g.data
      | none => padTo 32 []).flatten
    let k : Pkt := { kind := 5, lane := 2, dst := Config.redModule p site f.id % 64, src := 0, window := Config.redIdThere p site f.id % 256,
                     red := f.round % 16 + (if all.any (·.inc) then 16 else 0) + (if bitAt (tabEntry s site 1 f.id) 9 then 32 else 0),
                     data := data }
    transmitRed k (s.modMlk fun m => { m with redOut := m.redOut.filter fun g => !mine g })

def sendFlit (site port slot : Nat) (f : Flit) (s : State) : State :=
  let pg := fabPg site
  let s1 := s.bump pg 0 (0x180 + 4 * f.vc)
  let s2 := if preempts s site port f then s1.bump pg 0 0x198 else s1
  let s3 := if slotReserved s site port slot && decide (f.vc = 4) then s2.bump pg 0 0x19C else s2
  -- a flit whose next hop is a dead link takes the detour entry for it
  let legs := if f.out.isSome then f.legs else match hopOf s f with
    | some h => h.2
    | none => f.legs
  let fresh := decide (legs ≠ f.legs)
  let s4 := if fresh then s3.bump pg 0 0x1B0 else s3
  let s5 := (dropFlits (fun g => g = f) s4).modLink site port fun _ => linkSent s site port slot f
  match neighbour site port with
  | some n =>
    let g : Flit := { f with loc := n, inp := opposite port, out := none, legs := stepLegs legs, detour := f.detour || fresh }
    addFlit (leaveDetour s5 g) s5
  | none =>
    -- only a boundary router in a range of R250 has a link there
    if (edgeOf site).isNone || decide (edgePort site ≠ port) then s5
    else if f.vc = 2 ∧ ((edgeOf site).any linkTile) = true then redLeaves { f with loc := site } s5
    else s5.emit (.flit f.vc f.src f.dst ([f.kind.code, f.id, f.elem, f.ctr, f.seq] ++ f.data.map (·.toNat)))

/-- A flit whose destination lies in a dead region listed at its router is discarded (R271). -/
def undeliverable (s : State) (f : Flit) : Bool :=
  mayDetour f.vc && f.out.isNone && decide (f.dst < sites) &&
    (deadRegions s f.loc).any fun r => inRegion (dstX f.dst) (dstY f.dst) r

def discardFlit (f : Flit) (bit code : Nat) (loc : Nat) (s : State) : State :=
  let s1 := countDrop f.loc 1 (dropFlits (fun g => g = f) s)
  s1.err (fabPg f.loc) bit code loc (pack [(0, f.src), (2, f.dst)])

def flitForward (site port slot : Nat) (ue : Bool) (s : State) : State :=
  match s.fab.flits.find? fun f => f.loc = site && undeliverable s f with
  | some f => discardFlit f 6 0x3007 (fabLoc site port) s
  | none =>
    if linkIsDead s site port then
      match s.fab.flits.find? fun f => f.loc = site && f.out = some port with
      | some f => countDrop site 1 (dropFlits (fun g => g = f) s)
      | none => s
    else match pickFlit s site port slot with
      | none => s.modLink site port fun l => { l with slot := slot, vc5 := (!decide (slot < l.slot) && l.vc5) || !slotReserved s site port slot }
      | some f => if ue then discardFlit f 3 0x3005 (fabLoc site port) s else sendFlit site port slot f s

/-! ### Delivery (R257, R268) -/

/-- Flits at their core's local port. -/
def atPort (s : State) (site : Nat) (f : Flit) : Bool := f.loc = site && outOf s f = some 4

/-- Sequence number `a` comes before `b` modulo 2^16. -/
def seqBefore (a b : Nat) : Bool := let d := (b + 65536 - a) % 65536; decide (0 < d) && decide (d < 32768)

/-- Key of the sequence numbers that a router takes from a source and channel; of a scheduled flow's tree each member keeps its
own, from the first packet it sees (notes/assumptions/81.md). -/
def rcvKey (site : Nat) (f : Flit) : Nat := pairKey f.src f.dst f.vc + if isMcast f then (site + 1) * 2 ^ 31 else 0
def expectSeq (s : State) (site : Nat) (f : Flit) : Nat :=
  (SMap.find s.fab.rcvSeq (rcvKey site f)).getD (if isMcast f then f.seq else 0)

/-- A packet that is complete at a port and may be delivered: the data of VC1 and VC4 in sequence order, to a fenced
core whatever it is as it comes. -/
def deliverable (s : State) (site : Nat) (f : Flit) : Bool :=
  atPort s site f && (decide (f.kind = .data) || coreFenced s site) && decide (f.idx = 0) &&
  decide ((s.fab.flits.filter fun g => atPort s site g && g.pid = f.pid).length = f.len) &&
  (if (f.vc = 1 ∨ f.vc = 4) ∧ coreFenced s site = false then !seqBefore (expectSeq s site f) f.seq else true)

/-- An acknowledgement on VC5; that of a tree's packet names the flow. -/
def sendAck (site : Nat) (f : Flit) (kind : FlKind) (s : State) : State :=
  addPacket { pid := 0, idx := 0, len := 1, kind := kind, vc := 5, src := site, dst := f.src, seq := f.seq, ctr := f.vc,
              id := if isMcast f then f.id else 0, cnt := isMcast f, loc := site } [[]] s

def decCounter (site c : Nat) (s : State) : State :=
  s.modCore site fun d => { d with inb := SMap.upd d.inb 0 c fun v => v - 1 }

/-- Tell of discards at a fenced port once in each second in which they occur (R269, R274). -/
def fencedDrop (site n : Nat) (s : State) : State :=
  let s1 := countDrop site n s
  if SMap.find s.fab.dropSaid site = some (s.now / sec) then s1.modBlk (fabPg site) fun b => { b with errStat := b.errStat ||| 16#32 }
  else
    (s1.modFab fun m => { m with dropSaid := SMap.put m.dropSaid site (s.now / sec) }).err (fabPg site) 4 0x3006
      (fabLoc site 4) (pack [(0, agCore site)])

/-- Write a packet's payload into the scratchpad: 0x1008 at the receiver where a row is read-only (R259). An element that the
packet ends within is read first; where that word is uncorrectable (`ue`) it is not written, the core faults and the counter
stays (09 R240, 16 R381). -/
def depositPacket (site elem : Nat) (fl : List Flit) (ctr : Option Nat) (ue : Bool) (s : State) : State :=
  let es := fl.map fun f => elem + f.idx
  if es.any fun e => wregRow s site (e / 64) then
    progFault site 0 0x1008 (some (elem, elem + fl.length - 1)) 0 0 s
  else
    let ends := (fl.filter fun f => decide (f.data.length < 32)).map fun f => elem + f.idx
    let bad := if ue then ends.head? else none
    let s1 := s.modCore site fun c => { c with
      spad := fl.foldl (fun m f =>
        if f.inc ∨ 12288 * 64 ≤ elem + f.idx ∨ bad = some (elem + f.idx) then m else Mem.write m (32 * (elem + f.idx)) f.data) c.spad }
    let here (l : List Nat) : List Nat := l.filter fun e => decide (e < 12288 * 64) && decide (bad ≠ some e)
    let s2 := countOperands site [ends.filter fun e => decide (e < 12288 * 64), here es] s1
    match bad with
    | some e => wordFault site (.spad e) s2
    | none => match ctr with
      | some c => decCounter site c s2
      | none => s2

/-- A STEP_INCOMPLETE notice to the stage's leader on VC0 (R266). -/
def sendIncomplete (site : Nat) (s : State) : State :=
  addPacket { pid := 0, idx := 0, len := 1, kind := .incomplete, vc := 0, src := site, dst := leaderSite s site, loc := site } [[]] s

def packetDelivery (site : Nat) (ue : Bool) (s : State) : State :=
  match s.fab.flits.find? fun f => deliverable s site f with
  | none => s
  | some f =>
    let fl := s.fab.flits.filter fun g => atPort s site g && g.pid = f.pid
    let s1 := dropFlits (fun g => atPort s site g && g.pid = f.pid) s
    let numbered := f.vc = 1 ∨ f.vc = 4
    let k := rcvKey site f
    let taken (t : State) : State := t.modFab fun m => { m with rcvSeq := SMap.put m.rcvSeq k ((f.seq + 1) % 65536) }
    if coreFenced s site then
      let s2 := fencedDrop site fl.length s1
      if numbered then
        sendAck site f .fencedAck (if seqBefore f.seq (expectSeq s site f) then s2 else taken s2)
      else s2
    else
      if numbered ∧ f.seq ≠ expectSeq s site f then sendAck site f .ack s1
      else
        let s2 := if numbered then sendAck site f .ack (taken s1) else s1
        if f.vc = 1 then
          let e := tabEntry s site 0 f.id
          if bitAt e 0 && bitAt e 2 then
            depositPacket site (bitsOf e 96 20 + f.elem) fl (if f.cnt then some (bitsOf e 116 5) else none) ue s2
          else s2
        else if f.vc = 2 then
          let e := tabEntry s site 1 f.id
          let s3 := depositPacket site (bitsOf e 16 20) fl (some (bitsOf e 36 5)) ue s2
          if fl.any (·.inc) then sendIncomplete site s3 else s3
        else depositPacket site f.elem fl (if f.cnt then some f.ctr else none) ue s2

/-! ### Multicast (R263, R264) -/

def isMember (s : State) (site d : Nat) : Bool := bitAt (tabEntry s site 3 (d / 128)) (d % 128)

/-- The descriptor of a multicast flit at a router. -/
def mcastDesc (s : State) (f : Flit) : Nat := if f.vc = 3 then f.id else bitsOf (tabEntry s f.loc 0 f.id) 4 8

/-- The members of a descriptor's tree. -/
def members (s : State) (dsc d : Nat) : List Nat :=
  (List.range sites).filter fun x => isMember s x dsc && (rects d).any (inRegion (siteX x) (siteY x))

def mcastFlit (site : Nat) (s : State) : State :=
  match s.fab.flits.find? fun f => f.loc = site && f.out.isNone && isMcast f with
  | none => s
  | some f =>
    let dsc := mcastDesc s f
    let d := tabEntry s site 2 dsc
    let s1 := dropFlits (fun g => g = f) s
    let outs := mcastOuts site f.src d
    let s2 := outs.foldl (fun t o =>
      if linkIsDead s site o then countDrop site 1 t
      else t.modFab fun m => { m with flits := m.flits ++ [{ f with inp := 5, out := some o }] }) s1
    -- a fenced port takes no multicast flit, but answers a packet of VC1 (R269)
    let here := (rects d).any (inRegion (siteX site) (siteY site)) && isMember s site dsc && (!coreFenced s site || decide (f.vc = 1))
    if here then s2.modFab fun m => { m with flits := m.flits ++ [{ f with out := some 4 }] } else s2

/-! ### Reductions (R233, R266, R267) -/

/-- The lanes of a payload, 16 BF16 or 8 FP32 values, widened exactly; a NaN is the canonical NaN. -/
def redLanes (fp32 : Bool) (b : List Byte) : List W32 :=
  (List.range (if fp32 then 8 else 16)).map fun i =>
    toF32 (f32 (if fp32 then BitVec.ofNat 32 (leNat ((b.drop (4 * i)).take 4)) else bfWide (leNat ((b.drop (2 * i)).take 2))))

def Fp.isInf : Fp → Bool
  | .inf _ => true
  | _ => false

/-- One value in the reduction's format: past its largest finite value, and for an infinity, that value with the same sign. -/
def redRound (fp32 : Bool) (v : W32) : List Byte :=
  if fp32 then leBytes 4 (rne32 (f32 v)).1.toNat
  else leBytes 2 (EF.bf16.conv (f32 (rne32 (f32 v)).1))

/-- A sum rounded to the reduction's format, saturating; whether it saturated. -/
def redPayload (fp32 : Bool) (l : List W32) : List Byte := (l.map (redRound fp32)).flatten

/-- The lanes that saturate as they leave. -/
def redSaturates (fp32 : Bool) (l : List W32) : List Bool :=
  l.map fun v => (f32 v).isInf || (!fp32 && decide (0x7F7F7FFF < v.toNat % 2 ^ 31) && !(f32 v).isNan)

/-- Lanes told of in either list. -/
def orBits (a b : List Bool) : List Bool := (List.range (Nat.max a.length b.length)).map fun i => a.getD i false || b.getD i false

/-- Add a contribution's lanes: rne32 after each addition, in order of arrival, an infinity saturating there as any sum does; unlike
infinities give a NaN (R233; notes/assumptions/75.md). The lanes that saturate. -/
def redAdd (a b : List W32) : List W32 × List Bool :=
  if a.isEmpty then (b, [])
  else let r := List.zipWith (fun x y => rne32 ((f32 x).add (f32 y))) a b; (r.map (·.1), r.map (·.2))

def redKey (site id : Nat) : Nat := site * 256 + id
def State.round (s : State) (site id : Nat) : RedRound := SMap.get s.fab.rounds {} (redKey site id)
def State.setRound (s : State) (site id : Nat) (r : RedRound) : State :=
  s.modFab fun m => { m with rounds := SMap.set m.rounds {} (redKey site id) r }

/-- A combined flit leaves on the entry's output; for a dead output it is discarded. -/
def redSend (site id idx : Nat) (data : List Byte) (inc : Bool) (s : State) : State :=
  let e := tabEntry s site 1 id
  let o := bitsOf e 6 3
  let r := s.round site id
  if linkIsDead s site o then countDrop site 1 s
  else s.modFab fun m => { m with flits := m.flits ++ [
    { pid := r.pid, idx := idx, len := bitsOf e 10 6 + 1, vc := 2, src := site, dst := site, id := id, round := r.round,
      inc := inc, data := data, loc := site, inp := 5, out := some o }] }

/-- The round of a router ends when every flit index has been sent. -/
def redAdvance (site id : Nat) (s : State) : State :=
  let e := tabEntry s site 1 id
  let r := s.round site id
  if (r.parts.filter fun p => p.2.sent).length = bitsOf e 10 6 + 1 then
    s.setRound site id { round := (r.round + 1) % 16, pid := r.pid }
  else s

/-- A flit is combined with its round; the last input's arrival sends the sum (R266). -/
def redCombine (f : Flit) (s : State) : State :=
  let site := f.loc
  let e := tabEntry s site 1 f.id
  let fp := bitAt e 9
  let r0 := s.round site f.id
  let np := newPid s
  let s0 := if r0.first.isNone then np.2 else s
  let r : RedRound := if r0.first.isNone then { r0 with pid := np.1, first := some s.now } else r0
  let p := SMap.get r.parts {} f.idx
  let add := redAdd p.sum (redLanes fp f.data)
  let ins := p.ins ||| 2 ^ f.inp
  let all := decide (ins &&& bitsOf e 1 5 = bitsOf e 1 5)
  let sats := orBits (orBits p.sats add.2) (if all then redSaturates fp add.1 else [])
  let q : RedPart := { p with ins := ins, sum := add.1, sats := sats, inc := p.inc || f.inc }
  -- each combined value that saturates counts once
  let more := sats.count true - p.sats.count true
  let r1 : RedRound := { r with parts := SMap.put r.parts f.idx { q with sent := all }, sat := r.sat || decide (0 < more) }
  let s1 := s0.setRound site f.id r1
  let s2 := if 0 < more then
      let u := s1.bump (fabPg site) 0 0x1A8 more
      if r.sat then u else u.raise (fabPg site) 0x3002 (pack [(0, siteLocal site), (2, f.id)])
    else s1
  if all then
    redAdvance site f.id (redSend site f.id f.idx (if q.inc then List.replicate 32 0#8 else redPayload fp q.sum) q.inc s2)
  else s2

/-- The next reduction flit that a router can take: of the current round, or of an earlier one (discarded). -/
def redFlitArrive (site : Nat) (s : State) : State :=
  let ok (f : Flit) : Bool :=
    let r := (s.round site f.id).round
    let ahead := (f.round + 16 - r) % 16
    f.loc = site && f.vc = 2 && f.out.isNone && (decide (ahead = 0) || decide (8 ≤ ahead))
  match s.fab.flits.find? ok with
  | none => s
  | some f =>
    let e := tabEntry s site 1 f.id
    let s1 := dropFlits (fun g => g = f) s
    if f.round = (s.round site f.id).round ∧ bitAt e 0 = true ∧ bitAt (bitsOf e 1 5) f.inp = true ∧
        ¬ (f.inp = 4 ∧ coreFenced s site = true) then redCombine f s1
    else s1

/-- R266's timeout: the remaining flits go on as incomplete with payload 0. -/
def redTimeout (site id : Nat) (s : State) : State :=
  let r := s.round site id
  let e := tabEntry s site 1 id
  match r.first with
  | none => s
  | some t =>
    if s.now < t + s.fld (fabPg site) 0 0x100 0 16 * us then s
    else
      let s1 := (s.err (fabPg site) 0 0x3001 (fabLoc site (bitsOf e 6 3)) (pack [(0, siteLocal site), (2, id)])).bump (fabPg site) 0 0x1AC
      let left := (List.range (bitsOf e 10 6 + 1)).filter fun i => !(SMap.get r.parts {} i).sent
      let s2 := left.foldl (fun u i => redSend site id i (List.replicate 32 0#8) true u) s1
      s2.setRound site id { round := (r.round + 1) % 16 }

/-! ### Retry, replay, death of links (R252, R268, R270) -/

/-- An acknowledgement at a core's port releases the packet it names. -/
def e2eAck (site : Nat) (s : State) : State :=
  match s.fab.flits.find? fun f => atPort s site f && decide (f.vc = 5) && decide (f.kind ≠ .data) with
  | none => s
  | some f =>
    let s1 := dropFlits (fun g => g = f) s
    if coreFenced s site then fencedDrop site 1 s1
    else
      let tree (l : List Kept) : List Kept :=
        (l.map fun x => if x.seq = f.seq then { x with owed := x.owed.erase f.src } else x).filter fun x => x.owed ≠ []
      s1.modFab fun m =>
        if f.cnt then { m with kept := SMap.upd m.kept [] (pairKey site (treeBase + f.id) 1) tree }
        else { m with kept := SMap.upd m.kept [] (pairKey site f.src f.ctr) fun l => l.filter fun x => x.seq ≠ f.seq }

/-- The packets of one key sent again, from the oldest unacknowledged one on; after retry_max the core faults with 0x3003 and stops
sending to the destination `dst` that owes the acknowledgement. -/
def retryKey (site dst k : Nat) (s : State) : State :=
  match SMap.get s.fab.kept [] k with
  | [] => s
  | o :: rest =>
    if s.now < o.since + s.fld (fabPg site) 0 0x104 0 16 * us then s
    else if s.fld (fabPg site) 0 0x100 16 4 ≤ o.tries then
      let s1 := s.modFab fun m => { m with
        gaveUp := SMap.put m.gaveUp k true
        kept := SMap.del (SMap.del (SMap.del m.kept k) (pairKey site dst 1)) (pairKey site dst 4) }
      let s2 := s1.err (fabPg site) 1 0x3003 (fabLoc site 4 + siteX dst * 2 ^ 16 + siteY dst * 2 ^ 23)
        (pack [(0, agCore site), (2, agCore dst)])
      haltCore site (s2.modCore site fun c => { c with fcode := 0x3003 })
    else
      let all := o :: rest
      let s1 := s.modFab fun m => { m with
        kept := SMap.put m.kept k (all.map fun x => { x with since := s.now, tries := x.tries + 1 }) }
      all.foldl (fun t x =>
        let r := newPid t
        x.flits.foldl (fun u f => addFlit { f with pid := r.1 } u) (r.2.bump (fabPg site) 0 0x1A4)) s1

/-- The retry timer of a destination: its own packets of the channel, and those of trees that it has not acknowledged. -/
def e2eRetry (site dst vc : Nat) (s : State) : State :=
  let trees := if vc = 1 then
      (s.fab.kept.filter fun e => decide (e.1 / (8 * 16384) = site) && decide (treeBase ≤ e.1 / 8 % 16384) &&
        (e.2.head?.any fun x => x.owed.contains dst)).map (·.1)
    else []
  trees.foldl (fun t k => retryKey site dst k t) (retryKey site dst (pairKey site dst vc) s)

/-! ### Dead regions (R270, R271) -/

/-- The bounding rectangle of two regions. -/
def boundRegions (a b : Nat) : Nat :=
  Nat.min (bitsOf a 0 7) (bitsOf b 0 7) + Nat.min (bitsOf a 7 7) (bitsOf b 7 7) * 2 ^ 7 +
    Nat.max (bitsOf a 14 7) (bitsOf b 14 7) * 2 ^ 14 + Nat.max (bitsOf a 21 7) (bitsOf b 21 7) * 2 ^ 21 + 2 ^ 28

def regionGap (a b : Nat) : Nat :=
  (bitsOf b 0 7 - bitsOf a 14 7) + (bitsOf a 0 7 - bitsOf b 14 7) + (bitsOf b 7 7 - bitsOf a 21 7) + (bitsOf a 7 7 - bitsOf b 21 7)

/-- The two nearest of a list of regions, by place; the first such pair. -/
def nearestPair (l : List Nat) : Nat × Nat :=
  let gap (x : Nat × Nat) : Nat := regionGap (l.getD x.1 0) (l.getD x.2 0)
  (((List.range l.length).map fun i => ((List.range l.length).filter fun j => i < j).map fun j => (i, j)).flatten).foldl
    (fun a x => if gap x < gap a then x else a) (0, 1)

/-- A dead region joins a router's table; when more than four concern the router, the two nearest merge into their bounding
rectangle (R271). -/
def listRegion (site reg : Nat) (s : State) : State :=
  let have4 := (List.range 4).map fun k => tabEntry s site 6 k
  if have4.contains reg then s
  else match (List.range 4).find? fun k => !bitAt (tabEntry s site 6 k) 28 with
    | some k => setTab site 6 k reg s
    | none =>
      let all := have4 ++ [reg]
      let p := nearestPair all
      let both := boundRegions (all.getD p.1 0) (all.getD p.2 0)
      if p.2 = 4 then setTab site 6 p.1 both s else setTab site 6 p.2 reg (setTab site 6 p.1 both s)

/-- The sites around one, and the region it makes alone. -/
def around (site : Nat) : List Nat :=
  let x := siteX site
  let y := siteY site
  (List.range sites).filter fun n => n ≠ site && decide (siteX n ≤ x + 1) && decide (x ≤ siteX n + 1) && decide (siteY n ≤ y + 1) && decide (y ≤ siteY n + 1)
def siteRegion (x y : Nat) : Nat := x + y * 2 ^ 7 + x * 2 ^ 14 + y * 2 ^ 21 + 2 ^ 28

/-- A router is dead when all its links are (R270). -/
def routerDead (s : State) (site : Nat) : Bool :=
  (List.range 4).all fun d => match neighbour site d with
    | some n => linkIsDead s n (opposite d)
    | none => true

/-- A router whose links are all dead loses the flits inside it, and the AMP lists it at the routers around it. -/
def routerGone (site : Nat) (s : State) : State :=
  if routerDead s site then (around site).foldl (fun t n => listRegion n (siteRegion (siteX site) (siteY site)) t)
    (dropFlits (fun f => f.loc = site) s)
  else s

/-- The router at the near end of a link marks it dead (R270). -/
def linkDead (site port : Nat) (s : State) : State :=
  if linkIsDead s site port then s
  else
    let s1 := setTab site 5 0 (routerCfg s site ||| 2 ^ (39 + port)) s
    let s2 := s1.err (fabPg site) 2 0x3004 (fabLoc site port) (pack [(0, siteLocal site), (2, port)])
    match neighbour site port with
    | some n => routerGone n s2
    | none => s2

/-- LINK_DEAD: no flit has crossed the link for dead_us, nor, as the command tells, an idle token. -/
def linkSilent (site port : Nat) (s : State) : State :=
  if s.now < (s.link site port).last + s.fld (fabPg site) 0 0x104 16 8 * us then s else linkDead site port s

/-- Whether a flit is the one that the link sent last, as it stands at the receiver. -/
def lastSent (s : State) (site port : Nat) (f : Flit) : Bool :=
  decide (some f.loc = neighbour site port) && decide (f.inp = opposite port) &&
    decide ((s.link site port).replay.getLast? = some (f.tag, f.data))

/-- A flit fails its checks at the receiver and is sent again from the sender's replay buffer, tag and payload as they stand there;
the fourth time in a row the link is dead and the flit is lost (R252). A dead link, or one that has sent nothing, has no flit to
replay. -/
def linkReplay (site port : Nat) (s : State) : State :=
  if linkIsDead s site port || (s.link site port).replay.isEmpty then s
  else
    let s1 := (s.modLink site port fun l => { l with fails := l.fails + 1 }).bump (fabPg site) 0 0x1A0
    if 4 ≤ (s.link site port).fails + 1 then linkDead site port (dropFlits (lastSent s site port) s1) else s1

/-- Routers lose their buffers and tables (14 R351): the flits inside, table entries, links and rounds of those sites. -/
def routersLost (mine : Nat → Bool) (s : State) : State :=
  let tab (k : Nat) : Bool := decide (2 ^ 37 ≤ k) && decide (k < 2 ^ 38) && mine (k / 2 ^ 20 - 2 ^ 17)
  let s1 : State := { s with regs := SMap.keep s.regs fun k _ => !tab k, shadow := SMap.keep s.shadow fun k _ => !tab k }
  (dropFlits (fun f => mine f.loc) s1).modFab fun m => { m with
    detours := m.detours.filter fun t => !mine (siteOf t 0)
    links := SMap.keep m.links fun k _ => !mine (k / 8), rounds := SMap.keep m.rounds fun k _ => !mine (k / 256) }

/-- A STEP_INCOMPLETE notice reaches its leader: counter 31 falls, and its stage's step is incomplete (R266, 04 R114). -/
def stepIncomplete (site : Nat) (s : State) : State :=
  match s.fab.flits.find? fun f => atPort s site f && decide (f.kind = .incomplete) with
  | none => s
  | some f =>
    let s0 := dropFlits (fun g => g = f) s
    if coreFenced s site then fencedDrop site 1 s0
    else
    let s1 := decCounter site 31 s0
    match boundAt s site with
    | none => s1
    | some (p, c) => s1.modPart p fun q => { q with stages := q.stages.map fun g =>
        if g.leader = c ∧ g.run.isSome = true then { g with incomplete := true } else g }

end Sys2Proof.Machine
end

