-- ==== Sys2Proof/Machine/FamSched.lean ====
section
/-! DEFINITION. The commands of the step pipeline, the Equinox (04), the acceptance unit (05) and the KV page allocator
(06). -/

namespace Sys2Proof.Machine

def partOk (p : Nat) : Bool := decide (p < 16)
/-- A stage of a partition that is loaded with it; on others the command finds nothing. -/
def hasStage (s : State) (p g : Nat) : Bool := decide (g < (s.part p).stages.length)

/-- STEP_BUILD (03 R87): abandoned steps first (04 R121 item 8), an Equinox held before any new step (R127); a replay's
target takes the recorded steps. A stopped Steward issues no new work (01 R16). -/
def buildStep (p : Nat) (s : State) : State :=
  let q := s.part p
  if q.isMember || s.mg.stwDead then s
  else if q.replayOf then
    (if q.inputFree 0 ∧ q.stages ≠ [] then replayBuild (s.rp.steps.length + 2 * s.rp.seqs.length + 2) s else s)
  else if q.ps = .running ∧ (s.blk (pgSched p)).st = .running ∧ q.eqx = none ∧ q.inputFree 0 = true ∧ q.stages ≠ [] ∧ q.mustEqx = false then
    match q.abandoned with
    | _ :: _ => reinject p (q.abandoned.length + 1) s
    | [] => if q.draftOf = 0xFF then buildTarget p s else buildDraft p q.draftOf s
  else s

def execStepBuild (part : Nat) (s : State) : Res := act (partOk part) (buildStep part) s
def execStepCommit (part : Nat) (res : List SeqRes) (s : State) : Res := act (partOk part) (commitStep part res) s

/-! ### Stages (R111-R117) -/

/-- R111's checks at a stage leader. -/
def badStep (s : State) (p : Nat) (t : Tok) : Bool :=
  decide (3 < t.kind) || decide (t.count = 0) || decide (64 < t.count) || decide (2048 < t.positions) ||
  (!(s.part p).replayOf && !(s.part p).isMember && t.ents.any fun e => (reqOfSlot s p e.slot).isNone)

/-- The Steward delivers a step's token to stage 0: into the control inbox of the stage's leader, counter 30 (10 R257;
notes/assumptions/29.md). -/
def toInbox (p : Nat) (t : Tok) (s : State) : State :=
  match siteOfLogical s p ((s.part p).stage 0).leader with
  | none => s
  | some site =>
    depositPacket site (bitsOf (routerCfg s site) 18 20)
      (mkFlits { pid := 0, idx := 0, len := 0, vc := 0, src := steward, dst := site, loc := site } (flitsOf (tokBytes t))) (some 30) false s

/-- A token arrives, complete, at the input of its stage. -/
def tokenArrive (p g : Nat) (s : State) : State :=
  let q := s.part p
  match q.transit.find? fun e => e.1 = g with
  | none => s
  | some (_, t) =>
    if (q.stage g).wait.isSome then s
    else
      let s1 := tokComes p g (s.modPart p fun v => { v with transit := v.transit.erase (g, t) })
      let s2 := (if g = 0 then toInbox p t s1 else s1).modPart p fun v => v.modStage g fun x => { x with wait := some t }
      if badStep s p t then
        faultStage p g (s2.err (pgSched p) 3 0x4020 (g + t.step * 2 ^ 32) (pack [(0, p), (1, g), (4, t.step)]))
      else s2

def execStepTokenArrive (part stage : Nat) (s : State) : Res :=
  act (partOk part) (when (hasStage s part stage) (tokenArrive part stage)) s

/-- Grants that the stage's cores have not applied yet, copies that have not landed (06 R161, R164). -/
def grantsDue (s : State) (p g : Nat) : Bool :=
  let cs := ((s.part p).stage g).cores
  (s.pool p).copies.any fun x => cs.contains x.core

/-- A holder examines what has aged before its next step (06 R173). -/
def stageAges (s : State) (p g : Nat) : Bool :=
  let q := s.pool p
  q.pages.any fun e => decide (e.2.stage = g) && ageDue q e.1

/-- STAGE_STEP_START (R112): the tag check of what the step touches comes first (06 R167), then the path moves (05 R145) and the
writes of K and V (R113). -/
def stepStart (p g : Nat) (s : State) : State :=
  let q := s.part p
  let x := q.stage g
  match x.wait with
  | none => s
  | some t =>
    if x.run.isSome || x.hold || x.faulted || q.eqx.isSome || grantsDue s p g || stageAges s p g then s
    else
      let s1 := s.modPart p fun v => v.modStage g fun y => { y with run := some t, wait := none, done := false, incomplete := false }
      match tagFail s1 p g t with
      | some (pg, sl) => tagMismatch p pg sl s1
      | none => stageWrites p g t (doMoves p g t s1)

def execStageStepStart (part stage : Nat) (s : State) : Res :=
  act (partOk part) (when (hasStage s part stage) (stepStart part stage)) s

/-- The ancestor masks of the tree nodes that a step carries, which travel with their activations on the scheduled flow to the
next stage (05 R142), in a draft partition and in every member of a span too. -/
def maskFlits (s : State) (p g : Nat) (t : Tok) : List Out :=
  match siteOfLogical s p ((s.part p).stage g).leader, siteOfLogical s p ((s.part p).stage (g + 1)).leader with
  | some a, some b => (t.ents.filter fun e => e.masks ≠ []).map fun e => .flit 1 a b (e.slot :: e.masks)
  | _, _ => []

/-- The sequences of a token as the next member of a span needs them. -/
def spanSeqsOf (s : State) (p : Nat) (t : Tok) : List SpanSeq :=
  t.ents.filterMap fun e =>
    if (s.part p).isMember then (SMap.find (s.part p).spanSeqs e.slot).map fun x => ⟨e.slot, x.1, x.2.1, x.2.2⟩
    else (reqOfSlot s p e.slot).map fun x =>
      let v := s.sess x.2.session
      ⟨e.slot, x.2.session, v.tenant, v.group.getD 0⟩

/-- A step leaves the last local stage of a span whose next member runs it on (13 R332). -/
def toNextMember (p : Nat) (t : Tok) (s : State) : State :=
  let q := s.part p
  let s1 := if q.isHead then s.modPart p fun v => { v with
      awayClock := if v.away = [] then s.now else v.awayClock, away := v.away ++ [t] } else s
  sendSpan p (q.spanPos + 1) (.token t (spanSeqsOf s p t)) s1

/-- A stage that has arrived at an Equinox keeps what it holds until EQX_GO (R121 items 2 and 8). -/
def Part.stays (q : Part) (g : Nat) : Bool :=
  (q.stage g).hold && match q.eqx with
    | some e => decide (e.phase ≠ 2) || e.arrived.contains g
    | none => true

/-- STAGE_STEP_HANDOFF (R112, R115): to the next stage's input, or out of the last stage; STEP_DONE goes out. -/
def stepHandoff (p g : Nat) (s : State) : State :=
  let q := s.part p
  let x := q.stage g
  match x.run with
  | none => s
  | some t =>
    let last := g + 1 = q.stages.length
    let goesOn := q.spanPos + 1 < q.span.length
    if x.incomplete || q.stays g || x.faulted then s
    else if last ∨ q.inputFree (g + 1) = true then
      let s1 := s.modPart p fun v =>
        let v1 := v.modStage g fun y => { y with run := none, done := false, outs := y.outs ++ [t.step] }
        if last then (if goesOn then v1 else { v1 with leaving := v1.leaving ++ [{ t with retry := 0 }] })
        else { v1 with transit := v1.transit ++ [(g + 1, { t with retry := 0 })] }
      let s2 := if last ∧ goesOn then toNextMember p { t with retry := 0 } s1 else s1
      let s3 := if last then s2 else (maskFlits s p g t).foldl (fun u o => u.emit o) (tokGoes p (g + 1) { t with retry := 0 } s2)
      toSteward .stepDone p g 0 (leBytes 4 g ++ leBytes 4 t.step ++ leBytes 24 0) (s3.emit (.notice g agStw 0x61 [p, g, t.step]))
    else s

def execStageStepHandoff (part stage : Nat) (s : State) : Res :=
  act (partOk part) (when (hasStage s part stage) (stepHandoff part stage)) s

/-- STEP_DONE of a step that a stage has handed on (R117): the clock of the stage's next step starts, and that of the same step
at the next stage, unless an earlier one still runs there. -/
def stepDone (p g k : Nat) (s : State) : State :=
  (atSteward .stepDone p g s).modPart p fun v =>
    if !(v.stage g).outs.contains k then v
    else
      let v1 := v.modStage g fun y => { y with clock := s.now, outs := y.outs.erase k }
      v1.modStage (g + 1) fun y => if y.run.any fun t => t.step ≠ k then y else { y with clock := s.now }

def execStepDone (part stage step : Nat) (s : State) : Res :=
  act (partOk part) (when (hasStage s part stage && decide (step < 2 ^ 32)) (stepDone part stage step)) s

/-- STEP_RERUN (R114). -/
def stepRerun (p g : Nat) (s : State) : State :=
  let x := (s.part p).stage g
  match x.run with
  | none => s
  | some t =>
    if x.incomplete = false then s
    else if t.retry < s.fld (pgSched p) 0 0x124 16 4 then
      (s.modPart p fun v => v.modStage g fun y => { y with run := some { t with retry := t.retry + 1 }, incomplete := false }).bump
        (pgSched p) 0 0x190
    else faultStage p g (s.err (pgSched p) 1 0x402A (g + t.step * 2 ^ 32) (pack [(0, g), (4, t.step)]))

def execStepRerun (part stage : Nat) (s : State) : Res :=
  act (partOk part) (when (hasStage s part stage) (stepRerun part stage)) s

/-- The step a stage is timed on, once the STEP_DONE notices from which its limit runs have come (R117): the one it runs, or one
it could start while no Equinox is in progress. A finished one that it cannot hand on is not timed while an Equinox holds it
(notes/assumptions/19.md). -/
def timedTok (q : Part) (g : Nat) : Option Tok :=
  let held := q.eqx.isSome || decide (q.ps = .paused)
  let due (t : Tok) : Bool := (q.stage g).outs.isEmpty && (decide (g = 0) || !(q.stage (g - 1)).outs.contains t.step)
  (match (q.stage g).run with
    | some t => if (q.stage g).done && held then none else some t
    | none => if held then none else (q.stage g).wait).filter due

def stageTimeout (p g : Nat) (s : State) : State :=
  match timedTok (s.part p) g with
  | none => s
  | some t =>
    if ((s.part p).stage g).faulted = false ∧ ((s.part p).stage g).clock + stageLimit s p g t ≤ s.now then
      let s1 := s.modPart p fun v => v.modStage g fun x => { x with timed := some t.replay }
      faultStage p g ((s1.bump (pgSched p) 0 0x198).err (pgSched p) 0 0x4021 (g + t.step * 2 ^ 32)
        (pack [(0, p), (1, g), (4, t.step)]))
    else s

/-- The head of a span times the member at place `pos` as a whole (13 R332), from the later of the hand-off of the oldest step
away and the last results: 0x4021 under the number that many after the last local stage, and the member's first stage is
faulted. -/
def memberTimeout (p pos : Nat) (s : State) : State :=
  let q := s.part p
  match q.away with
  | [] => s
  | t :: _ =>
    let g := q.stages.length + pos - 1
    if q.eqx.isNone ∧ q.ps ≠ .paused ∧ q.awayClock + memberLimit s p pos t ≤ s.now then
      sendSpan p pos (.fault 0) (((s.modPart p fun v => { v with awayClock := s.now }).bump (pgSched p) 0 0x198).err (pgSched p) 0 0x4021
        (g + t.step * 2 ^ 32) (pack [(0, p), (1, g), (4, t.step)]))
    else s

def execStageTimeout (part stage : Nat) (s : State) : Res :=
  let q := s.part part
  act (partOk part) (fun t =>
    if hasStage s part stage then stageTimeout part stage t
    else when (q.isHead && decide (stage + 1 < q.stages.length + q.span.length)) (memberTimeout part (stage + 1 - q.stages.length)) t) s

/-! ### The Equinox (R120, R121) -/

/-- EQX_REQ goes to a stage's leader. -/
def reqGoes (p g n : Nat) (s : State) : State := toLeader .eqxReq p g n [List.replicate 32 0] (s.emit (.notice agStw g 0x5E [p, n]))

/-- EQX_START: with a cause pending, the cut: injection stops, EQX_REQ goes to every stage leader,
and from the head of a span to every member (13 R333). -/
def eqxBegin (p : Nat) (s : State) : State :=
  let q := s.part p
  if q.ps = .running ∧ q.eqx = none ∧ q.causes ≠ 0 ∧ q.isMember = false then
    let n := (q.eqxNum + 1) % 2 ^ 32
    let fs := (q.stages.zipIdx.filter fun g => g.1.faulted).map (·.2)
    let e : Eqx := { num := n, causes := q.causes, start := s.now, phase := 2, faults := fs, sol := q.solstice.getD 0xFF }
    let s0 := if q.isHead then tellMembers p (.eqxReq n (q.solstice.getD 0xFF)) s else s
    let s1 := setPs p .equinox (standClocks p (s0.modPart p fun v => { v with eqx := some e, causes := 0 }))
    let s2 := (List.range q.stages.length).foldl (fun t g => reqGoes p g n t) s1
    eqxArrived p s2
  else s

def execEqxStart (part : Nat) (s : State) : Res := act (partOk part) (eqxBegin part) s

def eqxInterval (p : Nat) (s : State) : State :=
  let q := s.part p
  let iv := s.fld (pgSched p) 0 0x124 0 16
  when (decide (iv ≠ 0) && decide (q.lastEqx + iv * us ≤ s.now) && q.eqx.isNone && !q.isMember &&
    (decide (q.ps = .running) || decide (q.ps = .draining))) (postCause p 4) s

def execEqxInterval (part : Nat) (s : State) : Res := act (partOk part) (eqxInterval part) s

/-- EQX_REQ at a stage leader: the running step is finished (re-runs included), none is started, EQX_ARRIVE goes out. -/
def eqxReq (p g : Nat) (s : State) : State :=
  let q := s.part p
  let x := q.stage g
  match q.eqx with
  | none => s
  | some e =>
    if e.phase = 2 ∧ e.reqd.contains g = false ∧ x.faulted = false ∧ x.incomplete = false then
      (s.modPart p fun v => { (v.modStage g fun y => { y with done := y.run.isSome, hold := true }) with
        eqx := some { e with reqd := e.reqd ++ [g] } }).emit (.notice g agStw 0x5F [p, e.num]) |>
        atLeader .eqxReq p g |> toSteward .eqxArrive p g e.num (arriveMask g)
    else s

def execEqxReq (part stage : Nat) (s : State) : Res :=
  act (partOk part) (when (hasStage s part stage) (eqxReq part stage)) s

/-- EQX_ARRIVE at the Steward; at the last arrival steps 3 to 8 follow. -/
def eqxArrive (p g : Nat) (s : State) : State :=
  match (s.part p).eqx with
  | none => s
  | some e =>
    if e.phase = 2 ∧ e.reqd.contains g = true ∧ e.arrived.contains g = false then
      eqxArrived p (arriveTaken p g (s.modPart p fun v => { v with eqx := some { e with arrived := e.arrived ++ [g] } }))
    else s

def execEqxArrive (part stage : Nat) (s : State) : Res :=
  act (partOk part) (when (hasStage s part stage) (eqxArrive part stage)) s

/-- EQX_GO: the stage resumes its held and waiting steps. -/
def eqxGo (p g : Nat) (s : State) : State :=
  when (decide ((s.part p).eqx = none) && decide ((s.part p).ps ≠ .paused))
    (fun t => atLeader .eqxGo p g (t.modPart p fun v => v.modStage g fun y => { y with hold := false })) s

def execEqxGo (part stage : Nat) (s : State) : Res :=
  act (partOk part) (when (hasStage s part stage) (eqxGo part stage)) s

/-! ### SCHED_CTRL (R124-R126) -/

/-- SCHED_CTRL.pause: the host's holder bit. -/
def schedPause (p : Nat) (s : State) : State := if bitAt (s.part p).holders 0 then s else setHolder p 0 s

def execSchedPause (ag part : Nat) (s : State) : Res :=
  act (agentOk ag && partOk part) (regCmd ag (pgSched part) 0x120 1 (schedPause part)) s
def execSchedResume (ag part : Nat) (s : State) : Res :=
  act (agentOk ag && partOk part) (regCmd ag (pgSched part) 0x120 2 (clearHolder part 0)) s
def execSchedEqxReq (ag part : Nat) (s : State) : Res :=
  act (agentOk ag && partOk part) (regCmd ag (pgSched part) 0x120 4 (postCause part 5)) s

/-! ### Speculation and pages -/

/-- SPEC_OUTCOME: the target's last stage has its distribution at a node, tokens with weights and log-probabilities. -/
def execSpecOutcome (part slot node : Nat) (toks : List W32) (probs : List Nat) (lps : List W32) (s : State) : Res :=
  act (partOk part && decide (slot < 4096)) (outcome part slot node
    (((toks.zip probs).zip lps).map fun e => ⟨e.1.1, e.1.2, e.2⟩)) s

def execTreePagesRelease (part slot : Nat) (s : State) : Res :=
  act (partOk part && decide (slot < 4096)) (treePagesRelease part slot) s

/-- PAGE_GRANT (06 R161): the oldest grant that waits at a core, other than a copy, is applied. -/
def pageGrant (p core : Nat) (s : State) : State :=
  match takeGrant core (fun g => decide (g.op ≠ .copy)) (s.pool p).copies with
  | none => s
  | some (g, rest) => applyGrant p g (grantComes g (s.modPool p fun q => { q with copies := rest }))

def execPageGrant (part core : Nat) (s : State) : Res := act (partOk part && decide (core < 16384)) (pageGrant part core) s

/-- A copy that can land: the grant of its frame has been applied, so its trailer is zeroed (06 R156, R164). -/
def copyReady (l : List Grant) (g : Grant) : Bool :=
  decide (g.op = .copy) && !l.any fun x => decide (x.op = .allocate) && decide (x.page = g.page)

/-- PAGE_COPY_DONE (06 R164): the oldest copy at a core whose frame stands ready lands. -/
def pageCopyDone (p core : Nat) (s : State) : State :=
  match takeGrant core (copyReady (s.pool p).copies) (s.pool p).copies with
  | none => s
  | some (g, rest) => landCopy p g (grantComes g (s.modPool p fun q => { q with copies := rest }))

def execPageCopyDone (part core : Nat) (s : State) : Res :=
  act (partOk part && decide (core < 16384)) (pageCopyDone part core) s

def execPageAgeExamine (part page : Nat) (s : State) : Res := act (partOk part) (ageExamine part page) s

/-- A write of SVC_KV_PQ (06 R178). -/
def pageQueryAct (s : State) : State :=
  let p := s.fld pgKv 0 0x100 0 4
  (pageSnapshot (s.pool p) (s.regN pgKv 0 0x130)).zipIdx.foldl (fun t e => t.setRegN pgKv 0 (0x134 + 4 * e.2) e.1) s

def execKvPageQuery (ag : Nat) (v : W32) (s : State) : Res := act (agentOk ag) (regStore ag pgKv 0x130 v.toNat pageQueryAct) s

end Sys2Proof.Machine
end

