-- ==== Sys2Proof/Machine/LinkOps.lean ====
section
/-! DEFINITION. The receiving side of the Merdutra links (13): frames, packets in end-to-end order, remote windows,
spans. -/

namespace Sys2Proof.Machine

/-! ### Lanes of a port (R323, R327) -/

def hUnits (h : List Byte) : Nat := leNat ((h.drop 6).take 1)
/-- Frames of the packet whose first frame has body `h`. -/
def hFrames (h : List Byte) : Nat := (hUnits h + 8) / 8
def hKind (h : List Byte) : Nat := leNat (h.take 1)
def kindBad (h : List Byte) : Bool := decide (hKind h = 0) || decide (5 < hKind h) || decide (128 < hUnits h)

/-- Remove the packet in front, with the frames of it still to come. -/
def LaneIn.skip (l : LaneIn) : LaneIn :=
  match l.frames with
  | [] => l
  | h :: _ => { frames := l.frames.drop (hFrames h), drop := hFrames h - l.frames.length, checked := false }

/-- Discard and count packets of reserved kinds that come to the front. -/
def settleLane : (fuel : Nat) → LaneIn → Nat → LaneIn × Nat
  | 0, l, n => (l, n)
  | f + 1, l, n => match l.frames with
    | [] => (l, n)
    | h :: _ => if kindBad h then settleLane f l.skip (n + 1) else (l, n)

def State.lane (s : State) (p v : Nat) : LaneIn := SMap.get (s.mport p).lanes {} v

/-- Frames taken from a lane return their credits, in a frame of kind 3 (R323, R325). -/
def giveCredits (p v n : Nat) (s : State) : State :=
  if n = 0 then s else emitFrame p 3 v (s.mport p).next [] s (Nat.min n 255)

/-- A lane of which `n` frames were held. -/
def setLane (p v n : Nat) (l : LaneIn) (s : State) : State :=
  let r := settleLane (l.frames.length + 1) l 0
  giveCredits p v (n - r.1.frames.length)
    ((s.modPort p fun q => { q with lanes := SMap.set q.lanes {} v r.1 }).modMlk fun m => { m with badKinds := m.badKinds + r.2 })

/-- The packet in front of a lane leaves it. -/
def skipFront (p v : Nat) (s : State) : State := setLane p v (s.lane p v).frames.length (s.lane p v).skip s

/-- A data frame's units join their lane. -/
def pushLane (p v : Nat) (body : List Byte) (s : State) : State :=
  let l := s.lane p v
  let n := l.frames.length + 1
  if 0 < l.drop then setLane p v n { l with drop := l.drop - 1 } s else setLane p v n { l with frames := l.frames ++ [body] } s

/-- The header in front of a lane, where its kind is `kind`. -/
def frontOf (s : State) (p v kind : Nat) : Option (List Byte) :=
  match (s.lane p v).frames with
  | h :: _ => if hKind h = kind then some h else none
  | [] => none

/-- The whole packet in front of a lane, and the lane without it. -/
def takeFront (s : State) (p v kind : Nat) : Option (Pkt × State) :=
  match frontOf s p v kind with
  | none => none
  | some h =>
    let l := s.lane p v
    if l.frames.length < hFrames h then none
    else
      let b := (l.frames.take (hFrames h)).flatten
      some ({ pktOf h with data := (b.drop 32).take (32 * hUnits h) }, skipFront p v s)

/-! ### Frames (R324) -/

/-- Frames up to the acknowledged number leave the replay buffer. -/
def ackFrames (a : Nat) (tx : List (Nat × List Byte)) : List (Nat × List Byte) :=
  tx.dropWhile fun f => f.1 = a || seqBefore f.1 a

def askReplay (p : Nat) (s : State) : State := emitFrame p 2 0 0 [] s

/-- A replay request: every frame from the one requested is sent again. -/
def replayFrames (p : Nat) (s : State) : State :=
  let q := s.mport p
  match q.tx with
  | [] => s
  | f :: _ =>
    let n := match q.replayed with
      | some (g, n) => if g = f.1 then n + 1 else 1
      | none => 1
    let s1 := (s.modPort p fun v => { v with replayed := some (f.1, n) }).bump (pgPort p) 0 0x188 q.tx.length
    q.tx.foldl (resendFrame p) s1

/-- A port receives a frame; `ce` and `ue` are the codewords that its FEC corrected and could not correct. -/
def linkFrame (p : Nat) (b : List Byte) (ce ue : Nat) (s : State) : State :=
  if portSt s p ≠ 2 then s
  else
    let s1 := (s.bump (pgPort p) 0 0x180 ce).bump (pgPort p) 0 0x184 ue
    let s2 := s1.modPort p fun q =>
      let l := q.ues ++ List.replicate (Nat.min ue 16) s.now
      { q with ues := l.drop (l.length - 16) }
    let n (o k : Nat) : Nat := leNat ((b.drop o).take k)
    if b.length ≠ 272 ∨ crc64 (b.take 264) ≠ n 264 8 then askReplay p s2
    else
      let s3 := portGo p (s2.modPort p fun q => { q with tx := ackFrames (n 2 2) q.tx })
      let kind := n 4 1 % 4
      let v := n 4 1 / 4 % 4
      if kind = 0 then
        if n 0 2 = (s3.mport p).rx then
          pushLane p v ((b.drop 8).take 256) (s3.modPort p fun q => { q with rx := (q.rx + 1) % 65536 })
        else askReplay p s3
      else if kind = 2 then replayFrames p s3
      else if kind = 3 then portGo p (s3.modPort p fun q => { q with credits := SMap.upd q.credits 0 v fun c => c + n 5 1 })
      else s3

/-! ### Training (R322, R324, R326) -/

def tenSec : Nat := 10 * sec

def portDown (p : Nat) (s : State) : State := (setPortSt p 4 s).err (pgPort p) 0 0x6010 p (pack [(0, p)])

/-- Start a retrain: counted, traced; the third within 10 s takes the port DOWN. -/
def startRetrain (p : Nat) (s : State) : State :=
  let h := ((s.mport p).retrains.filter fun t => s.now < t + tenSec) ++ [s.now]
  let s1 := (((s.modPort p fun q => { q with retrains := h, since := s.now, replayed := none, ues := [] }).bump
    (pgPort p) 0 0x18C).raise (pgPort p) 0x6011 (pack [(0, p)]))
  if 3 ≤ h.length then portDown p s1 else setPortSt p 3 s1

def portRetrain (p : Nat) (s : State) : State :=
  let q := s.mport p
  let many := match q.replayed with
    | some (_, n) => decide (8 ≤ n)
    | none => false
  let fec := decide (16 ≤ (q.ues.filter fun t => s.now < t + ms).length)
  if portSt s p = 2 ∧ (many || fec) = true then startRetrain p s else s

/-- Training ends: on plane `plane` where it succeeds; a retrain has 500 ms. -/
def portTrained (p : Nat) (up : Bool) (plane : Nat) (s : State) : State :=
  let st := portSt s p
  if st ≠ 1 ∧ st ≠ 3 then s
  else if up = false ∨ (st = 3 ∧ (s.mport p).since + 500 * ms < s.now) then portDown p s
  else
    let s1 := s.setFld (pgPort p) 0 0x100 4 4 plane
    if plane ≠ p then ((setPortSt p 0 s1).setFld (pgPort p) 0 0x100 3 1 1).err (pgPort p) 1 0x6012 p (pack [(0, p), (1, plane)])
    else
      let s2 := setPortSt p 2 s1
      portGo p (if st = 3 then (s2.mport p).tx.foldl (resendFrame p) s2 else s2)

/-- Training starts afresh: numbers from 0, nothing kept. -/
def startTrain (p : Nat) (s : State) : State :=
  ((setPortSt p 1 s).setFld (pgPort p) 0 0x100 3 1 0).modPort p fun q =>
    { q with next := 0, tx := [], rx := 0, replayed := none, ues := [], since := s.now, lanes := [], credits := [], spent := [], queues := [] }

def portEnable (p : Nat) (on : Bool) (s : State) : State :=
  if on then (if portSt s p = 0 then startTrain p s else s) else setPortSt p 0 s

def retrainCmd (p : Nat) (s : State) : State :=
  if portSt s p = 4 then startRetrain p (s.modPort p fun q => { q with retrains := [] })
  else if portSt s p = 2 then startRetrain p s
  else s

/-! ### Peers (R329, R330) -/

/-- Something has been received from a peer on a port; one never lost becomes reachable. -/
def heard (p m : Nat) (s : State) : State :=
  (s.modPort p fun q => { q with heard := SMap.put q.heard m s.now }).modPeer m fun x =>
    { x with last := some s.now, reach := x.reach || !x.lost }

def deadTime (s : State) : Nat := s.fld pgGroup 0 0x104 12 20 * us

/-- Nothing has been heard from a peer for peer_dead_us, nor since the start where it was never heard. -/
def silent (s : State) (m : Nat) : Bool := decide ((s.peer m).last.getD 0 + deadTime s ≤ s.now)

/-- Packets to a lost module complete as refused with code 5 (R338). -/
def refuseTo (m : Nat) (s : State) : State :=
  let mine := s.mlk.tx.filter fun e => e.pkt.dst = m
  mine.foldl (fun t e => if e.pkt.kind = 1 then refusal e.own e.pkt 5 none t else t)
    (s.modMlk fun x => { x with tx := x.tx.filter fun e => e.pkt.dst ≠ m })

/-- A peer has been lost: one that was never heard too (R330). -/
def peerLost (m : Nat) (s : State) : State :=
  if m ≠ myModule s ∧ (s.peer m).lost = false ∧ silent s m = true then
    let s1 := (s.modPeer m fun x => { x with reach := false, lost := true }).bump pgGroup 0 0x188
    let s2 := (s1.modMlk fun x => { x with
      flights := x.flights.filter fun f => f.src ≠ m
      held := SMap.keep x.held fun k _ => k / 4 ≠ m }).err pgGroup 0 0x6020 m (pack [(0, m)])
    spansEnd m (fun _ => false) (refuseTo m s2)
  else s

def peerHeard (m : Nat) (s : State) : State :=
  if (s.peer m).lost = true ∧ silent s m = false then
    (s.modPeer m fun x => { x with reach := true, lost := false }).raise pgGroup 0x6023 (pack [(0, m)])
  else s

/-! ### Windows (R334-R337) -/

def State.rwin (s : State) (w : Nat) : RWin := SMap.get s.mlk.wins {} w
def State.modWin (s : State) (w : Nat) (f : RWin → RWin) : State := s.modMlk fun m => { m with wins := SMap.upd m.wins {} w f }

def wKind (d : BitVec 256) : Nat := dBits d 0 8
def wPart (d : BitVec 256) : Nat := dBits d 8 4
def wCore (d : BitVec 256) : Nat := dBits d 16 14
def wBase (d : BitVec 256) : Nat := if wKind d = 0 then dBits d 32 64 else dBits d 32 20
def wSize (d : BitVec 256) : Nat := dBits d 96 28
def wKey (d : BitVec 256) : Nat := dBits d 128 12
def wOwner (d : BitVec 256) : Nat := dBits d 140 2
def wCtr (d : BitVec 256) : Nat := dBits d 144 5

/-- A descriptor that can be opened: a defined kind, a window that lies in its memory, an owner of a key slot. -/
def winValid (d : BitVec 256) : Bool :=
  if wKind d = 0 then
    decide (wBase d % 256 = 0) && decide (wBase d + 32 * wSize d ≤ t1Bytes) &&
      (decide (wOwner d = 1) || (decide (wOwner d = 2) && decide (wKey d < 64)))
  else if wKind d = 1 then decide (wBase d + wSize d ≤ 12288 * 64)
  else false

/-- The header checks of R336, in their order: the code of the first that fails. -/
def writeCheck (s : State) (k : Pkt) (units : Nat) : Option Nat :=
  let w := s.rwin k.window
  if w.st ≠ 1 ∨ k.gen ≠ w.gen then some 1
  else if 32 * wSize w.desc < k.off + 32 * units then some 2
  else if dBits w.desc (160 + k.src) 1 = 0 ∨ (s.peer k.src).lost = true then some 3
  else if wKind w.desc = 0 ∧ (keySlot s (wOwner w.desc) (wKey w.desc)).key = none then some 4
  else none

/-- Answer a packet on VL0: an ACK or a NAK with its tag; neither is acknowledged (notes/assumptions/33.md). -/
def answer (kind window gen : Nat) (k : Pkt) (s : State) : State :=
  transmit { kind := kind, lane := 0, dst := k.src, src := myModule s, e2e := k.e2e, window := window, gen := gen, tag := k.tag } s

def sendNak (k : Pkt) (code : Nat) (s : State) : State := answer 2 code (s.rwin k.window).gen k s

/-- The data of an accepted WRITE is written: T1 under the window's key slot, lines that the host may hold after their snoop (02
R23), or a core's scratchpad. -/
def applyWrite (k : Pkt) (s : State) : State :=
  let d := (s.rwin k.window).desc
  if wKind d = 0 then
    devWrite (tagT1 4) { owner := wOwner d, slot := wKey d, req := 4 } (wBase d + k.off) k.data s
  else match siteOfLogical s (wPart d) (wCore d) with
    | none => s
    | some site =>
      let n := pktUnits k
      let fl := (List.range n).map fun i =>
        ({ pid := 0, idx := i, len := n, vc := 4, src := site, dst := site, data := (k.data.drop (32 * i)).take 32, loc := site } : Flit)
      if coreFenced s site then fencedDrop site n s
      else depositPacket site (wBase d + k.off / 32) fl (some (wCtr d)) false s

/-! ### Messages of a span (R332, R333) -/

/-- A member allocates the pages of a token and injects it; a shortage goes to the head. A stopped Steward does neither: the
token stays (01 R16). -/
def placeToken (p : Nat) (t : Tok) (s : State) : State :=
  if s.mg.stwDead then s.modPart p fun q => { q with inbox := q.inbox ++ [t] } else
  let r := t.ents.foldl (fun (a : State × Option Nat) e => match a.2, SMap.find (s.part p).spanSeqs e.slot with
    | none, some q => (match growAll p q.1 e.slot q.2.1 q.2.2 (e.pos + e.ntok) (a.1.pool p).groupIdx a.1 with
      | .ok u => (u, none)
      | .error _ => (a.1, some e.slot))
    | _, _ => a) (s, none)
  match r.2 with
  | none => tokGoes p 0 t (r.1.modPart p fun q => { q with transit := q.transit ++ [(0, t)] })
  | some sl => sendSpan p 0 (.shortage sl) (s.modPart p fun q => { q with inbox := q.inbox ++ [t] })

/-- Tokens that waited for pages are tried again, in order. -/
def retryInbox (p : Nat) (s : State) : State :=
  (s.part p).inbox.foldl (fun t k => placeToken p k t) (s.modPart p fun q => { q with inbox := [] })

/-- A page shortage on a member: the head drops sessions (06 R175). -/
def spanShortage (p slot : Nat) (s : State) : State :=
  match reqOfSlot s p slot with
  | none => s
  | some (rid, _) => match dropOne p none rid s with
    | .done t => t
    | .later t => t
    | .none_ => poolFullEnd p rid s

/-- EQX_REQ at a paused member, for a resume: it records and answers at once; a relocation of its own that is under way becomes
the Equinox's (notes/assumptions/45.md). -/
def memberResume (p n sol : Nat) (s : State) : State :=
  let q := s.part p
  let e0 : Eqx := q.eqx.getD { num := n, causes := q.causes, start := s.now, phase := 6 }
  let e : Eqx := { e0 with num := n, sol := sol, own := false }
  if s.mg.stwDead then s
  else sendSpan p 0 (.arrive n e.faults q.causes q.holders (epochReady q sol) q.heldSteps)
    (recordEqx p e (s.modPart p fun v => { v with eqx := some e, causes := 0 }))

/-- EQX_REQ at a member: the cut of its own stages. -/
def memberEqx (p n sol : Nat) (s : State) : State :=
  let q := s.part p
  if q.ps = .paused ∨ (q.eqx.any (·.own)) = true then memberResume p n sol s
  else if q.eqx.isSome then s
  else
    let fs := (q.stages.zipIdx.filter fun g => g.1.faulted).map (·.2)
    let e : Eqx := { num := n, causes := q.causes, start := s.now, phase := 2, faults := fs, sol := sol }
    let s1 := setPs p .equinox (standClocks p (s.modPart p fun v => { v with eqx := some e, causes := 0 }))
    eqxArrived p ((List.range q.stages.length).foldl (fun t g => reqGoes p g n t) s1)

/-- SPAN_ARRIVE at the head. -/
def headArrive (p pos : Nat) (faults : List Nat) (causes hold : Nat) (ready : Bool) (held : List Nat) (s : State) : State :=
  let s1 := s.modPart p fun v => { v with
    spanHold := SMap.set v.spanHold 0 pos hold
    eqx := v.eqx.map fun e =>
      if e.spanIn.any fun a => a.pos = pos then e
      else { e with spanIn := e.spanIn ++ [⟨pos, faults, ready, held⟩], causes := e.causes ||| causes } }
  eqxArrived p s1

/-- EQX_APPLY at a member: steps that a later member's fault abandons are dropped; committed sets apply. -/
def memberApply (p n : Nat) (drop : Bool) (s : State) : State :=
  match (s.part p).eqx with
  | none => s
  | some e =>
    if e.phase = 6 then
      let s1 := if drop then setAbandoned p (let r := (s.part p).takeUpTo ((s.part p).stages.length - 1)
        (r.1, { r.2 with inbox := [] })) s else s
      eqxFinish p { e with num := n } s1
    else s

/-- Step 6 at a member: it follows the epoch that the head has latched. -/
def memberLatch (p n ep : Nat) (s : State) : State :=
  if ep = 0xFF ∨ (s.part p).epOther ≠ ep then s
  else latchSolstice p n (s.modPart p fun v => { v with solstice := some ep })

/-- EQX_GO at a member: it releases its stages; a stopped Steward releases none (01 R16). -/
def memberGo (p n ep : Nat) (s : State) : State :=
  if s.mg.stwDead then s else
  match (s.part p).eqx with
  | none => s
  | some e => eqxRelease p { e with num := n } (memberLatch p n ep s)

/-- Step 7 at a member: the partition pauses (13 R333), and moves that its holder bit waits for can run (16 R379). -/
def memberPause (p n ep : Nat) (s : State) : State :=
  if s.mg.stwDead ∨ (s.part p).eqx = none then s
  else setPs p .paused ((memberLatch p n ep s).modPart p fun v => { v with eqx := none, eqxNum := n })

/-- A module of a span reports no site: every partition here whose span has it ends, and a head tells the others (R338). -/
def spanNoSite (m : Nat) (s : State) : State := spansEnd m (fun q => q.isHead) s

/-- What a CTRL message from the module at place `pos` of partition `p`'s span does. -/
def spanDo (p pos m : Nat) (msg : SpanMsg) (s : State) : State :=
  let q := s.part p
  match msg with
  | .token t seqs =>
    placeToken p t (s.modPart p fun v => { v with spanSeqs := seqs.foldl (fun a x => SMap.put a x.slot (x.sess, x.tenant, x.grp)) v.spanSeqs })
  | .results step res =>
    match q.away.find? fun t => t.step = step with
    | none => s
    | some t => drainDone p (t.ents.foldl (commitEnt p t res) (s.modPart p fun v => { v with awayClock := s.now, away := v.away.filter fun u => u.step ≠ step }))
  | .shortage slot => spanShortage p slot s
  | .release sess len edge =>
    retryInbox p (if len = 0 ∧ edge = false then freeLocal p sess s else truncLocal p sess len edge s)
  | .cause bit => postCause p bit s
  | .fault g => if q.isMember then (if g < q.stages.length then faultStage p g s else s) else memberFault p pos g s
  | .eqxReq n sol => memberEqx p n sol s
  | .arrive _ faults causes hold ready held => headArrive p pos faults causes hold ready held s
  | .relocated _ true => relocOver p (s.modPart p fun v => { v with eqx := v.eqx.map fun e => { e with spanOk := e.spanOk ++ [pos] } })
  | .relocated _ false => spanNoSite m s
  | .applySets n drop => memberApply p n drop s
  | .applied _ => spanApplied p pos s
  | .holders h => resumeEqx p (s.modPart p fun v => { v with spanHold := SMap.set v.spanHold 0 pos h })
  | .go n ep => memberGo p n ep s
  | .pause n ep => memberPause p n ep s
  | .load .. | .sect .. => s

/-- What a message is about an image, which comes before its partition has a span (R331). -/
def imageMsg : SpanMsg → Bool
  | .load .. | .sect .. => true
  | _ => false

/-- A message counts only from a module of the partition's span; parts of an image are kept for their load. -/
def spanMsg (p m : Nat) (msg : SpanMsg) (s : State) : State :=
  if imageMsg msg then s.modMlk fun v => { v with recv := v.recv ++ [(m, p, msg)] }
  else match (s.part p).span.findIdx? (· = m) with
  | none => s
  | some pos => if (s.part p).ps = .unloaded ∨ (s.part p).ps = .lost then s else spanDo p pos m msg s

/-! ### Delivery in end-to-end order (R328, R329) -/

def srcKey (k : Pkt) : Nat := k.src * 4 + k.lane

/-- Deliver one packet: a refused one leaves its code behind; others act and are acknowledged. -/
def deliverPkt (x : InPkt) (s : State) : State :=
  let k := x.pkt
  match x.refused with
  | some c => s.modMlk fun m => { m with
      refused := SMap.upd m.refused [] (srcKey k) fun l => ((k.e2e, c) :: l).take 256 }
  | none =>
    let s1 := if k.kind = 1 then
        (applyWrite k s).modMlk fun m => { m with
          flights := m.flights.filter fun f => !(f.src = k.src && f.lane = k.lane && f.e2e = k.e2e) }
      else match x.msg with
        | some (p, msg) => spanMsg p k.src msg s
        | none => s
    answer 3 0 0 k s1

def deliverAll (key : Nat) : (fuel : Nat) → State → State
  | 0, s => s
  | f + 1, s =>
    let want := SMap.get s.mlk.want 0 key
    let l := SMap.get s.mlk.held [] key
    match l.find? fun x => x.pkt.e2e = want with
    | none => s
    | some x =>
      deliverAll key f (deliverPkt x (s.modMlk fun m => { m with
        want := SMap.set m.want 0 key ((want + 1) % 65536)
        held := SMap.set m.held [] key (l.filter fun y => y.pkt.e2e ≠ want) }))

/-- A packet joins the reorder buffer of its source, and what is in order is delivered. -/
def acceptPkt (x : InPkt) (s : State) : State :=
  let key := srcKey x.pkt
  deliverAll key 257 (s.modMlk fun m => { m with held := SMap.upd m.held [] key fun l => l ++ [x] })

/-- Packets of a source that wait in its reorder buffer, with its WRITEs in flight, which go there (R328). -/
def heldFrom (s : State) (src : Nat) : Nat :=
  ((List.range 4).map fun v => (SMap.get s.mlk.held [] (src * 4 + v)).length).sum +
  (s.mlk.flights.filter fun f => f.src = src && !f.whole).length

/-- How a numbered packet stands: 0 new, 1 delivered before, 2 already in the buffer or in flight, 3 beyond it. -/
def standing (s : State) (k : Pkt) : Nat :=
  let want := SMap.get s.mlk.want 0 (srcKey k)
  if seqBefore k.e2e want then 1
  else if ((SMap.get s.mlk.held [] (srcKey k)).any fun x => x.pkt.e2e = k.e2e) ||
      (s.mlk.flights.any fun f => f.src = k.src && f.lane = k.lane && f.e2e = k.e2e) then 2
  else if k.e2e ≠ want ∧ 256 ≤ heldFrom s k.src then 3
  else if 32768 ≤ (k.e2e + 65536 - want) % 65536 then 3
  else 0

/-- A duplicate is discarded and answered again as it was. -/
def answerAgain (k : Pkt) (s : State) : State :=
  match (SMap.get s.mlk.refused [] (srcKey k)).find? fun e => e.1 = k.e2e with
  | some e => sendNak k e.2 s
  | none => answer 3 0 0 k s

end Sys2Proof.Machine
end

