-- ==== Sys2Proof/Machine/FamQueue.lean ====
section
/-! DEFINITION. Queue transfers and WAIT (07 R199-R202), the island watchdog, and the commands of the core page and the
scratchpad ports (07 R192, R206, 08 R226, 09 R244-R246, 16 R379-R380). -/

namespace Sys2Proof.Machine

/-! ### Far windows (R199) -/

structure FWin where
  valid : Bool
  writable : Bool
  host : Bool
  remote : Bool
  base : Nat
  limit : Nat
  key : Nat
  kind : Nat
  deriving DecidableEq, Repr

def fwin (s : State) (site n : Nat) : FWin :=
  let b := s.reg64 (pgCore site) 0 (0x180 + 16 * n)
  let l := s.reg64 (pgCore site) 0 (0x188 + 16 * n)
  ⟨bitAt b 0, bitAt b 1, bitAt b 2, bitAt b 3, bitsOf b 12 36 * 4096, bitsOf l 12 36 * 4096, bitsOf l 48 12, bitsOf l 60 2⟩

/-- The window a run of `n` bytes at `far` lies wholly in, and which permits the direction. -/
def farWin (s : State) (site far n : Nat) (store : Bool) : Option FWin :=
  ((List.range 8).map (fwin s site)).find? fun w =>
    w.valid && decide (w.base ≤ far) && decide (far + n ≤ w.limit) && (w.writable || !store) &&
    (!w.remote || (store && bitAt far 47))

def qOf (i : Nat) : Nat := bitsOf i 24 5
def farAddr (c : Core) (i : Nat) : Nat := (c.greg (fA i) + fImmS i).toNat

def queueChk (s : State) (site i : Nat) (store : Bool) : List Chk :=
  let c := s.core site
  let d := c.greg (fD i)
  let far := farAddr c i
  let q := qOf i
  let r := some (rRange d)
  [⟨if store then decide (q < 16) || decide (23 < q) else decide (15 < q), 0x1002, none, 0⟩,
   ⟨rBad d, 0x1003, r, 0⟩,
   ⟨decide (far % 32 ≠ 0) || (farWin s site far (rBytes d) store).isNone, 0x100A, r, far⟩,
   ⟨!store && (rRowList d).any (wregRow s site), 0x1008, r, 0⟩,
   ⟨decide (16 ≤ (SMap.get c.qs [] q).length), 0x1009, r, 0⟩,
   needEntries c 1 (rRange d)]

/-- A QST through a remote window goes out as WRITE packets of at most 4 KiB, each with the generation of the remote
map (13 R335); to a lost module each is refused with code 5. A write into a module of the core's own span goes on VL1 (a span
window, R332), another on VL3 (R325). The answer is the packets' tags. -/
def remoteWrites (site q far : Nat) (data : List Byte) : (fuel : Nat) → (off : Nat) → List Nat → State → List Nat × State
  | 0, _, tags, s => (tags, s)
  | f + 1, off, tags, s =>
    if data.length ≤ off then (tags, s)
    else
      let d := bitsOf far 41 6
      let w := bitsOf far 33 8
      let lane := match boundAt s site with
        | some (p, _) => if (s.part p).span.contains d then 1 else 3
        | none => 3
      let k : Pkt := { kind := 1, lane := lane, dst := d, src := 0, window := w, off := bitsOf far 0 33 + off,
                       gen := s.fld pgGroup (rmapUnit d w) 0x164 0 16, data := (data.drop off).take 4096 }
      if (s.peer d).lost then
        let r := numbered k s
        remoteWrites site q far data f (off + 4096) tags (refusal none r.1 5 none r.2)
      else
        remoteWrites site q far data f (off + 4096) (tags ++ [s.mlk.tag]) (sendKeptPkt k (some (site, q)) none s)

/-- A queue transfer is issued: it takes its queue-held entry; a remote store is sent. -/
def startXfer (site q far : Nat) (desc : W64) (store : Bool) (s : State) : State :=
  let remote := match farWin s site far (rBytes desc) store with
    | some w => w.remote
    | none => false
  let data := (s.core site).readRegion desc
  let r := if remote then remoteWrites site q far data (data.length / 4096 + 1) 0 [] s else ([], s)
  let s1 := if remote then countOperand site (rElems desc) r.2 else r.2
  s1.modCore site fun c => { c with qs := SMap.upd c.qs [] q fun l => l ++ [⟨store, far, desc, r.1, false⟩] }

/-- QLD and QST take their queue-held entry; the transfer completes by QUEUE_TRANSFER_DONE. -/
def queueCmd (site op : Nat) (w : BitVec 56) (ecc : Ecc) (store : Bool) (s : State) : Res :=
  insnAct site op w (fun i t => issueWith site i ecc (queueChk t site i store)
    [(rRange ((t.core site).greg (fD i)), !store)] (fun u =>
      retire site ((u.core site).pc + 8) (startXfer site (qOf i) (farAddr (u.core site) i) ((u.core site).greg (fD i)) store u)) t) s

def execIQld (site : Nat) (w : BitVec 56) (ecc : Ecc) (s : State) : Res := queueCmd site 0x70 w ecc false s
def execIQst (site : Nat) (w : BitVec 56) (ecc : Ecc) (s : State) : Res := queueCmd site 0x71 w ecc true s

/-! ### WAIT (R201, R202) -/

def waitTarget (i : Nat) : Nat := bitsOf i 24 6
def waitN (i : Nat) : Nat := bitsOf i 32 5

/-- Whether a WAIT can retire: the counter is at most n, or the oldest u - n transfers are complete. -/
def waitOver (c : Core) (target n : Nat) : Bool :=
  if 32 ≤ target then decide ((SMap.get c.inb 0 (target - 32)).toInt ≤ (n : Int))
  else
    let l := SMap.get c.qs [] target
    (l.take (l.length - n)).all (·.done)

/-- Retire a WAIT: exactly the oldest u - n transfers of its queue retire with it. -/
def finishWait (site target n : Nat) (s : State) : State :=
  let s1 := s.modCore site fun c => { c with
    wait := none
    qs := if 32 ≤ target then c.qs else SMap.upd c.qs [] target fun l => l.drop (l.length - n) }
  retire site ((s.core site).pc + 8) s1

def execIWait (site : Nat) (w : BitVec 56) (ecc : Ecc) (s : State) : Res :=
  insnAct site 0x72 w (fun i t =>
    let tg := waitTarget i
    issueWith site i ecc [⟨decide (24 ≤ tg ∧ tg < 32) || decide (16 < waitN i), 0x1002, none, 0⟩] [] (fun u =>
      if waitOver (u.core site) tg (waitN i) then finishWait site tg (waitN i) u
      else u.modCore site fun c => { c with wait := some ⟨tg, waitN i, i, u.now⟩ }) t) s

/-- A core whose WAIT in progress may go on: RUNNING, on, clocked. -/
def waiting (s : State) (site : Nat) : Option CWait :=
  if running s (pgCore site) && (s.core site).on && !(s.core site).gated then (s.core site).wait else none

def waitRetire (site : Nat) (s : State) : State :=
  match waiting s site with
  | none => s
  | some x => if waitOver (s.core site) x.target x.n then finishWait site x.target x.n s else s

def execWaitRetire (site : Nat) (s : State) : Res := act (decide (site < sites)) (waitRetire site) s

/-- R202: program fault 0x1005, with the far address of the queue's oldest incomplete transfer. -/
def qwaitTimeout (site : Nat) (s : State) : State :=
  match waiting s site with
  | none => s
  | some x =>
    if 32 ≤ x.target || waitOver (s.core site) x.target x.n ||
        decide (s.now < x.since + s.fld (pgCore site) 0 0x114 0 16 * us) then s
    else
      match (SMap.get (s.core site).qs [] x.target).find? fun t => !t.done with
      | none => s
      | some t => progFault site x.insn 0x1005 (some (rRange t.desc)) t.far x.target s

def execQwaitTimeout (site : Nat) (s : State) : Res := act (decide (site < sites)) (qwaitTimeout site) s

/-- R206: no retirement for wdog_us outside a WAIT on an inbound counter: 0x1040, a core fault. -/
def islandWatchdog (site : Nat) (s : State) : State :=
  let c := s.core site
  let inCtr := match c.wait with
    | some x => decide (32 ≤ x.target)
    | none => false
  if running s (pgCore site) && !inCtr && decide (c.lastRet + s.fld (pgCore site) 0 0x114 16 16 * us ≤ s.now) then
    coreFault site 1 0x1040 (pack [(0, c.pc)]) (s.modCore site fun d => { d with fcode := 0x1040 })
  else s

def execIslandWatchdog (site : Nat) (s : State) : Res := act (decide (site < sites)) (islandWatchdog site) s

/-! ### Fields of the core page that act -/

/-- A write of CORE_ACC_OVF: the flags written as 1 clear. -/
def execCoreAccOvfClear (ag site : Nat) (v : W64) (s : State) : Res :=
  act (agentOk ag && decide (site < sites)) (regCmd ag (pgCore site) 0x130 v.toNat (clearOvf site v)) s

def execSrCtrWrite (ag site : Nat) (v : W64) (s : State) : Res :=
  act (agentOk ag && decide (site < sites)) (regCmd ag (pgCore site) 0x170 v.toNat
    (fun t => t.setReg64 (pgCore site) 0 0x170 v.toNat)) s

/-- CORE_SPAD_CNT_CTRL.clear: every counter of R246 but CORE_SPAD_CNT_LONG is zeroed. -/
def spadClear (site : Nat) (s : State) : State :=
  let p := pgCore site
  let s1 := (List.range 6).foldl (fun t k => t.setRegN p 0 (0x318 + 4 * k) 0) s
  (List.range 96).foldl (fun t k => t.setRegN p 0 (0x400 + 4 * k) 0) s1

def execSpadCntClear (ag site : Nat) (s : State) : Res :=
  act (agentOk ag && decide (site < sites)) (regCmd ag (pgCore site) 0x314 (2 + s.fld (pgCore site) 0 0x314 0 1) (spadClear site)) s

/-- CORE_SPAD_MAXHOLD.clear written 1 zeroes the register. -/
def execSpadMaxholdClear (ag site : Nat) (s : State) : Res :=
  act (agentOk ag && decide (site < sites)) (regCmd ag (pgCore site) 0x310 (2 ^ 31) (fun t => t.setRegN (pgCore site) 0 0x310 0)) s

/-! ### Port watchdog, scrub, debug port (09 R244, R245, 16 R379, R380) -/

/-- MAXHOLD holds the longest grant: cycles [23:0] saturating, requester [27:24], port [28], the clear bit reads 1. -/
def maxHold (site port req cycles : Nat) (s : State) : State :=
  let c := Nat.min cycles 0xFFFFFF
  if s.fld (pgCore site) 0 0x310 0 24 < c then
    s.setRegN (pgCore site) 0 0x310 (c + req * 2 ^ 24 + port * 2 ^ 28 + 2 ^ 31)
  else s

/-- A grant of `cycles` core cycles: reported once where it is longer than limit_cycles. -/
def spadHold (site port req cycles : Nat) (s : State) : State :=
  let lim := s.fld (pgCore site) 0 0x30C 0 24
  let s1 := maxHold site port req cycles s
  if lim ≠ 0 ∧ lim < cycles then
    ((s1.bump (pgCore site) 0 0x330).raiseFrom (pgCore site) agAmp 0x2030 (pack [(0, agCore site), (2, port), (3, req)]))
  else s1

def execSpadHoldWatchdog (site port req cycles : Nat) (s : State) : Res :=
  act (decide (site < sites) && decide (port < 2) && decide (req < 16)) (spadHold site port req cycles) s

def tenMin : Nat := 600 * sec

/-- Urgent scrub rewrites a corrected element; one corrected again within 10 minutes is a stuck symbol (16 R379): event
0x2006, an entry of the in-service fault list, and with retire_en retirement at the partition's next Equinox. -/
def scrubbed (site e : Nat) (s : State) : State :=
  let c := s.core site
  let stuck := c.scrubs.any fun x => x.1 = e && decide (s.now < x.2 + tenMin)
  let keep := ((c.scrubs.filter fun x => x.1 ≠ e) ++ [(e, s.now)])
  let s1 := s.modCore site fun d => { d with scrubs := keep.drop (keep.length - 16) }
  if stuck then
    let p := match boundAt s site with
      | some (p, _) => p
      | none => 0
    let s2 := s1.err pgFault 4 0x2006 (agCore site + p * 2 ^ 16) (pack [(0, agCore site), (4, e)])
    let s3 := s2.enterFault (.element site e) 0x2006
    match boundAt s site with
    | some (p, k) =>
      if s.fld pgFault 0 0x100 0 1 = 1 then
        setHolder p 2 (s3.modPart p fun q => { q with retireDue := if q.retireDue.contains k then q.retireDue else q.retireDue ++ [k] })
      else s3
    | none => s3
  else s1

def execUrgentScrub (site e : Nat) (s : State) : Res :=
  act (decide (site < sites) && decide (e < 12288 * 64)) (when (s.core site).on fun t =>
    scrubbed site e (countOperand site [e] (ceWords site 1 t))) s

/-- An access of the AMP's debug port: at most one element, a part of it read, then written (R240); an access that reads an
uncorrectable word has no other effect than its fault (16 R381). -/
def debugDo (site : Nat) (s : State) (x : DbgReq) : State :=
  let e := x.word.elem
  if x.word.ue ∧ ¬ (x.write = true ∧ 32 ≤ x.data.length) then wordFault site (.spad e) (countOperand site [e] s)
  else if x.write then
    storeBeats site (32 * e) (Nat.min 32 x.data.length)
      (s.modCore site fun c => { c with spad := Mem.write c.spad (32 * e) (x.data.take 32) })
  else (countOperand site [e] s).emit (.readData agAmp (leNat (Mem.read (s.core site).spad (32 * e) 32)))

/-- The accesses that waited for the debug port to be selected are made, in their order (R245). -/
def debugRun (site : Nat) (s : State) : State :=
  if s.fld (pgCore site) 0 0x308 0 1 = 0 ∨ (s.core site).on = false then s
  else ((s.core site).dbg.foldl (debugDo site) s).modCore site fun c => { c with dbg := [] }

/-- DEBUG_ACCESS: at once while the register selects the debug port, else it waits (R245). -/
def debugAccess (site : Nat) (a : BankAddr) (write : Bool) (data : List Byte) (s : State) : State :=
  if (s.core site).on = false then s
  else debugRun site (s.modCore site fun c => { c with dbg := c.dbg ++ [⟨a, write, data⟩] })

def execDebugAccess (site : Nat) (e : BankAddr) (write : Bool) (data : List Byte) (s : State) : Res :=
  act (decide (site < sites) && e.ok) (debugAccess site e write data) s

/-- The next weight row of the patrol, in ascending order from the last (16 R380). -/
def wregRows (s : State) (site : Nat) : List Nat :=
  ((List.range 4).map fun k =>
    let w := s.regN (pgCore site) 0 (0x120 + 4 * k)
    if bitAt w 31 then (List.range (bitsOf w 16 14 + 1 - bitsOf w 0 14)).map (bitsOf w 0 14 + ·) else []).flatten

def nextRow (s : State) (site : Nat) : Option Nat :=
  let l := wregRows s site
  let above := l.filter fun r => (s.core site).scrubRow ≤ r
  let best (l : List Nat) : Option Nat := l.foldl (fun a r => match a with
    | none => some r
    | some b => some (Nat.min b r)) none
  match best above with
  | some r => some r
  | none => best l

/-- The time that the patrol gives each weight row: every one is read once in each wreg_period_min (16 R380). -/
def rowTime (s : State) (site : Nat) : Nat := s.fld pgFault 0 0x104 0 8 * 60 * sec / (wregRows s site).length

/-- Patrol scrub of one weight row, once its share of the period has gone by: `ce` the elements corrected, `ue` one that cannot
be (16 R380, R381). -/
def patrol (site : Nat) (ce : List Nat) (ue : Option Nat) (s : State) : State :=
  if (s.core site).on = false ∨ s.fld pgFault 0 0x104 0 8 = 0 then s
  else if (s.core site).scrubAt.any fun t => decide (s.now < t + rowTime s site) then s
  else match nextRow s site with
    | none => s
    | some r =>
      let s1 := s.modCore site fun c => { c with scrubRow := r + 1, scrubAt := some s.now }
      -- one element a transfer; a corrected one is rewritten
      let s2 := ceWords site ce.length (countOperands site
        ((List.range 64).map (fun k => [64 * r + k]) ++ ce.map fun k => [64 * r + k % 64]) s1)
      match ue with
      | none => s2
      | some col =>
        let e := 64 * r + col % 64
        let s3 := (((s2.bump (pgCore site) 0 0x214).bump pgFault 0 0x184).bump pgFault 0 0x190).raise (pgCore site) 0x2005
          (pack [(0, agCore site), (4, e)])
        haltCore site (s3.modCore site fun c => { c with fcode := 0x2005, fbads := c.fbads ++ [e] })

def execCorePatrolScrub (site : Nat) (ce : List Nat) (ue : Option Nat) (s : State) : Res :=
  act (decide (site < sites)) (patrol site ce ue) s

end Sys2Proof.Machine
end

