-- ==== Sys2Proof/Machine/WeOps.lean ====
section
/-! DEFINITION. Images and loads (12 R302-R309), MX import (08 R230, R231), patch records (07 R209, 10 R265), binding
cores (07 R208), epochs (R311-R315), adapter versions (R316-R319). -/

namespace Sys2Proof.Machine

/-! ### The image (R302, R303) -/

def imgN (b : List Byte) (off n : Nat) : Nat := leNat ((b.drop off).take n)

/-- A section table entry. -/
structure Sec where
  idx : Nat
  kind : Nat
  mcast : Bool
  target : Nat
  off : Nat
  len : Nat
  dest : Nat
  deriving DecidableEq, Repr

def secAt (b : List Byte) (i : Nat) : Sec :=
  let o := 64 + 32 * i
  ⟨i, imgN b o 1, bitAt (imgN b (o + 1) 1) 0, imgN b (o + 4) 4, imgN b (o + 8) 8, imgN b (o + 16) 8, imgN b (o + 24) 8⟩

def secsOf (b : List Byte) : List Sec := (List.range (imgN b 16 4)).map (secAt b)

def stepOrdinal (s : State) : Nat := if s.b0 then 1 else 0

/-- A header field outside its range, the length, or a kind that does not match the op (0x4060). -/
def hdrBad (b : List Byte) (op segLen epoch : Nat) : Bool :=
  decide (imgN b 0 4 ≠ 0x4C504847) || decide (imgN b 4 2 ≠ 1) || decide (imgN b 6 1 + 1 ≠ op) ||
  decide (imgN b 8 1 = 0) || decide (72 < imgN b 8 1) || decide (imgN b 8 1 < imgN b 9 1) || decide (imgN b 10 1 = 0) ||
  decide (1 < imgN b 11 1) || decide (imgN b 24 8 < 64 + 32 * imgN b 16 4) || decide (segLen < 64 + 32 * imgN b 16 4) ||
  decide (imgN b 24 8 < segLen) || (decide (op ≠ 3) && decide (epoch = 0xFF))

def kindAllowed (op kind : Nat) : Bool :=
  if op = 1 then decide (1 ≤ kind) && decide (kind ≤ 9)
  else if op = 2 then decide (kind = 3) || decide (kind = 4) || decide (kind = 9)
  else decide (kind = 10)

def overlapsAny : List Sec → Bool
  | [] => false
  | a :: r => r.any (fun c => decide (a.off < c.off + c.len) && decide (c.off < a.off + a.len)) || overlapsAny r

/-- 0x4062. -/
def secsBad (b : List Byte) (op : Nat) : Bool :=
  let l := secsOf b
  let rank := imgN b 20 2
  l.any (fun c => decide (imgN b 24 8 < c.off + c.len) || !kindAllowed op c.kind) || overlapsAny l ||
  (if op = 3 then decide (rank = 0) || decide (256 < rank) else decide (rank ≠ 0))

def extOf (n : Nat) : Nat := (n + 16383) / 16384

def sumLen (l : List Sec) (p : Nat → Bool) : Nat := (l.filter fun c => p c.kind).foldl (fun n c => n + c.len) 0

/-- What T1 keeps of a section (R303): 0 the control copy, 1 the mirror, 2 the adapter mirror; 3, it is its own copy. -/
def keptAs (kind : Nat) : Nat := if kind = 3 ∨ kind = 4 then 1 else if kind = 10 then 2 else if kind = 9 then 3 else 0

/-- Extents that a load takes at its start: control copy, mirrors, edge-resident weights (R309). -/
def loadExtents (b : List Byte) (op : Nat) (mirror : Bool) : Nat :=
  let l := secsOf b
  let n (k : Nat) : Nat := extOf (sumLen l fun x => keptAs x = k)
  (if op = 1 then n 0 else 0) + (if mirror then n 1 else 0) + n 3 + n 2

/-- The users of what a load takes: control copy, mirror, adapter mirror, edge-resident weights. -/
def keptUser (l : Load) (k : Nat) : ExtUser :=
  if k = 0 then .control l.part else if k = 1 then .mirror l.part l.region
  else if k = 2 then .adapter (verKey l.part l.slot l.ver) else .edge l.part l.region

/-- The same extents by user. -/
def startTakes (b : List Byte) (l : Load) : List (ExtUser × Nat) :=
  ((List.range 4).filter fun k => (k ≠ 0 || decide (l.op = 1)) && (k ≠ 1 || l.mirror)).map fun k =>
    (keptUser l k, extOf (sumLen (secsOf b) fun x => keptAs x = k))

/-- A load's users take their extents: the far windows of edge-resident weights want them in one run. -/
def takeAll (l : List (ExtUser × Nat)) (s : State) : State :=
  l.foldl (fun t e => takeExt e.1 e.2 t (match e.1 with | .edge .. => true | _ => false)) s
def giveAll (l : List (ExtUser × Nat)) (s : State) : State := l.foldl (fun t e => freeExt e.1 e.2 t) s

/-! ### Patch records (07 R209, 10 R265) -/

def patchAt (b : List Byte) (o : Nat) : Patch :=
  ⟨imgN b o 1, imgN b (o + 1) 1, imgN b (o + 4) 4 % 16384, imgN b (o + 8) 4, imgN b (o + 12) 2 % 16384, imgN b (o + 14) 2⟩

/-- The patch records of sections. -/
def patchesIn (b : List Byte) (l : List Sec) : List Patch :=
  (l.filter fun c => c.kind = 5).foldl (fun l c => l ++ (List.range (c.len / 16)).map fun i => patchAt b (c.off + 16 * i)) []

def patchBad (p : Patch) : Bool :=
  decide (p.kind = 0) || decide (5 < p.kind) || !(decide (p.width = 2) || decide (p.width = 4) || decide (p.width = 8))

/-- A descriptor that covers a site (R265). -/
def coverSite (d x y : Nat) : Nat :=
  let rect (k : Nat) : Nat × Nat × Nat × Nat := (bitsOf d (28 * k) 7, bitsOf d (28 * k + 7) 7, bitsOf d (28 * k + 14) 7, bitsOf d (28 * k + 21) 7)
  let valid (k : Nat) : Bool := bitAt d (112 + k) && decide ((rect k).1 ≤ (rect k).2.2.1) && decide ((rect k).2.1 ≤ (rect k).2.2.2)
  let put (k : Nat) (r : Nat × Nat × Nat × Nat) : Nat :=
    putBits (putBits (putBits (putBits (putBits d (28 * k) 7 r.1) (28 * k + 7) 7 r.2.1) (28 * k + 14) 7 r.2.2.1) (28 * k + 21) 7 r.2.2.2)
      (112 + k) 1 1
  if (List.range 4).any fun k => valid k && inRegion x y (rect k) then d
  else match (List.range 4).find? fun k => !valid k with
    | some k => put k (x, y, x, y)
    | none =>
      let grown (k : Nat) : Nat × Nat × Nat × Nat :=
        (Nat.min (rect k).1 x, Nat.min (rect k).2.1 y, Nat.max (rect k).2.2.1 x, Nat.max (rect k).2.2.2 y)
      let area (r : Nat × Nat × Nat × Nat) : Nat := (r.2.2.1 + 1 - r.1) * (r.2.2.2 + 1 - r.2.1)
      let cost (k : Nat) : Nat := area (grown k) - area (rect k)
      let best := (List.range 4).foldl (fun a k => if cost k < cost a then k else a) 0
      put best (grown best)

def allSites (t : List Nat) : List Nat := (t.map tileSites).flatten

/-- One patch record takes effect: the placement of its target is written where it says. -/
def applyPatch (p : Nat) (s : State) (r : Patch) : State :=
  match siteOfLogical s p r.core, siteOfLogical s p r.target with
  | some site, some upto =>
    let put (v : Nat) : State := storeBeats site r.off r.width
      (s.modCore site fun c => { c with spad := Mem.write c.spad r.off (leBytes r.width v) })
    match r.kind with
    | 1 => put (siteX upto + siteY upto * 256)
    | 2 => put (agCore upto)
    | 3 => setTab site 0 r.off (putBits (putBits (tabEntry s site 0 r.off) 12 7 (siteX upto)) 19 7 (siteY upto)) s
    | 4 => (allSites (s.part p).tiles).foldl (fun t x => setTab x 2 r.off (coverSite (tabEntry t x 2 r.off) (siteX upto) (siteY upto)) t) s
    | 5 =>
      let img := ((s.part p).copies.find? fun c => c.what = 0 && c.core = r.core && decide (c.addr ≤ r.off) && decide (r.off + r.width ≤ c.addr + c.data.length))
      let v := match img with
        | some c => leNat ((c.data.drop (r.off - c.addr)).take r.width)
        | none => leNat (Mem.read (s.core site).spad r.off r.width)
      put (v + (fwin s site r.win).base)
    | _ => s
  | _, _ => s

/-! ### MX import (08 R230, R231) -/

def mxFmt (ty : Nat) : EF := ([.e4m3, .e5m2, .e3m2, .e2m3] : List EF).getD ty .e2m1

def mxWidth (ty : Nat) : Nat := ([8, 8, 6, 6] : List Nat).getD ty 4

/-- An MX tensor read from its section: element codes in block order, one scale code for each block of 32. -/
structure MxCodes where
  ty : Nat
  elems : List Nat
  scales : List Nat
  deriving DecidableEq, Repr

/-- The codes of a tensor from the bytes of its section: a little-endian stream of elements, one byte for each scale (R230). -/
def mxRead (t : MxTensor) (b : List Byte) : MxCodes :=
  let n := leNat ((b.drop t.elemOff).take ((mxWidth t.ty * t.count + 7) / 8))
  { ty := t.ty, elems := (List.range t.count).map fun i => bitsOf n (mxWidth t.ty * i) (mxWidth t.ty),
    scales := (List.range (t.count / 32)).map fun k => leNat ((b.drop (t.scaleOff + k)).take 1) }

/-- The refusals of R230: type, block size, dimension, scale type, contraction length; a scale that is NaN, an FP8 element that
is NaN or infinite; a tensor that its section does not hold. -/
def mxRefused (t : MxTensor) (b : List Byte) : Bool :=
  let c := mxRead t b
  decide (4 < t.ty) || decide (t.block ≠ 32) || !t.contraction || !t.e8m0 || decide (t.len % 32 ≠ 0) || decide (t.len = 0) ||
  decide (t.count % t.len ≠ 0) || decide (b.length < t.elemOff + (mxWidth t.ty * t.count + 7) / 8) ||
  decide (b.length < t.scaleOff + t.count / 32) || c.scales.any (fun x => decide (x = 255)) ||
  (decide (t.ty < 2) && c.elems.any fun x => match (mxFmt t.ty).decode x with
    | .fin .. => false
    | _ => true)

def mxZero (f : EF) (l : List Nat) : Bool := l.all fun c => match f.decode c with
  | .fin _ m _ => decide (m = 0)
  | _ => false

/-- Emax of R231. -/
def mxEmax (t : MxCodes) : Nat :=
  t.scales.zipIdx.foldl (fun a x => if mxZero (mxFmt t.ty) ((t.elems.drop (32 * x.2)).take 32) then a else Nat.max a x.1) 0

/-- E4M3 code of 2^d, d from -9 to 8. -/
def e4m3Pow (d : Int) : Nat := if -6 ≤ d then ((d + 7).toNat) * 8 else 2 ^ (d + 9).toNat

/-- An element code times 2^d, and whether its value changed. -/
def mxElem (f : EF) (d : Int) (c : Nat) : Nat × Bool :=
  let r := rescale f c d
  (r, match f.decode c, f.decode r with
    | .fin _ m e, .fin _ m2 e2 => !(leMag (m, e + d) (m2, e2) && leMag (m2, e2) (m, e + d))
    | _, _ => false)

/-- One block of 32: its bytes in the device's format, and re-rounded elements. -/
def mxBlock (ty emax e : Nat) (l : List Nat) : List Byte × Nat :=
  let f := mxFmt ty
  if ty = 4 then
    let exact := decide (emax ≤ e + 17)
    let r := if exact then l.map fun c => (c, false) else l.map (mxElem f ((e : Int) - emax + 17))
    let sc := if exact then e4m3Pow (min 8 ((e : Int) - emax + 8)) else 1
    let blk (h : List Nat) : List Byte := packCodes 4 8 h ++ leBytes 1 sc
    (blk ((r.map (·.1)).take 16) ++ blk ((r.map (·.1)).drop 16), (r.filter (·.2)).length)
  else
    let r := l.map (mxElem f ((e : Int) - emax))
    let w := if ty < 2 then 8 else 6
    (packCodes w (4 * w) (r.map (·.1)), (r.filter (·.2)).length)

/-- The tensor scale T as FP32: 2^(Emax - 135) for MXFP4, else 2^(Emax - 127). -/
def mxScale (t : MxCodes) : W32 :=
  BitVec.ofNat 32 (fpRound 8 23 false 1 ((mxEmax t : Int) - (if t.ty = 4 then 135 else 127)))

/-- A tensor converted: its bytes, and the number of re-rounded elements. -/
def mxImport (t : MxCodes) : List Byte × Nat :=
  let em := mxEmax t
  t.scales.zipIdx.foldl (fun a x =>
    let b := mxBlock t.ty em x.1 ((t.elems.drop (32 * x.2)).take 32)
    (a.1 ++ b.1, a.2 + b.2)) ([], 0)

/-- The bytes of section `k` of an image. -/
def secBytes (img : List Byte) (k : Nat) : List Byte :=
  match (secsOf img).find? fun c => c.idx = k with
  | some c => (img.drop c.off).take c.len
  | none => []

/-- The codes of a tensor of an image. -/
def mxOf (img : List Byte) (t : MxTensor) : MxCodes := mxRead t (secBytes img t.sec)

/-- Every section of kind 4 is a tensor that the placement describes. -/
def mxKnown (img : List Byte) (p : Placement) : Bool :=
  ((secsOf img).filter fun c => c.kind = 4).all fun c => p.mx.any fun m => m.sec = c.idx

/-! ### Starting and ending a load (R305, R307, R308) -/

def State.modWe (s : State) (f : WeSt → WeSt) : State := { s with we := f s.we }
def loadOf (s : State) : Option Load := s.we.load
def tilesUsed (s : State) : List Nat := (s.parts.map fun e => e.2.tiles).flatten

/-- A tile with fewer than 128 sites of kind 0 and 1, a dark one among them: it is not free (18 R429). -/
def shortTile (s : State) (t : Nat) : Bool := decide (((tileSites t).filter fun x => siteKind s x < 2).length < 128)

/-- The tiles that a base image cannot have. -/
def tilesTaken (s : State) : List Nat := (List.range tiles).filter fun t => (tilesUsed s).contains t || shortTile s t

def splitKey (k : Nat) : Nat × Nat × Nat := (k / 256 / 1024, k / 256 % 1024, k % 256)
/-- Versions of partition `p` that were reclaimed for its running load. -/
def goneVers (s : State) (p : Nat) : List Nat := (s.we.vers.filter fun v => decide (v.2.st = .gone) && decide (v.1 / 256 / 1024 = p)).map (·.1)
def pinnedTo (p slot ver : Nat) (x : Session) : Bool := x.pin && decide (x.part = p) && decide (x.lastAd = some (slot, ver))

/-- Reclaim an idle version for a load (R319): pinned sessions lose their reference and are marked. What it holds is freed when the
load completes: a failed load leaves the partition as it was (R307). -/
def reclaimVer (k : Nat) (s : State) : State :=
  let v := splitKey k
  (s.modServ fun u => { u with sess := SMap.mapAll u.sess fun _ x => if pinnedTo v.1 v.2.1 v.2.2 x then { x with adGone := true } else x }).modWe
    fun w => { w with vers := SMap.mod w.vers k fun x => { x with st := .gone } }

/-- The load has completed: reclaimed versions are freed and counted. -/
def reclaimEnd (p : Nat) (s : State) : State :=
  (goneVers s p).foldl (fun t k => let v := splitKey k; (freeVer v.1 v.2.1 v.2.2 3 t).bump pgEpoch p 0x190) s

/-- The load has failed: they are old again, and the sessions that have not found them gone have their references back. -/
def reclaimUndo (p : Nat) (s : State) : State :=
  (goneVers s p).foldl (fun t k =>
    let v := splitKey k
    (t.modServ fun u => { u with sess := SMap.mapAll u.sess fun _ x => if pinnedTo v.1 v.2.1 v.2.2 x then { x with adGone := false } else x }).modWe
      fun w => { w with vers := SMap.mod w.vers k fun x => { x with st := .old } }) s

/-- Release what a version of a load holds. -/
def dropLoading (l : Load) (s : State) : State :=
  if l.op = 3 then reclaimUndo l.part (s.modWe fun w => { w with vers := SMap.del w.vers (verKey l.part l.slot l.ver) })
  else if l.op = 2 then s.modPart l.part fun q => { q with epFill := false }
  else s

/-- The load report (R308): status, kind, MX tensors, re-rounded elements, an entry for each tensor. -/
def loadReport (at_ code op : Nat) (mx : List (Nat × Nat × Nat)) (s : State) : State :=
  if at_ = 0 ∨ hdmBytes s < at_ + 32 + 16 * mx.length then s
  else
    let b := leBytes 2 code ++ leBytes 2 (op - 1) ++ leBytes 4 mx.length ++ leBytes 8 (mx.foldl (fun n e => n + e.2.2) 0) ++
      leBytes 16 0 ++ (mx.map fun e => leBytes 4 e.1 ++ leBytes 8 e.2.1 ++ leBytes 4 (Nat.min e.2.2 0xFFFFFFFF)).flatten
    devWrite (tagT1 4) { req := 4 } at_ b s

/-- A load fails: its extents are free, the code is recorded and raised; `mx` are the tensors converted by then (R308). -/
def loadFail (l : Load) (code : Nat) (s : State) (mx : List (Nat × Nat × Nat) := []) : State :=
  let s1 := giveAll l.takes (s.modWe fun w => { w with load := none })
  let s2 := s1.setRegN pgEpoch 0 0x160 (8 + code * 2 ^ 16)
  let name := if l.op = 3 then l.slot else l.epoch
  loadReport l.report code l.op mx
    (s2.err pgEpoch 0 code (l.part + name * 2 ^ 16 + code * 2 ^ 48) (pack [(0, l.part), (1, l.op), (2, name)]))

/-- A running load fails: the partition is as it was before the command. -/
def loadStop (l : Load) (code : Nat) (s : State) (mx : List (Nat × Nat × Nat) := []) : State := loadFail l code (dropLoading l s) mx

/-- Abort the running load of a partition, or any (op 6, R438). -/
def abortLoad (only : Option Nat) (s : State) : State :=
  match loadOf s with
  | some l => if only = none ∨ only = some l.part then loadStop l 0x406A s else s
  | none => s

/-- The version number after the slot's last, 1 to 255, that no version of the slot holds (R316). -/
def nextVer (s : State) (p slot : Nat) : Nat :=
  let last := SMap.get s.we.lastVer 0 (p * 1024 + slot)
  match firstFree (fun i => (SMap.find s.we.vers (verKey p slot ((last + i) % 255 + 1))).isSome) 255 0 with
  | some i => (last + i) % 255 + 1
  | none => 1

/-! ### Adapter blocks (R316, R319) -/

/-- The blocks of a core's adapter region that no version holds. -/
def freeBlocks (s : State) (p : Nat) (i : CoreImg) : List Nat :=
  let used := ((s.we.vers.filter fun v => decide (v.1 / 256 / 1024 = p) && decide (v.2.st ≠ .gone)).map fun v =>
    ((v.2.place.filter fun e => e.1 = i.core).map (·.2)).flatten).flatten
  (List.range i.adBlocks).filter fun b => !used.contains b

/-- The blocks that a load takes in each core, those of the lowest numbers (DESIGN CHOICE, notes/assumptions/83.md); none where a
core lacks them. `need` are cores with their blocks. -/
def placeBlocks (s : State) (p : Nat) (need : List (Nat × Nat)) : Option (List (Nat × List Nat)) :=
  let l : List (Nat × List Nat) := need.map fun e => (e.1, (match (s.part p).imgs.find? fun (i : CoreImg) => i.core = e.1 with
    | some i => freeBlocks s p i
    | none => []).take e.2)
  if (l.zip need).all fun e => decide (e.1.2.length = e.2.2) then some l else none

/-- The idle version loaded first: old, no live request; of one slot where `only` names it. -/
def idleVer (s : State) (p : Nat) (only : Option Nat) : Option Nat :=
  (firstLoaded (s.we.vers.filter fun v => decide (v.1 / 256 / 1024 = p) && decide (v.2.st = .old) &&
    decide (liveRefs s p (v.1 / 256 % 1024) (v.1 % 256) = 0) && only.all fun x => decide (v.1 / 256 % 1024 = x))).map (·.1)

/-- Reclaim until the blocks and a place in the slot are there (R319); none where nothing is left to reclaim. -/
def adapterRoom (p slot : Nat) (need : List (Nat × Nat)) : (fuel : Nat) → State → Option (State × List (Nat × List Nat))
  | 0, _ => none
  | f + 1, s =>
    let full := 4 ≤ (versOf s p slot).length
    match (if full then none else placeBlocks s p need) with
    | some l => some (s, l)
    | none => match idleVer s p (if full then some slot else none) with
      | some k => adapterRoom p slot need f (reclaimVer k s)
      | none => none

/-- The members of a descriptor of a loaded partition, from the tables of its routers. -/
def treeOf (s : State) (n dsc : Nat) : List Nat :=
  ((s.part n).bind.filter fun b => isMember s b.2 dsc &&
    (rects (tabEntry s b.2 2 dsc)).any (inRegion (siteX b.2) (siteY b.2))).map (·.1)

/-- The cores that a section goes to; `tree` are the members of a descriptor. -/
def secCores (tree : Nat → List Nat) (c : Sec) : List Nat := if c.mcast then tree c.target else [c.target]

/-- The blocks that sections of kind 10 need in each core, whole blocks for each section. -/
def blocksNeeded (tree : Nat → List Nat) (l : List Sec) (cores : List Nat) : List (Nat × Nat) :=
  cores.map fun k => (k, (l.filter fun c => c.kind = 10 && (secCores tree c).contains k).foldl (fun n c => n + extOf c.len) 0)

/-- The region an epoch image fills: the one that holds no resident epoch (R311). -/
def freeRegion (q : Part) : Option Nat :=
  (List.range (if q.altRegion then 2 else 1)).find? fun r => q.regions.getD r 0xFF = 0xFF

/-- 0x4068. -/
def noPlace (s : State) (p op shape : Nat) : Bool :=
  let q := s.part p
  decide (op ≠ 1) && (decide (q.ps = .unloaded) || decide (q.ps = .lost) || decide (q.shape ≠ shape) ||
    (decide (op = 2) && (freeRegion q).isNone) || (decide (op = 3) && q.imgs.all fun i => decide (i.adBlocks = 0)))

/-- 0x4063 (07 R209), over the bytes that are there. -/
def patchTablesBad (img : List Byte) (done : Nat) : Bool :=
  let pt := (secsOf img).filter fun c => c.kind = 5 && decide (c.off + c.len ≤ done)
  (pt.any fun c => decide (c.len % 16 ≠ 0)) || (pt.any fun c => ((List.range (c.len / 16)).map fun i => patchAt img (c.off + 16 * i)).any patchBad)

/-- Bytes of a scratchpad (07 R207): 12,288 rows of 64 elements. -/
def padBytes : Nat := 12288 * 64 * 32

/-- Checks that the first segment decides, in the order of R307: header, section table, the patch tables it holds, the partition, the
owner's slot, room, sizes. Content that comes later is checked as it comes (notes/assumptions/34.md). -/
def startCode (s : State) (p op : Nat) (b : List Byte) (segLen epoch owner : Nat) (mirror : Bool) : Nat :=
  firstCode [
    (0x4060, hdrBad b op segLen epoch || (decide (op = 2) && (s.part p).regions.contains epoch)),
    (0x4061, decide (stepOrdinal s < imgN b 7 1)),
    (0x4062, secsBad b op),
    (0x4063, patchTablesBad b b.length),
    (0x4066, decide (op = 1) && (decide ((s.part p).ps ≠ .unloaded) || decide (72 < (tilesTaken s).length + imgN b 8 1))),
    (0x4068, noPlace s p op (imgN b 32 8)),
    (0x406C, decide ((keySlot s 2 owner).key = none)),
    (0x4067, decide (poolFree s < loadExtents b op mirror + logReserve s)),
    (0x406B, (secsOf b).any fun c => decide (c.kind < 4) && decide (padBytes < c.dest + c.len))]

/-- The first segment of a load, where it lies in edge memory. -/
def firstSeg (s : State) : List Byte := Mem.read s.mem.t1 (s.reg64 pgEpoch 0 0x148) (Nat.min (s.reg64 pgEpoch 0 0x150) (hdmBytes s))

/-- A load begins with what its header and section table say; `b` is what has come of the image. A load that fails for want of adapter
space has reclaimed nothing. -/
def beginLoad (l0 : Load) (b : List Byte) (code : Nat) (s : State) : State :=
  if code ≠ 0 then loadFail l0 code s
  else if l0.op = 3 then
    match adapterRoom l0.part l0.slot (blocksNeeded (treeOf s l0.part) (secsOf b) ((s.part l0.part).imgs.map (·.core))) (s.we.vers.length + 1) s with
    | none => loadFail l0 0x4069 s
    | some (t, place) =>
      let l1 : Load := { l0 with ver := nextVer t l0.part l0.slot }
      let l : Load := { l1 with takes := startTakes b l1 }
      (takeAll l.takes t).modWe fun w => { w with
        loads := w.loads + 1
        vers := SMap.put w.vers (verKey l.part l.slot l.ver) { st := .loading, place := place, extents := l.extents, ord := w.loads }
        load := some l }
  else
    let l1 : Load := { l0 with region := if l0.op = 2 then (freeRegion (s.part l0.part)).getD 0 else 0 }
    let l : Load := { l1 with takes := startTakes b l1 }
    let s1 := takeAll l.takes s
    let s2 := if l.op = 2 then s1.modPart l.part fun q => { q with epFill := true } else s1
    s2.modWe fun w => { w with load := some l }

/-- SVC_LD_CMD op 1, 2 or 3 for partition `p`. -/
def loadStart (op p : Nat) (s : State) : State :=
  let arg := s.regN pgEpoch 0 0x144
  let n := s.reg64 pgEpoch 0 0x150
  let owner := bitsOf arg 10 6
  let epoch := bitsOf arg 16 8
  let mirror := bitAt arg 24
  let b := firstSeg s
  let l0 : Load := { op := op, part := p, slot := bitsOf arg 0 10, owner := owner, epoch := epoch, mirror := mirror,
                     report := s.reg64 pgEpoch 0 0x158, length := imgN b 24 8, seg := some (s.reg64 pgEpoch 0 0x148, n) }
  beginLoad l0 b (startCode s p op b n epoch owner mirror) (s.setRegN pgEpoch 0 0x160 1)

/-! ### Sections into cores (R309, 07 R208) -/

def stageOfLogical (l : List Stage) (c : Nat) : Nat := (l.findIdx? fun g => g.cores.contains c).getD 0

def destShift (i : CoreImg) (region : Nat) (op addr : Nat) : Nat :=
  if op = 2 ∧ region = 1 then addr - i.prim + i.alt else addr

/-- The logical cores that a descriptor of an image's router tables delivers to: sites in its rectangles whose membership bit is set
(10 R264). -/
def treeCores (p : Placement) (dsc : Nat) : List Nat :=
  let d := match p.tabs.find? fun e => e.2.1 = 2 ∧ e.2.2.1 = dsc with
    | some e => e.2.2.2
    | none => 0
  (p.sites.filter fun b => (rects d).any (inRegion (siteX b.2) (siteY b.2)) &&
    p.tabs.any fun e => e.1 = b.1 && e.2.1 = 3 && decide (e.2.2.1 = dsc / 128) && bitAt e.2.2.2 (dsc % 128)).map (·.1)

/-- The sections of an image that this module loads, with the targets that they have here (13 R331). -/
def ownSecs (s : State) (img : List Byte) (p : Placement) : List Sec :=
  (secsOf img).filterMap fun c => match p.secs.find? fun e => e.1 = c.idx with
    | none => some c
    | some e => if e.2.1 = myModule s then some { c with target := e.2.2 } else none

/-- The bytes of a section as the wafer and T1 keep them: a tensor in MX is converted (R303). -/
def secData (img : List Byte) (p : Placement) (c : Sec) : List Byte :=
  if c.kind = 4 then match p.mx.find? fun m => m.sec = c.idx with
    | some t => (mxImport (mxOf img t)).1
    | none => []
  else (img.drop c.off).take c.len

/-- Sections with their bytes and with their place among those that are kept together: one behind the other in section order, which
the spec leaves open (DESIGN CHOICE, notes/assumptions/83.md). -/
def placedSecs (s : State) (img : List Byte) (p : Placement) : List (Sec × List Byte × Nat) :=
  let l := (ownSecs s img p).map fun c => (c, secData img p c)
  l.zipIdx.map fun e => (e.1.1, e.1.2,
    ((l.take e.2).filter fun x => keptAs x.1.kind = keptAs e.1.1.kind).foldl (fun n x => n + x.2.length) 0)

/-- The stages of the partition that a load fills. -/
def loadStages (s : State) (l : Load) (p : Placement) : List Stage := if l.op = 1 then p.stages else (s.part l.part).stages

/-- Extents of a stage's allocation: its edge-resident sections from their indexes on (R303). -/
def edgeNeed (stages : List Stage) (l : List Sec) (g : Nat) : Nat :=
  (l.filter fun c => c.kind = 9 && decide (stageOfLogical stages c.target = g)).foldl (fun n c => Nat.max n (c.dest + extOf c.len)) 0

/-- The first extent of each stage's allocation, among the region's, and how many there are. -/
def edgePlan (stages : List Stage) (l : List Sec) : List (Nat × Nat) × Nat :=
  (List.range stages.length).foldl (fun a g => let n := edgeNeed stages l g; (if n = 0 then a.1 else a.1 ++ [(g, a.2)], a.2 + n)) ([], 0)

/-- The extents that a load needs when all of the image is known, by user. -/
def doneTakes (s : State) (l : Load) (p : Placement) : List (ExtUser × Nat) :=
  let ps := placedSecs s l.image p
  let n (k : Nat) : Nat :=
    if k = 3 then (edgePlan (loadStages s l p) (ownSecs s l.image p)).2
    else extOf ((ps.filter fun e => keptAs e.1.kind = k).foldl (fun n e => n + e.2.1.length) 0)
  ((List.range 4).filter fun k => (k ≠ 0 || decide (l.op = 1)) && (k ≠ 1 || l.mirror)).map fun k => (keptUser l k, n k)

/-- A partition's matrices in a core: pieces of 16 KiB in the blocks of the version, behind those of the sections before. -/
def adapterRecs (blocks : List Nat) (base : Nat) (r : CopyRec) (before : Nat) : List CopyRec :=
  (List.range (extOf r.data.length)).map fun i => { r with
    addr := base + 16384 * blocks.getD (before + i) 0, data := (r.data.drop (16384 * i)).take 16384, off := r.off + 16384 * i }

/-- What the sections of an image give each core: a record each for unicast and multicast targets; `tree` are the members of a
descriptor. -/
def coreRecs (s : State) (tree : Nat → List Nat) (p : Placement) (imgs : List CoreImg) (l : Load) : List CopyRec :=
  let gen := (keySlot s 2 l.owner).gen
  let ps := placedSecs s l.image p
  let img (k : Nat) : CoreImg := (imgs.find? fun x => x.core = k).getD { core := k, entry := 0, entryFused := 0 }
  (ps.map fun e =>
    let c := e.1
    let r (k what addr : Nat) (kept : Bool) : CopyRec := ⟨what, k, addr, e.2.1, kept, l.owner, gen, e.2.2⟩
    if c.kind = 1 ∨ c.kind = 2 then (secCores tree c).map fun k => r k 0 c.dest true
    else if c.kind = 3 ∨ c.kind = 4 then (secCores tree c).map fun k => r k (1 + l.region) (destShift (img k) l.region l.op c.dest) l.mirror
    else if c.kind = 10 then ((secCores tree c).map fun k =>
      let blocks := (((SMap.find s.we.vers (verKey l.part l.slot l.ver)).map (·.place)).getD []).find? fun x => x.1 = k
      let before := (ps.takeWhile fun x => x.1.idx ≠ c.idx).filter fun x => x.1.kind = 10 && (secCores tree x.1).contains k
      adapterRecs ((blocks.map (·.2)).getD []) (img k).adBase (r k (16 + l.slot * 256 + l.ver) 0 true)
        (before.foldl (fun n x => n + extOf x.1.len) 0)).flatten
    else []).flatten

/-- The users of the extents that keep a record (R309). -/
def copyUser (p : Nat) (r : CopyRec) : ExtUser :=
  if r.what = 0 then .control p else if r.what < 16 then .mirror p (r.what - 1) else .adapter (p * 2 ^ 18 + (r.what - 16))
def copyAcc (r : CopyRec) : Access := { owner := 2, slot := r.owner, req := 4 }

/-- Whether T1 still gives back what a record keeps: it was kept, and its slot holds the key it was written under (R289, R310). -/
def copyHeld (s : State) (r : CopyRec) : Bool :=
  r.kept && (keySlot s 2 r.owner).key.isSome && decide ((keySlot s 2 r.owner).gen = r.gen)

/-- The image goes into the load's extents under the model-owner slot (R303, R309): control copy, mirrors, edge-resident weights. -/
def writeKept (l : Load) (p : Placement) (s : State) : State :=
  let x : Access := { owner := 2, slot := l.owner, req := 4 }
  let plan := (edgePlan (loadStages s l p) (ownSecs s l.image p)).1
  (placedSecs s l.image p).foldl (fun t e =>
    let k := keptAs e.1.kind
    let at_ := if k = 3 then
        let g := stageOfLogical (loadStages s l p) e.1.target
        16384 * (((plan.find? fun y => y.1 = g).map (·.2)).getD 0 + e.1.dest)
      else e.2.2
    if (k = 0 ∧ l.op ≠ 1) ∨ (k = 1 ∧ l.mirror = false) then t else (extWrite x (keptUser l k) at_ e.2.1 t).2) s

def writeRec (p : Nat) (s : State) (r : CopyRec) : State :=
  match siteOfLogical s p r.core with
  | some site => storeBeats site r.addr r.data.length
      (s.modCore site fun c => { c with spad := Mem.write c.spad r.addr r.data })
  | none => s

/-- Entry `r` of a core's epoch table (R311). -/
def setEpochTab (p r epoch : Nat) (s : State) : State :=
  (s.part p).imgs.foldl (fun t i => match siteOfLogical t p i.core with
    | some site => storeBeats site (i.epochTab + 8 * r) 1
        (t.modCore site fun c => { c with spad := Mem.write c.spad (i.epochTab + 8 * r) (leBytes 1 epoch) })
    | none => t) s

/-- A core starts: registers, tiles, flags and transfers empty, at CORE_ENTRY (R208). -/
def freshCore (c : Core) (entry now : Nat) : Core :=
  { c with
    g := [], v := [], acc := [], qs := [], wait := none, inb := [], plist := [], pc := entry, lastRet := now, pf := false,
    tf := false, fcode := 0, fbads := [], gated := false }

/-- CORE_WREG words (R309): 0 and 1 cover the primary weight region, 2 and 3 the alternate one. One register of each pair covers the
whole region; the other is written with 0 (notes/assumptions/83.md). -/
def wregWords (i : CoreImg) (alt : Bool) : List Nat :=
  let w (a : Nat) : Nat := if i.wlen = 0 then 0 else a / 2048 % 2 ^ 14 + (a + i.wlen - 1) / 2048 % 2 ^ 14 * 2 ^ 16 + 2 ^ 31
  [w i.prim, 0, if alt then w i.alt else 0, 0]

/-- The words of a far window; that of edge-resident weights counts from its stage's allocation, where that is (R303, R309). -/
def fwinWords (s : State) (p stage : Nat) (i : CoreImg) (k : Nat) : Nat × Nat :=
  let w := i.fwins.getD k (0, 0)
  match i.ewins.find? fun e => e.1 = k with
  | none => w
  | some e => match (s.part p).edges.find? fun x => x.1 = e.2 ∧ x.2.1 = stage with
    | none => (0, 0)
    | some x => match extAddr s (.edge p e.2) (16384 * x.2.2) with
      | some a => (w.1 + a, w.2 + a)
      | none => (0, 0)

/-- The far windows of a core are written. -/
def writeFwins (p stage site : Nat) (i : CoreImg) (s : State) : State :=
  let pg := pgCore site
  (List.range 8).foldl (fun t k => (t.setReg64 pg 0 (0x180 + 16 * k) (fwinWords s p stage i k).1).setReg64 pg 0
    (0x188 + 16 * k) (fwinWords s p stage i k).2) s

/-- The core page of a bound core: CORE_BIND, CORE_ENTRY, CORE_QCFG, CORE_WREG, CORE_FWIN; it runs (R208). -/
def bindCore (p stage site : Nat) (i : CoreImg) (s : State) : State :=
  let pg := pgCore site
  let entry := if fusedSite site then i.entryFused else i.entry
  let s1 := ((s.setRegN pg 0 0x104 (i.core + p * 2 ^ 16 + stage * 2 ^ 20 + 2 ^ 31)).setRegN pg 0 0x108 entry).setRegN pg 0 0x114 i.qcfg
  -- all four CORE_WREG and all eight CORE_FWIN: one that the image does not use is written with 0
  let s2 := (List.range 4).foldl (fun t k => t.setRegN pg 0 (0x120 + 4 * k) ((wregWords i (s.part p).altRegion).getD k 0)) s1
  let s3 := writeFwins p stage site i s2
  let s4 := (s3.setReg64 pg 0 0x130 0).setReg64 pg 0 0x170 0
  -- whether the core's frames lie on a fused site follows the site (06 R158)
  let s4 := s4.modPool p fun q => { q with cores := SMap.mod q.cores i.core fun k => { k with fused := fusedSite site } }
  -- heater mode ends before the core is bound (15 R367)
  let s4 : State := { s4 with pwr := { s4.pwr with isl := SMap.upd s4.pwr.isl {} site fun x => { x with heater := false } } }
  (s4.modCore site fun c => freshCore c entry s.now).modBlk pg fun b => { b with st := .running, commit := none }

/-- A core that prefers a fused site has one where its tile has one free (06 R159). -/
def fusedWell (s : State) (p : Placement) (i : CoreImg) : Bool :=
  !i.fused || (p.sites.filter fun e => e.1 = i.core).all fun e =>
    fusedSite e.2 || (tileSites (siteTile e.2)).all fun x =>
      !fusedSite x || decide (siteKind s x ≠ 0) || p.sites.any fun f => f.2 = x

/-- The loader's choice is possible: tiles free and distinct, as many as the header says, program sites of theirs, each core once,
none on a reserve tile (04 R106), each core page STOPPED (07 R208). -/
def placeOk (s : State) (p : Placement) (img : List Byte) : Bool :=
  decide p.tiles.Nodup && decide (p.tiles.length = imgN img 8 1) && p.tiles.all (fun t => decide (t < 72) && !(tilesTaken s).contains t) &&
  (decide (p.span = []) || (decide (2 ≤ p.span.length) && decide (p.span.length ≤ 16))) && p.reserve.all p.tiles.contains && decide (p.reserve.length = imgN img 9 1) && decide (p.stages.length = imgN img 10 1) &&
  decide (p.sites.map (·.1)).Nodup && decide (p.sites.map (·.2)).Nodup &&
  p.sites.all (fun e => decide (siteKind s e.2 = 0) && decide ((s.blk (pgCore e.2)).st = .stopped) && p.tiles.contains (siteTile e.2) && !p.reserve.contains (siteTile e.2)) &&
  p.cores.all (fun i => p.sites.any fun e => e.1 = i.core) && p.cores.all (fusedWell s p)

/-- Tile masks of a scheduler page: word `k` of the tiles in `l`. -/
def maskWord (l : List Nat) (k : Nat) : Nat := (l.filter fun t => t / 32 = k).foldl (fun a t => a ||| 2 ^ (t % 32)) 0

/-- The tensor scales of an image whose weights lie in region `r`, by section (08 R231), beside those of the other region. -/
def tensorScales (img : List Byte) (p : Placement) (r : Nat) (old : SMap W32) : SMap W32 :=
  p.mx.foldl (fun m t => SMap.put m (r * 2 ^ 32 + t.sec) (mxScale (mxOf img t))) (SMap.keep old fun k _ => k / 2 ^ 32 ≠ r)

/-- Whether every site of a column range and row range lies on the tiles. -/
def onTiles (ts : List Nat) (x0 x1 y0 y1 : Nat) : Bool :=
  (List.range (x1 + 1 - x0)).all fun i => (List.range (y1 + 1 - y0)).all fun j => ts.contains (siteTile (siteAt (x0 + i) (y0 + j)))

/-- The paths of R251 from a site to the sites of a rectangle stay on the tiles. -/
def pathsOn (ts : List Nat) (src : Nat) (r : Nat × Nat × Nat × Nat) : Bool :=
  let x := siteX src
  let y := siteY src
  onTiles ts (Nat.min x r.1) (Nat.max x r.2.2.1) y y && onTiles ts r.1 r.2.2.1 (Nat.min y r.2.1) (Nat.max y r.2.2.2)

/-- Whether a core's code holds an MSEND on a descriptor (07 R186, 10 R258): that core is a source of its tree. -/
def sendsOn (img : List Byte) (c : Sec) (dsc : Nat) : Bool :=
  (List.range (c.len / 8)).any fun i =>
    let w := imgN img (c.off + 8 * i) 8
    decide (fOp w = 0x92) && decide (fImm w % 256 = dsc)

/-- The logical cores with such code. -/
def treeSources (img : List Byte) (p : Placement) (dsc : Nat) : List Nat :=
  (((secsOf img).filter fun c => c.kind = 1 && sendsOn img c dsc).map fun c =>
    if c.mcast then treeCores p c.target else [c.target]).flatten

/-- A table entry of an image uses a link with an end outside the partition's tiles (10 R251): a flow's paths from its source, a
reduction's inputs and output, a descriptor's destinations and the paths to them from the cores whose code sends on it. -/
def strays (ts : List Nat) (p : Placement) (img : List Byte) (e : Nat × Nat × Nat × Nat) : Bool :=
  match p.sites.find? fun x => x.1 = e.1 with
  | none => false
  | some b =>
    let v := e.2.2.2
    let side (d : Nat) : Bool := match neighbour b.2 d with
      | some n => ts.contains (siteTile n)
      | none => true
    match e.2.1 with
    | 0 =>
      let ends : List (Nat × Nat × Nat × Nat) :=
        if bitAt v 3 then ((p.tabs.filter fun d => d.1 = e.1 ∧ d.2.1 = 2 ∧ d.2.2.1 = bitsOf v 4 8).map fun d => rects d.2.2.2).flatten
        else [(bitsOf v 12 7, bitsOf v 19 7, bitsOf v 12 7, bitsOf v 19 7)]
      bitAt v 0 && bitAt v 1 && !ends.all (pathsOn ts b.2)
    | 1 => bitAt v 0 && !(((List.range 4).all fun d => !bitAt v (1 + d) || side d) && (decide (4 ≤ bitsOf v 6 3) || side (bitsOf v 6 3)))
    | 2 => !(rects v).all fun r => onTiles ts r.1 r.2.2.1 r.2.1 r.2.2.2 &&
        (treeSources img p e.2.2.1).all fun c => match p.sites.find? fun x => x.1 = c with
          | some x => pathsOn ts x.2 r
          | none => true
    | _ => false

/-- What a load leaves in its partition: extents of its mirror and of its edge-resident weights. -/
def Part.withTakes (q : Part) (l : Load) (plan : List (Nat × Nat)) : Part :=
  let n (u : ExtUser) : Nat := ((l.takes.find? fun e => e.1 = u).map (·.2)).getD 0
  { q with
    mirrors := SMap.put q.mirrors l.region (n (keptUser l 1))
    edgeExts := SMap.put q.edgeExts l.region (n (keptUser l 3))
    edges := (q.edges.filter fun e => e.1 ≠ l.region) ++ plan.map fun e => (l.region, e) }

/-- Base image: the partition is LOADED with its first epoch (R309, 04 R124). -/
def installBase (l : Load) (p : Placement) (s : State) : State :=
  let img := l.image
  let n := l.part
  let plan := (edgePlan p.stages (ownSecs s img p)).1
  let q0 : Part := {
    draftOf := p.draftOf, stages := p.stages, tiles := p.tiles, reserve := p.reserve, shape := imgN img 32 8, span := p.span,
    spanPos := p.spanPos, bind := p.sites.foldl (fun m e => SMap.put m e.1 e.2) [],
    fusedPref := (p.cores.filter (·.fused)).map (·.core), epCur := l.epoch, altRegion := p.altRegion,
    regions := [l.epoch, 0xFF], owner := l.owner, mirrorEn := l.mirror,
    ctlCopy := ((l.takes.find? fun e => e.1 = keptUser l 0).map (·.2)).getD 0,
    imgs := p.cores, copies := coreRecs s (treeCores p) p p.cores l,
    patches := patchesIn img (ownSecs s img p), lastEqx := s.now, tscale := tensorScales img p l.region [] }
  let q := q0.withTakes l plan
  let s1 := s.setPart n q
  let s2 := p.costs.zipIdx.foldl (fun t c =>
    [(0x144, c.1.w), (0x148, c.1.m), (0x14C, c.1.a), (0x150, c.1.f), (0x154, c.1.g)].foldl (fun u e => u.setRegN (pgSched n) c.2 e.1 e.2) t) s1
  let s3 := (List.range 3).foldl (fun t k => (t.setRegN (pgSched n) 0 (0x108 + 4 * k) (maskWord p.tiles k)).setRegN (pgSched n) 0
    (0x114 + 4 * k) (maskWord p.reserve k)) (s2.setRegN (pgSched n) 0 0x104 (imgN img 12 4))
  let s4 := if p.span = [] then s3 else s3.setRegN pgGroup n 0x114
    (1 + (if p.spanPos = 0 then 2 else 0) + p.span.headD 0 * 4 + p.spanPos * 2 ^ 8 + (p.span.length - 1) * 2 ^ 12)
  let fmt := imgN img 11 1
  let slots := if fmt = 0 then 112 else 63
  -- keep_slots does not exceed the slots per page (SVC_KV_CFG)
  let s4 := if slots < s4.fld pgKv n 0x104 8 7 then s4.setFld pgKv n 0x104 8 7 slots else s4
  let s5 : State := { s4 with kv := SMap.set s4.kv {} n {
    fmt := fmt, slots := slots, groups := p.groups,
    cores := p.cores.foldl (fun m i => match i.kv with
      | some k => SMap.put m i.core k
      | none => m) [],
    hcfg := s4.reg pgKv n 0x104, hcfg2 := s4.reg pgKv n 0x108 } }
  let s6 := q.copies.foldl (writeRec n) s5
  -- tables 0, 1 and 3 and the loader's fields of table 5 per core; every router of the partition holds the descriptors (10 R263, R273)
  let s7 := p.tabs.foldl (fun t e => match e.2.1, siteOfLogical t n e.1 with
    | 2, _ => (allSites p.tiles).foldl (fun u x => setTab x 2 e.2.2.1 e.2.2.2 u) t
    | 5, some site => setTab site 5 0 (putBits (routerCfg t site) 0 38 e.2.2.2) t
    | k, some site => if k < 4 then setTab site k e.2.2.1 e.2.2.2 t else t
    | _, none => t) s6
  let s8 := p.cores.foldl (fun t i => match siteOfLogical t n i.core with
    | some site => bindCore n (stageOfLogical p.stages i.core) site i t
    | none => t) s7
  setPs n .loaded (q.patches.foldl (applyPatch n) (setEpochTab n 1 0xFF (setEpochTab n 0 l.epoch s8)))

/-- Epoch image: resident and filled in its region, with the far windows of its edge-resident stages (R311, R312). -/
def installEpoch (l : Load) (p : Placement) (s : State) : State :=
  let n := l.part
  let stages := (s.part n).stages
  let recs := coreRecs s (treeOf s n) p (s.part n).imgs l
  let s1 := s.modPart n fun q => { q.withTakes l (edgePlan stages (ownSecs s l.image p)).1 with
    epFill := false, epOther := l.epoch, regions := q.regions.set l.region l.epoch,
    copies := (q.copies.filter fun c => c.what ≠ 1 + l.region) ++ recs, tscale := tensorScales l.image p l.region q.tscale }
  let s2 := ((s1.part n).imgs.filter fun i => i.ewins.any fun e => e.2 = l.region).foldl (fun t i => match siteOfLogical t n i.core with
    | some site => writeFwins n (stageOfLogical stages i.core) site i t
    | none => t) (recs.foldl (writeRec n) s1)
  setEpochTab n l.region l.epoch s2

/-- Adapter image: the version is on every core (R317). -/
def installAdapter (l : Load) (p : Placement) (s : State) : State :=
  let n := l.part
  let recs := coreRecs s (treeOf s n) p (s.part n).imgs l
  let s1 := ((reclaimEnd n s).modPart n fun q => { q with copies := q.copies ++ recs }).modWe fun w =>
    { w with
      vers := SMap.mod w.vers (verKey n l.slot l.ver) fun v => { v with st := .loaded, extents := l.extents }
      lastVer := SMap.put w.lastVer (n * 1024 + l.slot) l.ver }
  recAdapter n l.slot l.ver 0 (recs.foldl (writeRec n) s1)

/-- The MX tensors of a load report, in section order (R308). -/
def insMx (m : MxTensor) : List MxTensor → List MxTensor
  | [] => [m]
  | x :: l => if m.sec < x.sec then m :: x :: l else x :: insMx m l
def mxEntries (img : List Byte) (l : List MxTensor) : List (Nat × Nat × Nat) :=
  (l.foldr insMx []).map fun t => (t.sec, t.count, (mxImport (mxOf img t)).2)

/-- The checks that the content decides (R307), with the extents that the load needs now. -/
def doneCode (s : State) (l : Load) (p : Placement) : Nat :=
  let takes := doneTakes s l p
  let need := takes.foldl (fun n e => n + e.2) 0
  let edge : Nat := ((takes.find? fun e => e.1 = keptUser l 3).map (·.2)).getD 0
  firstCode [
    (0x4064, decide (l.op = 1) && p.tabs.any (strays p.tiles p l.image)),
    (0x4065, p.mx.any fun m => mxRefused m (secBytes l.image m.sec)),
    (0x406C, decide ((keySlot s 2 l.owner).key = none)),
    (0x4067, (decide (l.extents < need) && decide (poolFree s + l.extents < need + logReserve s)) ||
      (decide (edge ≠ 0) && !(freeRuns (giveAll l.takes s)).any fun r => decide (edge ≤ r.2))),
    (0x406A, p.span.any fun m => decide (m ≠ myModule s) && (s.peer m).lost),
    (0x406B, (placedSecs s l.image p).any fun e => decide (e.1.kind = 4) && decide (padBytes < e.1.dest + e.2.1.length))]

/-- The reader module sends each section that another module's cores are to hold to that module, on VL3, with the header and section
table before them (R306, 13 R331). -/
def sendSections (l : Load) (p : Placement) (s : State) : State :=
  let away := p.secs.filter fun e => e.2.1 ≠ myModule s
  let mods := away.foldl (fun a e => if a.contains e.2.1 then a else a ++ [e.2.1]) []
  let head := l.image.take (64 + 32 * imgN l.image 16 4)
  mods.foldl (fun t m =>
    let t1 := sendMsg l.part m (.load l.op l.slot l.owner l.epoch l.mirror head) t
    ((secsOf l.image).filter fun c => away.any fun e => e.1 = c.idx && decide (e.2.1 = m)).foldl (fun u c =>
      (List.range ((c.len + 4095) / 4096)).foldl (fun v i =>
        sendMsg l.part m (.sect (c.off + 4096 * i) ((((l.image.drop c.off).take c.len).drop (4096 * i)).take 4096)) v) u) t1) s

/-- A load whose image is complete: checked, its extents settled, its sections on the wafer and in T1 (R307-R309). -/
def finishLoad (l : Load) (p : Placement) (s : State) : State :=
  let code := doneCode s l p
  if code ≠ 0 then
    let good := p.mx.filter fun m => !mxRefused m (secBytes l.image m.sec)
    loadStop l code (if code = 0x406C then extRefuse { owner := 2, slot := l.owner, req := 4 } (keptUser l 0) 0 s else s)
      (if code = 0x4064 then [] else mxEntries l.image good)
  else
    let m : Load := { l with takes := doneTakes s l p }
    let s0 := (takeAll m.takes (giveAll l.takes s)).modWe fun w => { w with load := none }
    let s1 := if l.op = 1 then installBase m p (writeKept m p s0) else if l.op = 2 then installEpoch m p (writeKept m p s0)
      else installAdapter m p (writeKept m p s0)
    sendSections m p (loadReport l.report 0 l.op (mxEntries l.image p.mx) ((s1.setRegN pgEpoch 0 0x160 2).bump pgEpoch l.part 0x180))

/-- The image that a reader module has sent for a partition: header and table, with the sections at their offsets. -/
def recvImage (s : State) (part : Nat) (head : List Byte) : List Byte :=
  s.mlk.recv.foldl (fun b e => match e.2.2 with
    | .sect off d => if e.2.1 = part then (padTo (Nat.max b.length off) b).take off ++ d ++ b.drop (off + d.length) else b
    | _ => b) head

/-- LOAD_DONE at a module that has received its sections from the reader module (R306): it checks and loads them as its own. -/
def recvLoad (p : Placement) (s : State) : State :=
  match s.mlk.recv.findSome? fun e => match e.2.2 with
    | .load op slot owner epoch mirror head => some (e.2.1, op, slot, owner, epoch, mirror, head)
    | _ => none with
  | none => s
  | some (part, op, slot, owner, epoch, mirror, head) =>
    let img := recvImage s part head
    if (op = 1 ∧ placeOk s p img = false) ∨ mxKnown img p = false then s else
    let l0 : Load := { op := op, part := part, slot := slot, owner := owner, epoch := epoch, mirror := mirror, length := imgN head 24 8,
                       done := imgN head 24 8, image := img }
    let s0 := s.modMlk fun m => { m with recv := m.recv.filter fun e => e.2.1 ≠ part }
    let s1 := beginLoad l0 head (startCode s0 part op head head.length epoch owner mirror) (s0.setRegN pgEpoch 0 0x160 1)
    match loadOf s1 with
    | none => s1
    | some l => finishLoad l p s1

/-- LOAD_DONE (R309): every segment has been read. A placement that no loader could have chosen is not one: nothing happens. -/
def loadDoneCmd (p : Placement) (s : State) : State :=
  match loadOf s with
  | none => recvLoad p s
  | some l =>
    if l.done < l.length ∨ l.seg.isSome then s
    else if (l.op = 1 ∧ placeOk s p l.image = false) ∨ mxKnown l.image p = false then s
    else finishLoad l p s

/-! ### Epochs (R315) -/

/-- Steps of partition `p` that carry epoch `e`. -/
def epochInUse (q : Part) (e : Nat) : Bool :=
  ((q.transit.map (·.2)) ++ q.leaving ++ q.abandoned ++ q.away ++ q.inbox ++
    (q.stages.map fun g => g.run.toList ++ g.wait.toList).flatten).any fun t => t.epoch = e

def boundToEpoch (s : State) (p e : Nat) : List (Nat × Req) :=
  s.serv.reqs.filter fun x => decide (x.2.epoch = some e) && decide ((s.sess x.2.session).part = p) && x.2.slot.isSome

/-- The retention timer of a draining epoch: requests bound to it take no further step and end ADAPTER_GONE. -/
def retainExpire (p : Nat) (s : State) : State :=
  let q := s.part p
  match q.retainAt with
  | none => s
  | some t =>
    if q.epDrain = 0xFF ∨ s.now < t then s
    else
      let l := boundToEpoch s p q.epDrain
      let s1 := l.foldl (fun u e => toEnding e.1 cGone false u) (s.modPart p fun v => { v with retainAt := none })
      l.foldl (fun u e => match u.req e.1 with
        | some r => if r.inflight = 0 then endRequest e.1 u else u
        | none => u) s1

/-- A drained epoch is freed: table entries, mirror extents, region, SVC_SOLSTICE_DONE with event 0x4052, in this order. -/
def epochFree (p : Nat) (s : State) : State :=
  let q := s.part p
  let e := q.epDrain
  if e = 0xFF ∨ epochInUse q e = true ∨ boundToEpoch s p e ≠ [] then s
  else
    let r := q.regions.idxOf e
    let s1 := freeExt (.edge p r) (SMap.get q.edgeExts 0 r) (freeExt (.mirror p r) (SMap.get q.mirrors 0 r) (setEpochTab p r 0xFF s))
    let s2 := s1.modPart p fun v => { v with
      mirrors := SMap.del v.mirrors r, edgeExts := SMap.del v.edgeExts r, edges := v.edges.filter fun e => e.1 ≠ r, regions := v.regions.set r 0xFF, epDrain := 0xFF, retainAt := none,
      copies := v.copies.filter fun c => c.what ≠ 1 + r, tscale := SMap.keep v.tscale fun k _ => k / 2 ^ 32 ≠ r }
    let w := s2.regN pgEpoch 0 0x110
    frWrite 5 p (leBytes 1 e ++ leBytes 1 q.epCur ++ leBytes 4 q.eqxNum) <| (s2.setRegN pgEpoch 0 0x110 (w ||| 2 ^ p)).raise pgEpoch 0x4052 (pack [(0, p), (1, e)])

/-! ### Adapters (R317) -/

def adapterRemove (p : Nat) (s : State) : State :=
  let slot := s.fld pgEpoch 0 0x144 0 10
  match newestVer s p slot with
  | some n => makeOld p slot n s
  | none => s

def adapterStat (s : State) : State :=
  let p := s.fld pgEpoch 0 0x100 0 4
  let slot := s.fld pgEpoch 0 0x170 0 10
  let l := versOf s p slot
  let refs := l.foldl (fun n v => n + liveRefs s p slot (v.1 % 256) + pinRefs s p slot (v.1 % 256)) 0
  s.setRegN pgEpoch 0 0x174 ((newestVer s p slot).getD 0 + Nat.min l.length 4 * 2 ^ 8 +
    (if l.any fun v => v.2.st = .loading || v.2.st = .loaded then 2 ^ 11 else 0) + 2 ^ 12 + Nat.min refs 0xFFFF * 2 ^ 16)

end Sys2Proof.Machine
end

