-- ==== Sys2Proof/Machine/ResetOps.lean ====
section
/-! DEFINITION. Resets below the wafer: a core's and a partition's (18 R437-R439). -/

namespace Sys2Proof.Machine

/-- Traffic at the boundary of a reset of `sites` (R439): packets they sent are abandoned, end-to-end sequence state
restarts in both directions, packets on their way to them are absorbed. -/
def absorbTraffic (which : Nat → Bool) (s : State) : State :=
  let src (k : Nat) : Nat := k / 8 / 16384 % 16384
  let dst (k : Nat) : Nat := k / 8 % 16384
  -- the sequence numbers that a member of a flow's tree keeps are its own (`rcvKey`)
  let apart (k : Nat) : Bool := !which (src k) && !which (dst k) && (decide (k < 2 ^ 31) || !which (k / 2 ^ 31 - 1))
  let still (l : List Kept) : List Kept :=
    (l.map fun x => { x with owed := x.owed.filter fun o => !which o }).filter fun x => x.owed ≠ []
  let upto (f : Flit) : Bool := (decide (f.vc = 1) || decide (f.vc = 4)) && which f.dst
  dropFlits upto (s.modFab fun m => { m with
    kept := SMap.keep (SMap.mapAll (SMap.keep m.kept fun k _ => apart k) fun _ l => still l) fun _ l => l ≠ []
    nextSeq := SMap.keep m.nextSeq fun k _ => apart k
    rcvSeq := SMap.keep m.rcvSeq fun k _ => apart k
    gaveUp := SMap.keep m.gaveUp fun k _ => apart k })

/-- Register words that a core reset keeps: CORE_BIND, the windows, the error counters (R437). -/
def coreKeeps (off : Nat) : Bool :=
  off = 0x104 || (decide (0x180 ≤ off) && decide (off < 0x200)) || off = 0x210 || off = 0x214

/-- Header of a page that enters RESET: EVT_CNT stays, and a lock until a wafer reset (02 R36). -/
def Block.toReset (b : Block) : Block :=
  { st := .reset, locked := b.locked, partReset := true, evtCnt := b.evtCnt }

/-- A core reset: the page's registers and the core's state, not its scratchpad (R437). -/
def coreResetState (site : Nat) (s : State) : State :=
  let pg := pgCore site
  let kept := SMap.keep s.regs fun k _ => decide (k / 2 ^ 20 = pg) && coreKeeps (k % 2 ^ 12)
  let s1 := kept.foldl (fun t e => t.setRegK e.1 e.2) (resetRegs pg .core s)
  (s1.modCore site fun c => { c with
    g := [], v := [], acc := [], pc := 0, qs := [], wait := none, inb := [], pf := false, tf := false,
    fcode := 0, fbads := [] }).modBlk pg Block.toReset

def coreReset (site : Nat) (s : State) : State := coreResetState site (absorbTraffic (fun x => decide (x = site)) s)

/-- Every version of partition `p`'s adapters, its load, both epochs, mirrors and control copy are freed (R438). -/
def freeImages (p : Nat) (s : State) : State :=
  let s1 := abortLoad (some p) s
  let mine (k : Nat) : Bool := k / 256 / 1024 = p
  let q := s1.part p
  let held := ((s1.we.vers.filter fun v => mine v.1).map fun v => (ExtUser.adapter v.1, v.2.extents)) ++
    (q.mirrors.map fun m => (ExtUser.mirror p m.1, m.2)) ++ (q.edgeExts.map fun m => (ExtUser.edge p m.1, m.2)) ++ [(.control p, q.ctlCopy)]
  giveAll held (s1.modWe fun w => { w with vers := SMap.keep w.vers fun k _ => !mine k })

/-- Every prefix handle and node of partition `p` goes (03 R98, R438). -/
def freePrefixes (p : Nat) (s : State) : State :=
  let s1 := (s.serv.handles.filter fun h => h.2.live && decide (h.2.part = p)).foldl (fun t h => releaseHandle h.1 t) s
  s1.modServ fun v => { v with nodes := SMap.keep v.nodes fun _ n => n.part ≠ p }

/-- A partition that was LOST has ended already; otherwise it ends (04 R129), without waiting for its steps. -/
def endForReset (p : Nat) (s : State) : State :=
  if (s.part p).ps = .lost then s
  else
    let s1 := endPartReqs p (s.modPart p Part.flush)
    (draftEnds p s1).err (pgSched p) 2 0x4022 0 (pack [(0, p)])

/-- Clear CORE_BIND.bound and router tables 0-3 of a tile's sites (R438 step 4). -/
def unbindTile (s : State) (t : Nat) : State :=
  (tileSites t).foldl (fun u x => leaveSite x u)
    { s with regs := SMap.keep s.regs fun k _ =>
        !(decide (2 ^ 37 ≤ k) && decide (k < 2 ^ 38) && decide (siteTile (k / 2 ^ 20 - 2 ^ 17) = t) && decide (k % 2 ^ 20 / 2 ^ 12 < 4)) }

/-- R438: a partition reset. -/
def partitionReset (p : Nat) (s : State) : State :=
  let q := s.part p
  let s00 := if q.replayOf then replayAbort s else s
  let s0 := if q.span = [] then s00 else tellMembers p (.relocated 0 false) s00
  let s1 := endForReset p s0
  let cores := q.bind.map (·.2)
  let inPart (x : Nat) : Bool := q.tiles.contains (siteTile x)
  let s2 := absorbTraffic (fun x => cores.contains x) s1
  let s3 := pruneAll p <| dropFlits (fun f => inPart f.loc && (decide (f.vc = 0) || decide (f.vc = 2) || decide (f.vc = 3))) s2
  let s4 := s3.modFab fun m => { m with
    rounds := SMap.keep m.rounds fun k _ => !inPart (k / 256)
    contrib := SMap.keep m.contrib fun k _ => !inPart (k / 256) }
  let s5 := cores.foldl (fun t x => coreResetState x t) s4
  let s6 := freePrefixes p (freeImages p s5)
  let s7 := q.tiles.foldl unbindTile s6
  let trees := SMap.keep s7.spec.trees fun k _ => k / 4096 ≠ p
  let s8 : State := { s7 with spec := { s7.spec with trees := trees }, kv := SMap.set s7.kv {} p {} }
  let s9 := (setPs p .unloaded (dropRequest p s8)).modPart p fun v => { ps := v.ps }
  (resetRegs (pgSched p) .sched s9).modBlk (pgSched p) Block.toReset

end Sys2Proof.Machine
end

