-- ==== Sys2Proof/Machine/BlockOps.lean ====
section
/-! DEFINITION. Block control (02 R34-R45): BLK_CTRL in every state, drains, faults, fences and recovery; and whole
accesses to the BARs (02 R29-R31, R46-R48, R462). -/

namespace Sys2Proof.Machine

/-! ### Committed sets -/

/-- The Solstice requests of an applied set of the epochs page (12 R313). -/
def solsticesOf (set : SMap W32) (s : State) : State :=
  (List.range 16).foldl (fun t p =>
    match SMap.find set (regKey pgEpoch p 0x104) with
    | some w =>
      if w.getLsbD 8 then
        let e := bitsOf w.toNat 0 8
        if partLost t p then refuseSolstice p e t else postCause p 1 (t.modPart p fun q => { q with solstice := some e })
      else t
    | none => t) s

/-- A page's committed set applies, with what it starts. -/
def applyPage (pg : Nat) (s : State) : State :=
  match (s.blk pg).commit with
  | none => s
  | some set =>
    let s1 := applyCommit pg s
    if pg = pgEpoch then solsticesOf set s1 else s1

/-- The partition that a tile belongs to. -/
def tilePart (s : State) (t : Nat) : Option Nat := (s.parts.find? fun e => e.2.tiles.contains t).map (·.1)

/-- The partition whose Equinox is the page's step boundary (R42): of a core, tile or fabric page its tile's. -/
def boundaryPart (s : State) (pg : Nat) : Option Nat :=
  match pageInfo pg with
  | some (.sched, p) => some p
  | some (.core, x) => tilePart s (siteTile x)
  | some (.tile, t) => tilePart s t
  | some (.fab, t) => tilePart s t
  | _ => none

/-- The commit itself is the boundary of a running page (R42; fault, management and T1-map pages are not in its table,
notes/assumptions/40.md). -/
def boundaryNow (s : State) (pg : Nat) : Bool :=
  match pageInfo pg with
  | some (k, _) => match k with
    | .glob | .sec | .mbx | .hostDb | .early | .fault | .mgmt | .map => true
    | .core | .tile | .fab => (boundaryPart s pg).isNone
    | _ => false
  | none => false

/-- COMMIT: one set of all shadows; at once in STOPPED or where the commit is the boundary, else pending; on a page that
an Equinox governs a cause (R41, 04 R120). -/
def commitCtrl (pg : Nat) (s : State) : State :=
  let st := (s.blk pg).st
  let s1 := commitPage pg s
  if st = .stopped ∨ (st = .running ∧ boundaryNow s pg = true) then applyPage pg s1
  else match boundaryPart s pg with
    | some p => if (s.part p).ps = .draining then s1 else postCause p 0 s1
    | none => s1

/-- COMMITTED_SET_APPLY: the boundaries that no other command is (R42): the Steward pages between two admission
decisions, the Merdutra ports at a control flit. R42's table does not list the Merdutra group page: the model gives it the
boundary of the ports (DESIGN CHOICE, notes/assumptions/40.md). -/
def setApply (pg : Nat) (s : State) : State :=
  match pageInfo pg with
  | some (k, _) => match k with
    | .serv | .epoch | .acc | .kv | .replay | .port | .group => if running s pg then applyPage pg s else s
    | _ => s
  | none => s

/-! ### BLK_CTRL (R35, R36) -/

/-- The bits of one write. -/
structure CtrlBits where
  run : Bool := false
  stop : Bool := false
  reset : Bool := false
  commit : Bool := false
  lock : Bool := false
  deriving DecidableEq, Repr

def ctrlBits (v : Nat) : CtrlBits :=
  { run := bitAt v 0, stop := bitAt v 1, reset := bitAt v 2, commit := bitAt v 3, lock := bitAt v 31 }

def kindOf (pg : Nat) : PKind := match pageInfo pg with
  | some (k, _) => k
  | none => .early
def numOf (pg : Nat) : Nat := match pageInfo pg with
  | some (_, n) => n
  | none => 0

/-- A wafer reset or bring-up is in progress (18 R441). -/
def waferBusy (s : State) : Bool := decide (1 ≤ stageNow s) && decide (stageNow s ≤ 5)

/-- Whether part_reset is permitted (R36, 18 R437, R441); the AMP may request a core's at any time but during its
partition's Equinox. -/
def resetOk (s : State) (ag pg : Nat) : Bool :=
  let k := kindOf pg
  k.resettable && !waferBusy s && !(decide ((s.blk pg).st = .fenced) && ag != agAmp) &&
  (if k = .sched then decide ((s.part (numOf pg)).ps ≠ .unloaded)
   else match boundAt s (numOf pg) with
    | none => true
    | some (p, _) =>
      let ps := (s.part p).ps
      decide (ps = .loaded) || decide (ps = .paused) || decide (ps = .lost) ||
        (ag == agAmp && decide (ps ≠ .equinox) && decide (ps ≠ .relocating)))

/-- Whether writing run is allowed in the page's state; in RUNNING it is no change. -/
def runOk (s : State) (pg : Nat) : Bool :=
  match (s.blk pg).st with
  | .running => true
  | .stopped => !nodeServed s pg && !(decide (kindOf pg = .sched) && partLost s (numOf pg))
  | .faulted => !(kindOf pg).resettable
  | _ => false

def partResetCtrl (pg : Nat) (s : State) : State :=
  if (s.blk pg).st = .reset then s
  else if kindOf pg = .sched then partitionReset (numOf pg) s
  else coreReset (numOf pg) s

/-- run in STOPPED: the block starts; on a scheduler page held causes run an Equinox first (04 R127); a port trains and
keeps its replay buffer (R37). -/
def startBlock (pg : Nat) (s : State) : State :=
  let n := numOf pg
  match kindOf pg with
  | .sched => setPs n .running (s.modPart n fun q => { (if q.clockAt.isSome then q.startClocks s.now s.now else q) with mustEqx := decide (q.causes ≠ 0) })
  | .core =>
    -- an unbound island's clock stays gated (14 R345)
    (s.modCore n fun c => { freshCore c (s.regN pg 0 0x108) s.now with gated := c.gated && (boundAt s n).isNone }).modBlk pg fun b =>
      { b with st := .running }
  | .port =>
    let s1 := s.modBlk pg fun b => { b with st := .running }
    if s.fld pg 0 0x104 0 1 = 1 ∧ portSt s n = 0 then
      (if (s.mport n).tx = [] ∧ (s.mport n).waiting = 0 then startTrain n s1
       else (setPortSt n 3 s1).modPort n fun q => { q with since := s.now })
    else s1
  | _ => s.modBlk pg fun b => { b with st := .running }

def runCtrl (pg : Nat) (s : State) : State :=
  match (s.blk pg).st with
  | .stopped => startBlock pg s
  | .faulted => s.modBlk pg fun b => { b with recReq := true }
  | _ => s

/-- stop_req: a drain from RUNNING; at an Equinox, a pause or a relocation it is held (04 R127). -/
def stopCtrl (pg : Nat) (s : State) : State :=
  let n := numOf pg
  if (s.blk pg).st ≠ .running then s
  else
    let s1 := s.modBlk pg fun b => { b with stopReq := true }
    if kindOf pg = .sched then
      match (s.part n).ps with
      | .running => drainDone n (setPs n .draining s1)
      | _ => s1.modPart n fun q => { q with stopHeld := true }
    else s1.modBlk pg fun b => { b with st := .draining, since := s.now }

/-- part_reset of a page that a partial reset already holds in RESET changes nothing. -/
def inReset (s : State) (pg : Nat) : Bool := (kindOf pg).resettable && decide ((s.blk pg).st = .reset) && !waferBusy s

/-- Whether a write of BLK_CTRL is discarded with reason 3: a bit of it is forbidden (R34-R36, R40). -/
def ctrlRefused (s : State) (ag pg v : Nat) : Bool :=
  let c := ctrlBits v
  if c.reset then !inReset s pg && !resetOk s ag pg
  else (c.run && c.stop) || (c.run && !runOk s pg) || (c.lock && !(kindOf pg).shadowed)

/-- A write of BLK_CTRL (R35, R40): part_reset alone, or commit, then run or stop_req, then lock; discarded whole where
a bit is forbidden. -/
def blkCtrl (ag pg v : Nat) (s : State) : State :=
  let c := ctrlBits v
  if ctrlRefused s ag pg v then s.reject pg 8 2 3
  else if c.reset then (if inReset s pg then s else partResetCtrl pg s)
  else
    let s1 := if c.commit then commitCtrl pg s else s
    let s2 := if c.run then runCtrl pg s1 else if c.stop then stopCtrl pg s1 else s1
    if c.lock then s2.modBlk pg fun b => { b with locked := true } else s2

/-- A command that is one bit of BLK_CTRL, on a page that responds. -/
def ctrlCmd (ag pg v : Nat) (s : State) : State :=
  if pageLive s ag pg then blkCtrl ag pg v s else if ag = agHost then dropEarly s else s

/-! ### Initialisation, drains, faults, fences, recovery -/

def initDone (pg : Nat) (s : State) : State :=
  if (s.blk pg).st = .reset then
    (applyPage pg s).modBlk pg fun b => { b with st := .stopped, partReset := false, stopReq := false }
  else s

/-- Work in progress that a drain waits for and that the state shows (18 R440). -/
def drained (s : State) (pg : Nat) : Bool :=
  match kindOf pg with
  | .core => (s.core (numOf pg)).xfers.all (·.done)
  | .port => decide ((s.mport (numOf pg)).tx = []) && decide ((s.mport (numOf pg)).waiting = 0)
  | _ => true

def blockDrain (pg : Nat) (s : State) : State :=
  if kindOf pg = .sched then drainDone (numOf pg) s
  else if (s.blk pg).st = .draining ∧ drained s pg = true then
    (applyPage pg s).modBlk pg fun b => { b with st := .stopped, stopReq := false }
  else s

/-- A fault in the block's own state, or its watchdog: recorded, raised, FAULTED (R36); a core's stage is faulted. -/
def blockFault (pg bit code loc : Nat) (data : BitVec 128) (s : State) : State :=
  let s1 := (s.err pg bit code loc data).modBlk pg fun b => { b with st := .faulted }
  if kindOf pg = .core then faultCoreStage (numOf pg) (s1.modCore (numOf pg) fun c => { c with fcode := code }) else s1

def active (s : State) (pg : Nat) : Bool := decide ((s.blk pg).st = .running) || decide ((s.blk pg).st = .draining)

/-- The bound of a drain in ns (18 R440); 64 block cycles are taken at 100 MHz, the slowest a block may run
(notes/assumptions/41.md). -/
def drainBound (s : State) (pg : Nat) : Nat :=
  match kindOf pg with
  | .core => s.fld pg 0 0x114 0 16 * us
  | .sched => 10 * ms
  | .serv => 2 * us
  | .emc => 10 * ms
  | .port => 1 * ms
  | _ => 640

/-- BLOCK_WATCHDOG: a drain past its bound (18 R440); the AMP then starts recovery by itself where the page has no
part_reset (R37). The spec gives the condition no ERR bit and no code (notes/assumptions/42.md). -/
def blockWatchdog (pg : Nat) (s : State) : State :=
  let b := s.blk pg
  if b.st = .draining ∧ b.since + drainBound s pg < s.now then
    let e := Config.watchdogErr (kindOf pg).type
    (blockFault pg (e.1 % 31) (e.2 % 2 ^ 16) 0 0 s).modBlk pg fun x => { x with recReq := !(kindOf pg).resettable }
  else s

/-- The fence of a core page is its router's too (10 R269). -/
def setFence (pg : Nat) (on : Bool) (s : State) : State :=
  if kindOf pg = .core then
    let x := numOf pg
    setTab x 5 0 (putBits (routerCfg s x) 38 1 (if on then 1 else 0)) s
  else s

def blockFence (pg : Nat) (s : State) : State :=
  if (s.blk pg).st = .reset then s
  else
    let t := setFence pg true (s.modBlk pg fun b => { b with st := .fenced })
    if kindOf pg = .core then gateIsland (numOf pg) t else t

/-- The clock of a bound core's island runs again. -/
def ungate (site : Nat) (s : State) : State :=
  if (boundAt s site).isSome ∧ (s.isl site).tripped = false then s.modCore site fun c => { c with gated := false } else s

def fenceRelease (pg : Nat) (s : State) : State :=
  if (s.blk pg).st = .fenced then
    let t := setFence pg false (s.modBlk pg fun b => { b with st := .stopped, stopReq := false })
    if kindOf pg = .core then ungate (numOf pg) t else t
  else s

/-- R37: recovery of a page without part_reset: fence, reset values but ERR_* and EVT_CNT, release. The fields of a fabric page
that return to their reset values include its routers' table entries, which are reached through that page and whose reset value
is 0 (DESIGN CHOICE, notes/assumptions/70.md). -/
def recover (pg : Nat) (s : State) : State :=
  let b := s.blk pg
  let k := kindOf pg
  if b.st = .faulted ∧ b.recReq = true ∧ k.resettable = false then
    (resetRegs pg k s).setBlk pg { b with
      st := .stopped, stopReq := false, commit := none, errMask := 0, cfgRej := 0, recReq := false, since := 0 }
  else s

end Sys2Proof.Machine
end

