-- ==== Sys2Proof/Machine/MbxOps.lean ====
section
/-! DEFINITION. Mailboxes and doorbells (02 R49-R57). -/

namespace Sys2Proof.Machine

def State.box (s : State) (m : Nat) : Mbx := SMap.get s.mbx.box {} m
def State.modMbx (s : State) (f : MbxSt → MbxSt) : State := { s with mbx := f s.mbx }
def State.setBox (s : State) (m : Nat) (b : Mbx) : State := s.modMbx fun x => { x with box := SMap.set x.box {} m b }
def State.modBox (s : State) (m : Nat) (f : Mbx → Mbx) : State := s.setBox m (f (s.box m))

/-- The receiver of mailbox `m`: 0 host, 1 AMP, 2 Steward, 3 BMC; its doorbell bit there (R50). -/
def receiverOf (s : State) (m : Nat) : Nat := if m < 48 then m / 16 else (s.box m).receiver
def bellOf (m : Nat) : Nat := if m < 48 then m % 16 else m - 32
/-- The agent that reads a receiver's messages; none for the BMC, which reads no mailbox register (R56). -/
def readerOf (rcv : Nat) : Option Nat := ([some agHost, some agAmp, some agStw] : List (Option Nat)).getD rcv none

/-- A discarded mailbox write is recorded in the mailbox block page (R48, R51). A mailbox lies in no block page, so the
record's 12-bit page offset is the BAR4 offset modulo 4,096 (DESIGN CHOICE, notes/assumptions/69.md). -/
def mbxReject (m off cls reason : Nat) (s : State) : State := s.reject pgMbx (0x2000 + 0x100 * m + off) cls reason

def hostBell (s : State) : W32 := s.reg pgHostDb 0 0x100
def hostBellMask (s : State) : W32 := s.reg pgHostDb 0 0x104

/-- Set doorbell bit `b` of a receiver; a host bit that sets while its mask is 0 sends its vector (R54). -/
def ring (rcv b : Nat) (s : State) : State :=
  let one : W32 := 1#32 <<< b
  match rcv with
  | 0 =>
    let fresh := !(hostBell s).getLsbD b
    let s1 := s.setReg pgHostDb 0 0x100 (hostBell s ||| one)
    if fresh && !(hostBellMask s).getLsbD b then s1.msix b else s1
  | 1 => s.modMbx fun x => { x with dbAmp := x.dbAmp ||| one }
  | 2 => s.modMbx fun x => { x with dbStw := x.dbStw ||| one }
  | _ => s.modMbx fun x => { x with dbBmc := x.dbBmc ||| one }

/-- R51 step 1: the first claim on an empty, unclaimed mailbox; its words are zeroed. -/
def mbxClaim (ag m : Nat) (s : State) : State :=
  let b := s.box m
  if b.full || b.claimed then s
  else s.setBox m { b with
    claimed := true, holder := ag, data := List.replicate 16 0, withdrawn := false, since := s.now, limit := b.timeoutCfg }

/-- The message is full: stamp, seq, doorbell; the claim ends (R51 step 3). -/
def mbxSent (ag m : Nat) (s : State) : State :=
  let s1 := s.modBox m fun b => { b with
    full := true, claimed := false, stamp := ag, seq := (b.seq + 1) % 256, readStarted := false, since := s.now,
    limit := b.timeoutCfg }
  ring (receiverOf s m) (bellOf m) s1

/-- Whether `ag` may write data words now. -/
def mayFill (b : Mbx) (ag : Nat) : Bool := b.claimed && !b.full && decide (b.holder = ag)

/-- A write of data word `k`; word 15 sends. -/
def mbxData (ag m k : Nat) (v : W32) (s : State) : State :=
  if mayFill (s.box m) ag then
    let s1 := s.modBox m fun b => { b with data := b.data.set k v }
    if k = 15 then mbxSent ag m s1 else s1
  else mbxReject m (4 * k) 2 3 s

/-- What a data word reads as for an agent, and the effects of its read (R52). -/
def mbxSees (s : State) (ag m : Nat) : Bool := (s.box m).full && decide (readerOf (receiverOf s m) = some ag)
def mbxWord (s : State) (ag m k : Nat) : W32 := if mbxSees s ag m then (s.box m).data.getD k 0 else 0
def mbxTook (ag m k : Nat) (s : State) : State :=
  if mbxSees s ag m then s.modBox m fun b => { b with readStarted := true, full := b.full && !decide (k = 15) } else s

/-- AMP_MBX_STAT. -/
def mbxStat (b : Mbx) : W32 :=
  let bit (c : Bool) (i : Nat) : Nat := if c then 2 ^ i else 0
  BitVec.ofNat 32 (bit b.full 0 + bit b.claimed 1 + bit b.timeout 2 + bit b.claimExpired 3 + bit b.withdrawn 4 +
    bit b.withdrawRefused 5 + bit b.readStarted 6 + b.seq * 2 ^ 8 + (if b.claimed then b.holder else b.stamp) * 2 ^ 16)

def mbxCfg (s : State) (m : Nat) : W32 := BitVec.ofNat 32 ((s.box m).timeoutCfg + receiverOf s m * 2 ^ 16)

/-- What the word at mailbox offset `off` reads as. -/
def mbxPeek (s : State) (ag m off : Nat) : W32 :=
  if off < 0x40 then mbxWord s ag m (off / 4)
  else if off = 0x44 then mbxStat (s.box m)
  else if off = 0x48 then (if (s.box m).claimed && decide ((s.box m).holder = ag) then 1 else 0)
  else if off = 0x4C then mbxCfg s m
  else 0

def mbxRelease (ag m : Nat) (s : State) : State :=
  let b := s.box m
  if b.claimed && decide (b.holder = ag) then s.setBox m { b with claimed := false } else s

/-- R53: only the stamped sender withdraws, and only before a word has been read. A withdraw by the last stamped sender of a
mailbox that is no longer full finds no message: nothing changes and nothing is recorded (DESIGN CHOICE,
notes/assumptions/69.md). -/
def mbxWithdraw (ag m : Nat) (s : State) : State :=
  let b := s.box m
  if b.stamp ≠ ag then mbxReject m 0x48 2 3 s
  else if !b.full then s
  else if b.readStarted then s.setBox m { b with withdrawRefused := true }
  else s.setBox m { b with full := false, withdrawn := true }

/-- AMP_MBX_CTRL: a withdraw that is refused discards the write. R51 and R53 give no order for bits set together in one write:
the model acts on withdraw, then release, then claim (DESIGN CHOICE, notes/assumptions/80.md). -/
def mbxCtrl (ag m : Nat) (v : W32) (s : State) : State :=
  if v.getLsbD 1 && decide ((s.box m).stamp ≠ ag) then mbxReject m 0x48 2 3 s
  else
    let s1 := if v.getLsbD 1 then mbxWithdraw ag m s else s
    let s2 := if v.getLsbD 2 then mbxRelease ag m s1 else s1
    if v.getLsbD 0 then mbxClaim ag m s2 else s2

/-- AMP_MBX_STAT written: timeout, claim_expired and withdraw_refused clear. -/
def mbxStatClear (m : Nat) (v : W32) (s : State) : State :=
  s.modBox m fun b => { b with
    timeout := b.timeout && !v.getLsbD 2, claimExpired := b.claimExpired && !v.getLsbD 3,
    withdrawRefused := b.withdrawRefused && !v.getLsbD 5 }

/-- AMP_MBX_CFG is the host's and the AMP's; a receiver only of a free mailbox 48-63, 0 to 3. -/
def cfgRefused (ag m : Nat) (v : W32) (b : Mbx) : Bool :=
  let r := bitsOf v.toNat 16 3
  let newR := decide (48 ≤ m) && decide (r ≠ b.receiver)
  (newR || decide (bitsOf v.toNat 0 16 ≠ b.timeoutCfg)) &&
    ((decide (ag ≠ agHost) && decide (ag ≠ agAmp)) || (newR && (decide (3 < r) || b.claimed || b.full)))

def mbxConfig (ag m : Nat) (v : W32) (s : State) : State :=
  let b := s.box m
  if cfgRefused ag m v b then mbxReject m 0x4C 2 3 s
  else s.setBox m { b with timeoutCfg := bitsOf v.toNat 0 16, receiver := if 48 ≤ m then bitsOf v.toNat 16 3 else b.receiver }

/-- Whether a write at a mailbox offset is discarded with reason 3: R43 while the mailbox block is FENCED or FAULTED, R51,
R53, R55. -/
def mbxRefused (ag m off : Nat) (v : W32) (s : State) : Bool :=
  let b := s.box m
  (barred s ag pgMbx && (decide (off < 0x40) || decide (off = 0x44) || decide (off = 0x48) || decide (off = 0x4C))) ||
  (if off < 0x40 then !mayFill b ag
   else if off = 0x48 then v.getLsbD 1 && decide (b.stamp ≠ ag)
   else if off = 0x4C then cfgRefused ag m v b
   else false)

/-- A 4-byte write at a mailbox offset. -/
def mbxWrite (ag m off : Nat) (v : W32) (s : State) : State :=
  if mbxRefused ag m off v s then mbxReject m off 2 3 s
  else if off < 0x40 then mbxData ag m (off / 4) v s
  else if off = 0x44 then mbxStatClear m v s
  else if off = 0x48 then mbxCtrl ag m v s
  else if off = 0x4C then mbxConfig ag m v s
  else s

def units100 : Nat := 100 * us

/-- A claim not followed by a send within the timeout (R51). -/
def claimExpire (m : Nat) (s : State) : State :=
  let b := s.box m
  if b.claimed ∧ b.limit ≠ 0 ∧ b.since + b.limit * units100 ≤ s.now then
    s.setBox m { b with claimed := false, claimExpired := true }
  else s

/-- A message not taken within the timeout (R53): once a message. -/
def msgTimeout (m : Nat) (s : State) : State :=
  let b := s.box m
  if b.full ∧ b.limit ≠ 0 ∧ b.since + b.limit * units100 ≤ s.now then
    (s.setBox m { b with timeout := true, limit := 0 }).raise pgMbx Config.mbxTimeoutCode.toNat (pack [(0, m)])
  else s

/-- AMP_EVT_CFG.bmc_async (17 R409). -/
def bmcAsync (s : State) : Bool := s.fld pgMgmt 0 0x120 8 1 = 1

/-- A message to the BMC that the AMP has not begun to transmit. -/
def bmcWaits (s : State) (m : Nat) : Bool :=
  let b := s.box m
  b.full && decide (receiverOf s m = 3) && !b.readStarted

/-- The AMP transmits a message to the BMC (R56). The spec names what MBX_DELIVER carries and not its encoding: the model
lists a leading 0, the mailbox, the stamp, seq and the 16 words. It transmits a message once; that an unanswered one
might be sent again is not modelled (DESIGN CHOICE, notes/assumptions/70.md). -/
def mbxSend (m : Nat) (s : State) : State :=
  let b := s.box m
  (s.setBox m { b with readStarted := true }).emit (.mctp 0x7E ([0, m, b.stamp, b.seq] ++ b.data.map (·.toNat)))

/-- R56: with bmc_async the AMP sends the BMC its message at once. -/
def mbxDeliver (m : Nat) (s : State) : State :=
  if s.mg.amp = .up ∧ bmcAsync s = true ∧ bmcWaits s m = true then mbxSend m s else s

/-- R56: without bmc_async the messages go out when the BMC polls. R56 gives no order among several: the model sends them in
rising mailbox number, before the event record of the poll (DESIGN CHOICE, notes/assumptions/80.md). -/
def mbxPolled (s : State) : State :=
  if bmcAsync s then s else ((List.range 64).filter (bmcWaits s)).foldl (fun t m => mbxSend m t) s

/-- The BMC's response reaches the AMP, which completes the read of word 15 (R56). -/
def mbxDelivered (m : Nat) (s : State) : State :=
  let b := s.box m
  if s.mg.amp = .up ∧ b.full ∧ receiverOf s m = 3 ∧ b.readStarted = true then
    (s.setBox m { b with full := false }).modMbx fun x =>
      { x with dbBmc := x.dbBmc &&& ((1#32 <<< bellOf m) ^^^ 0xFFFFFFFF#32) }
  else s

/-- A 64-byte message of the BMC, placed by the AMP in a free mailbox (17 R409). What the AMP does with one whose mailbox is full
or claimed is not stated: the model drops it, without an answer or a record (DESIGN CHOICE, notes/assumptions/80.md). -/
def bmcMessage (m : Nat) (data : List W32) (s : State) : State :=
  let b := s.box m
  if b.full || b.claimed then s
  else mbxSent agBmc m (s.setBox m { b with
    data := (data ++ List.replicate 16 0).take 16, withdrawn := false })

/-- AMP_DB_HOST_STAT written. -/
def hostBellClear (v : W32) (s : State) : State :=
  s.setReg pgHostDb 0 0x100 (hostBell s &&& (v ^^^ 0xFFFFFFFF#32))

/-- AMP_DB_HOST_MASK written: a bit unmasked while its doorbell bit is set sends its vector (R54). -/
def hostBellMaskSet (v : W32) (s : State) : State :=
  let free := hostBellMask s &&& (v ^^^ 0xFFFFFFFF#32) &&& hostBell s
  (List.range 32).foldl (fun t b => if free.getLsbD b then t.msix b else t) (s.setReg pgHostDb 0 0x104 v)

end Sys2Proof.Machine
end

