-- ==== Sys2Proof/Machine/FamMbx.lean ====
section
/-! DEFINITION. The commands of the mailboxes and of the host doorbells (02 R49-R57). -/

namespace Sys2Proof.Machine

def boxOk (m : Nat) : Bool := decide (m < 64)

/-- A mailbox or doorbell access: BAR4 responds from stage 1 (R29, R30). -/
def bar4 (ag : Nat) (f : State → State) (s : State) : State :=
  if pageLive s ag pgMbx then f s else if ag = agHost then dropEarly s else s

/-- A write of the mailbox register at `off`: judged, then done or recorded (R43, R51, R53, R55). -/
def boxWrite (ag m off : Nat) (v : W32) (s : State) : Res := act (agentOk ag && boxOk m) (bar4 ag (mbxWrite ag m off v)) s

def execMbxClaim (ag m : Nat) (s : State) : Res := boxWrite ag m 0x48 1 s
def execMbxDataWrite (ag m k : Nat) (v : W32) (s : State) : Res :=
  act (agentOk ag && boxOk m && decide (k < 16)) (bar4 ag (mbxWrite ag m (4 * k) v)) s
/-- MBX_SEND: the write of word 15. -/
def execMbxSend (ag m : Nat) (v : W32) (s : State) : Res := boxWrite ag m 0x3C v s

/-- A read of word `k`, or of two words (n = 8). -/
def mbxRead (ag m k n : Nat) (s : State) : State :=
  if pageLive s ag pgMbx then
    let lo := (mbxWord s ag m k).toNat
    if n = 8 then
      mbxTook ag m (k + 1) (mbxTook ag m k (s.emit (.readData ag (lo + 2 ^ 32 * (mbxWord s ag m (k + 1)).toNat))))
    else mbxTook ag m k (s.emit (.readData ag lo))
  else if ag = agHost then s.emit (.readData ag 0xFFFFFFFF) else s

def execMbxDataRead (ag m k n : Nat) (s : State) : Res :=
  act (agentOk ag && boxOk m && ((decide (n = 4) && decide (k < 16)) || (decide (n = 8) && decide (k < 15) && decide (k % 2 = 0))))
    (mbxRead ag m k n) s

def execMbxRelease (ag m : Nat) (s : State) : Res := boxWrite ag m 0x48 4 s
def execMbxWithdraw (ag m : Nat) (s : State) : Res := boxWrite ag m 0x48 2 s
def execMbxClaimExpire (m : Nat) (s : State) : Res := act (boxOk m) (claimExpire m) s
def execMbxMsgTimeout (m : Nat) (s : State) : Res := act (boxOk m) (msgTimeout m) s
def execMbxCfgWrite (ag m : Nat) (v : W32) (s : State) : Res := boxWrite ag m 0x4C v s
def execMbxDeliver (m : Nat) (s : State) : Res := act (boxOk m) (mbxDeliver m) s
def execMbxDeliverResponse (m : Nat) (s : State) : Res := act (boxOk m) (mbxDelivered m) s
def execBmcMailboxMsg (m : Nat) (data : List W32) (s : State) : Res :=
  act (boxOk m && decide (data.length = 16)) (when (decide (1 ≤ stageNow s) && (decide (s.mg.amp = .up) || decide (s.mg.amp = .recovery))) (bmcMessage m data)) s

def execHostDbClear (ag : Nat) (v : W32) (s : State) : Res :=
  act (agentOk ag) (regCmd ag pgHostDb 0x100 v.toNat (hostBellClear v)) s
def execHostDbMaskWrite (ag : Nat) (v : W32) (s : State) : Res :=
  act (agentOk ag) (regCmd ag pgHostDb 0x104 v.toNat (hostBellMaskSet v)) s

end Sys2Proof.Machine
end

