-- ==== Sys2Proof/Machine/RelocOps.lean ====
section
/-! DEFINITION. The relocation service (16 R383-R388, 07 R210, 10 R262): culprits, resets and repairs in place,
relocations, governor moves, the rerouting of flows. -/

namespace Sys2Proof.Machine

def State.tileP (s : State) (t : Nat) : TileP := SMap.get s.pwr.tile {} t
def State.modTile (s : State) (t : Nat) (f : TileP → TileP) : State :=
  { s with pwr := { s.pwr with tile := SMap.upd s.pwr.tile {} t f } }

/-- A site's kind in the ledger; a site that fails goes to the in-service fault list with the code it failed with, 0x1050 for a
self-test (18 R429). -/
def setKind (site k : Nat) (s : State) : State := { s with led := { s.led with kinds := SMap.put s.led.kinds site k } }
def failSite (site code : Nat) (s : State) : State := (setKind site 3 s).enterFault (.site site) code

/-! ### Scheduled flows (10 R262) -/

def popBits (m : Nat) : Nat := ((List.range 64).filter fun i => bitAt m i).length

/-- The lowest `n` slots that are free in a mask. -/
def pickSlots (used n : Nat) : Nat :=
  (((List.range 64).filter fun i => !bitAt used i).take n).foldl (fun m i => m + 2 ^ i) 0

/-- The routers and outputs that a flow uses, by router. -/
def flowRouters (s : State) (x : Nat × Nat × Nat × Nat) : List (Nat × List Nat) :=
  if treeBase ≤ x.2.2.1 then
    let dsc := bitsOf (tabEntry s x.1 0 x.2.1) 4 8
    ((List.range sites).map fun r => (r, mcastOuts r x.1 (tabEntry s r 2 dsc))).filter fun e => e.2 ≠ []
  else (path x.1 x.2.2.1).map fun l => (l.1, [l.2])

/-- Install the flow's mask at a router with links that its new way adds: `n` slots that are free on its outputs there, lowest first;
too few degrade it (event 0x3008). -/
def addMask (flows : List (Nat × Nat × Nat × Nat)) (flow n : Nat) (s : State) (e : Nat × List Nat) : State :=
  let others := flows.filter fun x => x.2.1 ≠ flow
  let m := pickSlots (e.2.foldl (fun u d => u ||| reserved s others e.1 d) 0) n
  let s1 := setTab e.1 0 flow (putBits (tabEntry s e.1 0 flow ||| 1) 32 64 m) s
  if popBits m < n then
    (s1.modFab fun f => { f with degraded := SMap.put f.degraded (1024 * e.1 + flow) true }).err (fabPg e.1) 5 0x3008
      (fabLoc e.1 (e.2.headD 0)) (pack [(0, siteLocal e.1), (2, flow)])
  else s1

/-- A flow takes a new way, from source `x.1` to `a'` and from destination `b` to `b'` (a tree's destination is its members): its
entries at the ends follow, masks of links it leaves go, links it used before keep theirs, new links take as many slots as the source
had. `old` and `new` are its routers before and after. -/
def rerouteFlow (x : Nat × Nat × Nat × Nat) (a' b' : Nat) (old new : List (Nat × List Nat)) (s : State) : State :=
  let flow := x.2.1
  let noMask (v : Nat) : Nat := putBits v 32 64 0
  let put (r v : Nat) (t : State) : State := setTab r 0 flow (tabEntry t r 0 flow ||| v) t
  let tree := treeBase ≤ x.2.2.1
  let src := noMask (tabEntry s x.1 0 flow)
  let dst := noMask (tabEntry s x.2.2.1 0 flow)
  let s1 := (old.map (·.1) ++ (if tree then [x.1] else [x.1, x.2.2.1])).foldl (fun t r =>
    -- a member of a tree keeps its destination entry
    if tree && r ≠ x.1 then setTab r 0 flow (noMask (tabEntry t r 0 flow)) t else setTab r 0 flow 0 t) s
  let s2 := put a' (if tree then src else putBits (putBits src 12 7 (siteX b')) 19 7 (siteY b')) s1
  let s3 := if tree then s2 else put b' dst s2
  let same (e : Nat × List Nat) : Bool := old.any fun o => o.1 = e.1 && e.2.all o.2.contains
  let s4 := (new.filter same).foldl (fun t e => put e.1 (1 + flowMask s e.1 flow * 2 ^ 32) t) s3
  let stays (k : Nat) : Bool :=
    decide (k % 1024 ≠ flow) || !(old.any fun o => o.1 = k / 1024) || (new.filter same).any fun e => e.1 = k / 1024
  let s5 := s4.modFab fun f => { f with degraded := SMap.keep f.degraded fun k _ => stays k }
  (new.filter fun e => !same e).foldl (addMask (sourceFlows s5) flow (popBits x.2.2.2)) s5

/-- Every flow that starts or ends at `old`, or whose tree a patched descriptor changes, takes its new way (R262, R265); `was` is the
state before the move. -/
def rerouteFlows (old new : Nat) (was s : State) : State :=
  let upto (x : Nat) : Nat := if x = old then new else x
  (sourceFlows was).foldl (fun t x =>
    if treeBase ≤ x.2.2.1 then
      let dsc := bitsOf (tabEntry was x.1 0 x.2.1) 4 8
      if x.1 = old ∨ isMember was old dsc = true then
        let after := ((List.range sites).map fun r => (r, mcastOuts r (upto x.1) (tabEntry t r 2 dsc))).filter fun e => e.2 ≠ []
        -- a member's destination entry goes with it
        let dst := tabEntry t old 0 x.2.1
        let t1 := if x.1 ≠ old ∧ bitAt dst 2 = true then setTab new 0 x.2.1 (putBits dst 32 64 0) (setTab old 0 x.2.1 0 t) else t
        rerouteFlow x (upto x.1) x.2.2.1 (flowRouters was x) after t1
      else t
    else if x.1 = old ∨ x.2.2.1 = old then
      rerouteFlow x (upto x.1) (upto x.2.2.1) (flowRouters was x) ((path (upto x.1) (upto x.2.2.1)).map fun l => (l.1, [l.2])) t
    else t) s

/-! ### Moving a core -/

/-- The router of the new site takes the old one's membership mask (10 R265) and configuration; where the core leads its
stage, the stage's routers name the new site. -/
def moveRouter (p c old new : Nat) (s : State) : State :=
  let s1 := [0, 1].foldl (fun t k => setTab new 3 k (tabEntry t old 3 k) t) s
  let cfg := bitsOf (routerCfg s1 old) 0 38
  let s2 := setTab new 5 0 (putBits (routerCfg s1 new) 0 38 cfg) s1
  ((s2.part p).stages.filter fun g => g.leader = c).foldl (fun t g => g.cores.foldl (fun u k =>
    match siteOfLogical u p k with
    | some x => setTab x 5 0 (putBits (routerCfg u x) 0 14 (siteX new + siteY new * 2 ^ 7)) u
    | none => u) t) s2

/-- Candidate sites in R385's order: in-service spares of the same tile, then unbound sites of the reserve tiles; fused
sites first for a core that prefers one, then fewest hops, then the lower number. A tripped site is not bound. -/
def hops (a b : Nat) : Nat :=
  (siteX a - siteX b) + (siteX b - siteX a) + (siteY a - siteY b) + (siteY b - siteY a)

def siteBefore (fused : Bool) (old a b : Nat) : Bool :=
  let fa := fused && !fusedSite a
  let fb := fused && !fusedSite b
  if fa ≠ fb then !fa else
  if hops old a ≠ hops old b then decide (hops old a < hops old b) else decide (a < b)

def insSite (before : Nat → Nat → Bool) (x : Nat) : List Nat → List Nat
  | [] => [x]
  | y :: r => if before x y then x :: y :: r else y :: insSite before x r

def sortSites (before : Nat → Nat → Bool) (l : List Nat) : List Nat := l.foldr (insSite before) []

/-- A site that a core can be bound to: free, powered, its page STOPPED (07 R208, R210). -/
def bindable (s : State) (x : Nat) : Bool :=
  (boundAt s x).isNone && !(s.isl x).tripped && (s.core x).on && decide ((s.blk (pgCore x)).st = .stopped)

def reserveSites (s : State) (p : Nat) : List Nat :=
  (allSites (s.part p).reserve).filter fun x => decide (siteKind s x < 2) && bindable s x

def candidates (s : State) (p c old : Nat) (spares : Bool) : List Nat :=
  let fused := (s.part p).fusedPref.contains c
  let near := if spares then (tileSites (siteTile old)).filter fun x => decide (siteKind s x = 1) && bindable s x else []
  -- a core that leaves a tile which goes dark takes no site of it
  let far := (reserveSites s p).filter fun x => !near.contains x && (spares || decide (siteTile x ≠ siteTile old))
  sortSites (siteBefore fused old) near ++ sortSites (siteBefore fused old) far

/-- The first candidate that passes the quick self-test; those before it become kind 3. -/
def firstSite (fails : List Nat) : List Nat → State → Option Nat × State
  | [], s => (none, s)
  | x :: r, s => if fails.contains x then firstSite fails r (failSite x 0x1050 s) else (some x, s)

/-- A site is taken into use: a spare becomes a program core; the last spare of a tile raises 0x4026. -/
def takeSite (x : Nat) (s : State) : State :=
  if siteKind s x = 1 then
    let s1 := setKind x 0 s
    if (tileSites (siteTile x)).any fun y => siteKind s1 y = 1 then s1
    else s1.raise pgFault 0x4026 (pack [(0, siteTile x)])
  else s

/-- A reserve tile that a pass of the relocation service has used holds a stage from then on: it is no reserve tile any
more, and SCHED_RSV_MASK shows it (04 R104, R106; notes/assumptions/72.md). -/
def settleReserve (p : Nat) (s : State) : State :=
  let q := s.part p
  let left := q.reserve.filter fun t => !q.bind.any fun b => siteTile b.2 = t
  (List.range 3).foldl (fun t k => t.setRegN (pgSched p) 0 (0x114 + 4 * k) (maskWord left k))
    (s.modPart p fun v => { v with reserve := left })

/-- The set that waits at the next Equinox goes with the core, with the shadows it came from (04 R121 step 5). -/
def moveSet (old new : Nat) (s : State) : State :=
  let shift (m : SMap W32) : SMap W32 := m.foldl (fun a e => SMap.put a (e.1 % 2 ^ 20 + pgCore new * 2 ^ 20) e.2) []
  match (s.blk (pgCore old)).commit with
  | none => s
  | some set =>
    let sh := shift (pageShadows s (pgCore old))
    let s1 : State := { s with shadow := sh.foldl (fun a e => SMap.put a e.1 e.2) (SMap.keep s.shadow fun k _ =>
      !ownKey (pgCore old) k && !ownKey (pgCore new) k) }
    (s1.modBlk (pgCore old) fun b => { b with commit := none }).modBlk (pgCore new) fun b => { b with commit := some (shift set) }

/-- Records of a core that its mirrors or control copy no longer give back (12 R310). -/
def copiesGone (s : State) (p c : Nat) : Bool := (s.part p).copies.any fun r => decide (r.core = c) && !copyHeld s r

/-- What T1 gives back of a record; a read that fails reports itself and gives what the record held. -/
def readCopy (p : Nat) (r : CopyRec) (s : State) : CopyRec × State :=
  match extRead (copyAcc r) (copyUser p r) r.off r.data.length s with
  | (.ok b, t) => (if b.length = r.data.length then { r with data := b } else r, t)
  | (.error _, t) => (r, t)

/-- Bind core `c` of `p` to `new` and load it from T1 (07 R208, R210). -/
def loadCore (p c new : Nat) (s : State) : State :=
  let q := s.part p
  match q.imgs.find? fun i => i.core = c with
  | none => s
  | some i =>
    let s1 := bindCore p (stageOfLogical q.stages c) new i s
    let s2 := (q.copies.filter fun r => r.core = c).foldl (fun t r => let x := readCopy p r t; writeRec p x.2 x.1) s1
    setEpochTab p 1 (q.regions.getD 1 0xFF) (setEpochTab p 0 (q.regions.getD 0 0xFF) s2)

/-- The patch records that name core `c`, at every site (07 R208 step 4, R210 step 3). -/
def patchCore (p c : Nat) (s : State) : State :=
  ((s.part p).patches.filter fun r => r.target = c || r.core = c).foldl (applyPatch p) s


/-- KV pages that core `c` holds. -/
def pagesOf (s : State) (p c : Nat) : List Nat :=
  ((s.pool p).pages.filter fun e => decide (pageCore e.1 = c) && decide (e.2.st ≠ .lost)).map (·.1)

/-- GLB_RELOC_* and event 0x4025 (R387): result 1 relocated, 2 no site, 3 repaired in place. -/
def relocReport (p c old new lost res : Nat) (s : State) : State :=
  let t0 := match (s.part p).eqx with
    | some e => e.step4
    | none => s.now
  let dt := Nat.min ((s.now - t0) / us) 0xFFFFFFFF
  let s1 := (s.setFld pgFault 0 0x108 4 4 p).setFld pgFault 0 0x108 8 2 res
  if res = 2 then s1
  else
    let s2 := s1.setFld pgFault 0 0x108 16 16 (satInc (s1.fld pgFault 0 0x108 16 16) 0xFFFF)
    let s3 := (s2.setRegN pgFault 0 0x10C (c + p * 2 ^ 16)).setRegN pgFault 0 0x110
      (siteX old + siteY old * 2 ^ 8 + siteX new * 2 ^ 16 + siteY new * 2 ^ 24)
    let s4 := (s3.setRegN pgFault 0 0x114 lost).setRegN pgFault 0 0x118 dt
    (s4.bump pgFault 0 (if res = 1 then 0x188 else 0x18C)).raise pgFault 0x4025
      (pack [(0, c), (2, p), (3, res), (4, agCore old), (6, agCore new), (8, lost), (12, dt)])

/-- The partition ends: no site, or nothing to load a core from (04 R129); of a span every partition here ends whose span has
this module, with it (13 R338). -/
def relocFail (p : Nat) (s : State) : State :=
  let q := s.part p
  if q.span = [] then endPartition p s else spansEnd (myModule s) (fun _ => true) s

/-- Fence, and move core `c` to a new site from its copies in T1: its frames are lost (R385, 07 R210); false with the
partition ended. -/
def relocate (p c old : Nat) (fails : List Nat) (s0 : State) : Bool × State :=
  let code := (s0.core old).fcode
  let s := blockFence (pgCore old) s0
  match firstSite fails (candidates s p c old true) s with
  | (none, t) =>
    (false, relocFail p ((relocReport p c old old 0 2 t).err pgFault 0 0x402B (agCore old + p * 2 ^ 16) (pack [(0, c), (2, p)])))
  | (some new, t) =>
    if copiesGone t p c then (false, relocFail p t)
    else
      let lost := pagesOf t p c
      let s1 := takeSite new (absorbTraffic (fun x => x = old || x = new) t)
      let s2 := if code = 0x5051 then setKind old 1 s1 else failSite old code s1
      let s3 := leaveSite old (s2.modPart p fun q => { q with bind := SMap.put q.bind c new, lostDue := q.lostDue ++ lost })
      let s4 := s3.modPool p fun q => { q with copies := q.copies.filter fun g => g.core ≠ c }
      let s5 := loadCore p c new (s4.modCore new fun k => { k with spad := [] })
      let s6 := rerouteFlows old new s5 (patchCore p c (moveRouter p c old new (moveSet old new s5)))
      (true, relocReport p c old new lost.length 1 s6)

/-- The beats of reading, or of writing, a whole scratchpad: 16 elements each, no two in one bank (09 R238, R246). -/
def wholeBeats (site : Nat) (s : State) : State :=
  if s.fld (pgCore site) 0 0x314 0 1 = 0 then s
  else (s.bump (pgCore site) 0 0x318 (2048 * 64 / 16)).bump (pgCore site) 0 0x31C (5 * 2048 * 64 / 16)

/-- A governor move of a healthy core (04 R126): its scratchpad and lists move with it, no page is lost. -/
def governorMove (p c old new : Nat) (s : State) : State :=
  let k := s.core old
  let s1 := takeSite new (absorbTraffic (fun x => x = old || x = new) s)
  let s2 := leaveSite old (s1.modPart p fun q => { q with bind := SMap.put q.bind c new })
  let s3 := match (s2.part p).imgs.find? fun i => i.core = c with
    | some i => bindCore p (stageOfLogical (s2.part p).stages c) new i s2
    | none => s2
  let s4 := ((wholeBeats new (wholeBeats old s3)).modCore new fun x => { x with spad := k.spad, plist := k.plist, inb := k.inb }).modCore old fun x =>
    { x with plist := [] }
  let s5 := s4.modBlk (pgCore old) fun b => { b with st := .stopped }
  let s6 := rerouteFlows old new s5 (patchCore p c (moveRouter p c old new (moveSet old new s5)))
  relocReport p c old new 0 1 s6

/-! ### Culprits (R383, R384) -/

/-- Island-alive: an instruction retired, or a WAIT, in the last 10 us. -/
def islandAlive (s : State) (site : Nat) : Bool :=
  let c := s.core site
  c.on && !c.gated && (c.wait.isSome || decide (s.now ≤ c.lastRet + 10 * us))

/-- Reset in place (07 R205): control state as at a start; scratchpad and page lists stay. -/
def resetInPlace (p c site : Nat) (s : State) : State :=
  let k := s.core site
  match (s.part p).imgs.find? fun i => i.core = c with
  | none => s
  | some i =>
    (bindCore p (stageOfLogical (s.part p).stages c) site i (absorbTraffic (fun x => decide (x = site)) s)).modCore site fun x =>
      { x with plist := k.plist, pf := k.pf, tf := k.tf }

/-- What the copies hold for the 32 bytes of an element; none where no copy covers it. -/
def copyOf (s : State) (p c a : Nat) : Option CopyRec :=
  (s.part p).copies.find? fun r => decide (r.core = c) && decide (r.addr ≤ a) && decide (a < r.addr + r.data.length)

/-- Rewrite an element that a core reported (R384 step 2); none where a weight has no mirror. -/
def repairElement (p c site e : Nat) (s : State) : Option State :=
  let a := 32 * e
  let put (b : List Byte) (s : State) : State := storeBeats site a 32 (s.modCore site fun k => { k with spad := Mem.write k.spad a b })
  let bytes (r : CopyRec) : List Byte := (List.range 32).map fun i => r.data.getD (a + i - r.addr) 0#8
  match copyOf s p c a with
  | some r => if copyHeld s r then let x := readCopy p r s; some (put (bytes x.1) x.2) else none
  | none => if wregRow s site (e / 64) then none else some (put (List.replicate 32 0) s)

/-- One culprit core: reset in place, repaired, or fenced and relocated; false with the partition ended. -/
def handleCulprit (p c : Nat) (fails bad : List Nat) (s : State) : Bool × State :=
  match siteOfLogical s p c with
  | none => (true, s)
  | some site =>
    let k := s.core site
    let halted := decide ((s.blk (pgCore site)).st = .faulted)
    if halted && (decide (0x1001 ≤ k.fcode) && decide (k.fcode ≤ 0x1030) || decide (k.fcode = 0x7010)) then
      (true, resetInPlace p c site s)
    else if halted && (k.fcode = 0x2002 || k.fcode = 0x2003 || k.fcode = 0x2005) then
      let lost := ((s.part p).lostDue.filter fun pg => pageCore pg = c).length
      let s1 := resetInPlace p c site s
      match k.fbads.foldl (fun a e => a.bind (repairElement p c site e)) (some s1) with
      | none => (false, relocFail p s1)
      | some s2 =>
        if bad.contains site then
          -- the site fails with the code that it was repaired for
          relocate p c site fails ((s2.modCore site fun x => { x with fcode := k.fcode }).err pgFault 1 0x2006 (agCore site + p * 2 ^ 16)
            (pack [(0, agCore site), (4, k.fbads.headD 0)]))
        else (true, relocReport p c site site lost 3 s2)
    else relocate p c site fails s

/-- The culprits of a stage (R383). -/
def culprits (s : State) (p g : Nat) : List Nat :=
  ((s.part p).stage g).cores.filter fun c => match siteOfLogical s p c with
    | some x => decide ((s.blk (pgCore x)).st = .faulted) || !islandAlive s x
    | none => false

def insNat (x : Nat) : List Nat → List Nat
  | [] => [x]
  | y :: r => if x < y then x :: y :: r else if x = y then y :: r else y :: insNat x r

/-- A stage that timed out with no culprit: 0x4027 and every core reset in place; the second time on a replayed step the
partition ends. -/
def noCulprit (p g : Nat) (r : Bool × State) : Bool × State :=
  let s := r.2
  let x := (s.part p).stage g
  match r.1, x.timed with
  | true, some rp =>
    if culprits s p g ≠ [] then r
    else if x.again = true ∧ 1 ≤ rp then (false, relocFail p s)
    else
      let s1 := (s.raise pgFault 0x4027 (pack [(0, p), (1, g)])).modPart p fun q => q.modStage g fun y => { y with again := true }
      (true, x.cores.foldl (fun t c => match siteOfLogical t p c with
        | some site => resetInPlace p c site t
        | none => t) s1)
  | _, _ => r

/-- Step 4 of R121 (R386): stages without a culprit, then the culprits in ascending logical index; then the service reports
done. -/
def relocation (p : Nat) (fails bad : List Nat) (s : State) : State :=
  let gs := ((s.part p).stages.zipIdx.filter fun g => g.1.faulted).map (·.2)
  let cs := ((gs.map (culprits s p)).flatten).foldl (fun l c => insNat c l) []
  let r0 := gs.foldl (fun r g => noCulprit p g r) (true, s)
  let r := cs.foldl (fun r c => if r.1 then handleCulprit p c fails bad r.2 else r) r0
  if r.1 then
    relocOver p ((settleReserve p r.2).modPart p fun q => { q with stages := q.stages.map fun g => { g with faulted := false, timed := none } })
  else r.2

end Sys2Proof.Machine
end

