-- ==== Sys2Proof/Machine/PwrOps.lean ====
section
/-! DEFINITION. Power delivery and clocking (14): caps and limits, tile states, header switches, rails, telemetry. -/

namespace Sys2Proof.Machine

def State.modPwr (s : State) (f : PwrSt → PwrSt) : State := { s with pwr := f s.pwr }

/-! ### Tile states and caps (R345, R357) -/

/-- PWR_TILE_STAT.state: 0 ON, 1 CAPPED, 2 MOVING, 3 DARK, 4 FUSED. -/
def tileSt (s : State) (t : Nat) : Nat := s.fld (pgPwrT t) 0 0x100 0 3
def setTileSt (t x : Nat) (s : State) : State := s.setFld (pgPwrT t) 0 0x100 0 3 x

/-- The lowest of the tile-wide caps. -/
def TileP.cap (t : TileP) : Nat := Nat.min (Nat.min t.sliceCap t.contactCap) (Nat.min t.powerCap t.clockCap)

/-- An island's limit (R345); a tile on its way out, or dark for heat, has cap 0. -/
def limitOf (s : State) (site : Nat) : Nat := islandLimit s site

/-- Caps lowered or raised: CAPPED while one is below 15, ON when all are back; the cap field follows. -/
def capState (t : Nat) (s : State) : State :=
  let p := s.tileP t
  let c := if p.heat = 2 then 0 else p.cap
  let s1 := s.setFld (pgPwrT t) 0 0x100 4 4 c
  match tileSt s t with
  | 0 => if c < 15 then setTileSt t 1 s1 else s1
  | 1 => if c = 15 then setTileSt t 0 s1 else s1
  | _ => s1

/-! ### Dead tiles in the mesh (10 R270, R271) -/

/-- The routers beside a tile with the direction in which the tile lies. -/
def besideTile (t : Nat) : List (Nat × Nat) :=
  let x0 := 12 * (t % 9)
  let y0 := 12 * (t / 9)
  let r := List.range 12
  (if y0 = 0 then [] else r.map fun i => (siteAt (x0 + i) (y0 - 1), 1)) ++
  (if t / 9 = 7 then [] else r.map fun i => (siteAt (x0 + i) (y0 + 12), 0)) ++
  (if x0 = 0 then [] else r.map fun i => (siteAt (x0 - 1) (y0 + i), 2)) ++
  (if t % 9 = 8 then [] else r.map fun i => (siteAt (x0 + 12) (y0 + i), 3))

def tileRegion (t : Nat) : Nat :=
  let x0 := 12 * (t % 9)
  let y0 := 12 * (t / 9)
  x0 + y0 * 2 ^ 7 + (x0 + 11) * 2 ^ 14 + (y0 + 11) * 2 ^ 21 + 2 ^ 28

def unlistRegion (site reg : Nat) (s : State) : State :=
  (List.range 4).foldl (fun t k => if tabEntry t site 6 k = reg then setTab site 6 k 0 t else t) s

/-- The routers at a tile's corners, which the way around it passes. -/
def tileCorners (t : Nat) : List Nat :=
  let x0 := 12 * (t % 9)
  let y0 := 12 * (t / 9)
  let xs := (if x0 = 0 then [] else [x0 - 1]) ++ (if t % 9 = 8 then [] else [x0 + 12])
  let ys := (if y0 = 0 then [] else [y0 - 1]) ++ (if t / 9 = 7 then [] else [y0 + 12])
  (ys.map fun y => xs.map fun x => siteAt x y).flatten

/-- The AMP writes a tile as a dead region at the routers beside it, which it moves to detour set 1, and at its corners (R271). -/
def listTile (t : Nat) (s : State) : State :=
  (besideTile t).foldl (fun u x => setTab x.1 5 0 (putBits (routerCfg u x.1) 43 1 1) (listRegion x.1 (tileRegion t) u))
    ((tileCorners t).foldl (fun u x => listRegion x (tileRegion t) u) s)

/-- The tile's routers are up again: the region goes, and their own detour entries are written anew. -/
def unlistTile (t : Nat) (s : State) : State :=
  ((besideTile t).foldl (fun u x => setTab x.1 5 0 (putBits (putBits (routerCfg u x.1) 43 1 0) (39 + x.2) 1 0)
    (unlistRegion x.1 (tileRegion t) u)) ((tileCorners t).foldl (fun u x => unlistRegion x (tileRegion t) u) s)).modFab
    fun m => { m with detours := if m.detours.contains t then m.detours else m.detours ++ [t] }

/-- The tile's routers lose power: buffers and tables are lost (R351), links to it are dead (R270). -/
def routersDown (t : Nat) (s : State) : State :=
  (besideTile t).foldl (fun u x => linkDead x.1 x.2 u) (routersLost (fun x => decide (siteTile x = t)) s)

/-! ### Islands off and on (R351) -/

/-- A core island loses its registers, accumulators and scratchpad; its page keeps its header and error counters. -/
def islandOff (site : Nat) (s : State) : State :=
  let s1 := s.setCore site { ceMark := (s.core site).ceMark, ceSaid := (s.core site).ceSaid }
  s1.modIsl site fun i => { i with heater := false, mw := 0 }

def islandOn (site : Nat) (s : State) : State :=
  (s.setCore site { (s.core site) with on := true, gated := true, spad := [], lastRet := s.now }).setFld (pgCore site) 0 0x110 0 4 0

def coresOff (t : Nat) (s : State) : State := (tileSites t).foldl (fun u x => islandOff x u) s

/-- The sites whose core islands a region switches: a core island, a cluster of 16; a router island has none. Its header opens with
its tile's, which is dark before (R351: `routersDown`), so a turn-off finds it open. -/
def regionSites (t r : Nat) : List Nat :=
  if r < 144 then [siteOf t r]
  else if r < 153 then
    let k := r - 144
    (List.range 16).map fun i => siteOf t (12 * (4 * (k / 3) + i / 4) + 4 * (k % 3) + i % 4)
  else []

/-- The site local index that ERR_LOC shows for a region: its site's, or its first. -/
def regionLoc (t r : Nat) : Nat := match regionSites t r with
  | x :: _ => siteLocal x
  | [] => r - 153

/-! ### Dark and fused tiles (R357, R354) -/

/-- Headers opened, VCORE off: DARK; the AMP lists the tile first. -/
def goDark (t : Nat) (s : State) : State :=
  let s1 := routersDown t (coresOff t (listTile t s))
  let s2 := s1.modTile t fun p => { p with heat := 0, seqs := [], heaters := 0, rail := 0 }
  ((setTileSt t 3 s2).setFld (pgPwrT t) 0 0x100 11 1 0).setFld (pgPwrT t) 0 0x110 0 10 0

/-- Bound cores of a tile, with their partition and logical index. -/
def boundIn (s : State) (t : Nat) : List (Nat × Nat × Nat) :=
  (s.parts.map fun e => (e.2.bind.filter fun b => siteTile b.2 = t).map fun b => (e.1, b.1, b.2)).flatten

/-- Partition of a tile that still serves. -/
def servingPart (s : State) (t : Nat) : Option Nat :=
  match tilePart s t with
  | some p => if partLost s p then none else some p
  | none => none

/-- Darkening required by R343 or R355: MOVING in a partition, DARK at once in none. -/
def darken (t : Nat) (s : State) : State :=
  if tileSt s t < 2 then
    match servingPart s t with
    | some p => setHolder p 1 ((setTileSt t 2 s).setFld (pgPwrT t) 0 0x100 4 4 0)
    | none => goDark t s
  else s

/-- Every partition with a tile that waits for a move. -/
def waitsMove (s : State) (t : Nat) : Bool := tileSt s t = 2 || (s.tileP t).heat = 1

/-- A stage is faulted for each bound core whose island is lost. -/
def faultBound (t : Nat) (s : State) : State := (boundIn s t).foldl (fun u b => faultCoreStage b.2.2 u) s

/-- R354: the tile's e-fuse opens. -/
def efuseTrip (t : Nat) (s : State) : State :=
  if tileSt s t = 4 then s
  else
    let s1 := s.err (pgPwrT t) 4 0x5021 0 (pack [(0, t)])
    let s2 := routersDown t (coresOff t (listTile t s1))
    let s3 := ((setTileSt t 4 s2).setFld (pgPwrT t) 0 0x100 11 1 0).modTile t fun p => { p with heat := 0, seqs := [], heaters := 0, rail := 0 }
    faultBound t (s3.setFld (pgPwrT t) 0 0x110 0 10 0)

/-! ### Trim slices (R343) -/

/-- Failed slices n, n + 1, n + 2 around the ring of 56. -/
def threeAdjacent (m : Nat) : Bool := (List.range 56).any fun n => bitAt m n && bitAt m ((n + 1) % 56) && bitAt m ((n + 2) % 56)
def sliceCount (m : Nat) : Nat := ((List.range 56).filter fun n => bitAt m n).length
/-- The code of a tile's whole set of failed slices. -/
def sliceCode (m : Nat) : Nat :=
  if 6 ≤ sliceCount m ∨ threeAdjacent m = true then 0x5003 else if 3 ≤ sliceCount m then 0x5002 else 0x5001

/-- The action for a tile's whole set of failed slices. -/
def sliceAct (t n : Nat) (s : State) : State :=
  let m := s.reg64 (pgPwrT t) 0 0x108
  let k := sliceCount m
  let code := sliceCode m
  let s1 := s.err (pgPwrT t) 0 code n (pack [(0, t), (2, n), (4, k)])
  if code = 0x5003 then darken t (capState t (s1.modTile t fun p => { p with sliceCap := 0 }))
  else if code = 0x5002 then capState t (s1.modTile t fun p => { p with sliceCap := Nat.min p.sliceCap 10 })
  else s1.setFld (pgPwrT t) 0 0x100 8 1 1

/-- A slice fails: recorded, and entered in the ledger; the next governor period acts on the whole set. -/
def sliceFail (t n : Nat) (s : State) : State :=
  let m := s.reg64 (pgPwrT t) 0 0x108
  if bitAt m n then s
  else
    let s1 := s.setReg64 (pgPwrT t) 0 0x108 (m + 2 ^ n)
    let s2 := s1.setFld (pgPwrT t) 0 0x100 16 6 (sliceCount (m + 2 ^ n))
    (s2.enterFault (.slice t n) (sliceCode (m + 2 ^ n))).modTile t fun p => { p with sliceDue := some n }

/-- The governor period after a failure, or after a warm reset has restored the set (notes/assumptions/49.md). -/
def sliceDue (t : Nat) (s : State) : State := match (s.tileP t).sliceDue with
  | some n => sliceAct t n (s.modTile t fun p => { p with sliceDue := none })
  | none => s

/-! ### Speed steps (R344, R347) -/

def vNominal : List Nat := [560, 573, 587, 600, 613, 627, 640, 653, 667, 680, 693, 707, 720, 733, 747, 760]
/-- The tile's own V(s) in mV: 0 to 40 below nominal, at least 560. -/
def vStep (t k : Nat) : Nat := Nat.max 560 (vNominal.getD k 760 - Config.vFuse t k % 41)

/-- Islands of a tile that are clocked. -/
def clockedIn (s : State) (t : Nat) : List Nat :=
  ((s.cores.filter fun e => decide (siteTile e.1 = t) && e.2.on && !e.2.gated).map (·.1))

/-- The step an island is bound for: heater mode runs at step 4 at most (15 R367). -/
def targetStep (s : State) (site : Nat) : Nat :=
  if (s.isl site).heater then Nat.min 4 (limitOf s site) else limitOf s site

/-- The step in force at an island. -/
def stepOf (s : State) (site : Nat) : Nat := s.fld (pgCore site) 0 0x110 0 4

/-- The setpoint that a tile's islands need: the highest island target and 40 mV (R342). An island whose step is still the higher
one keeps its voltage until its DCO has retuned (R347); with no island clocked it is that of step 0. -/
def needed (s : State) (t : Nat) : Nat :=
  (clockedIn s t).foldl (fun v x => Nat.max v (Nat.max (vStep t (targetStep s x)) (vStep t (stepOf s x)))) (vStep t 0) + 40

/-- A rail that is on takes the setpoint; a lower one is in effect with it, a higher one from the next governor period (R341). -/
def setpoint (t : Nat) (s : State) : State :=
  let mv := needed s t
  if s.fld (pgPwrT t) 0 0x110 0 10 = 0 ∨ 3 ≤ tileSt s t then s
  else (s.setFld (pgPwrT t) 0 0x110 0 10 mv).modTile t fun p => { p with rail := Nat.min p.rail mv }

/-- A tile's VCORE rail comes up, its headers open: at step 0's setpoint. -/
def railOn (t : Nat) (s : State) : State :=
  (s.setFld (pgPwrT t) 0 0x110 0 10 (vStep t 0 + 40)).modTile t fun p => { p with rail := vStep t 0 + 40 }

/-- A step change (R347). Raising: within the present rail it completes; else the rail's setpoint rises and the change waits for the
next governor period. Lowering: the DCO retunes, and the setpoint follows. CORE_CLK.step shows it when it is complete. -/
def stepChanged (site : Nat) (s : State) : State :=
  let c := s.core site
  let t := siteTile site
  let k := targetStep s site
  if c.on && !c.gated && stepOf s site != k then
    if k < stepOf s site ∨ vStep t k + 40 ≤ (s.tileP t).rail then
      setpoint t ((s.setFld (pgCore site) 0 0x110 0 4 k).bump (pgPwrT t) 0 0x188)
    else setpoint t s
  else s

/-! ### Clocks (R350) -/

def holdover (s : State) (t : Nat) : Bool := s.fld (pgPwrT t) 0 0x100 10 1 = 1

def lockLoss (t : Nat) (s : State) : State :=
  if holdover s t || decide (3 ≤ tileSt s t) then s
  else
    let s1 := (s.setFld (pgPwrT t) 0 0x100 10 1 1).err (pgPwrT t) 5 0x5031 0 (pack [(0, t)])
    capState t (s1.modTile t fun p => { p with clockCap := 14, retryAt := s.now + ms })

def relock (t : Nat) (locked : Bool) (s : State) : State :=
  if holdover s t = true ∧ (s.tileP t).retryAt ≤ s.now then
    if locked = true ∧ s.fld pgPwrG 0 0x100 5 1 = 0 then
      capState t ((s.setFld (pgPwrT t) 0 0x100 10 1 0).modTile t fun p => { p with clockCap := 15 })
    else s.modTile t fun p => { p with retryAt := s.now + ms }
  else s

def refLost (s : State) : State :=
  if s.fld pgPwrG 0 0x100 5 1 = 1 then s
  else (List.range tiles).foldl (fun t k => lockLoss k t) ((s.setFld pgPwrG 0 0x100 5 1 1).err pgPwrG 0 0x5030)

/-! ### Header switches (R352, R353, R354) -/

def stageUs (s : State) : Nat := s.fld pgPwrG 0 0x104 0 4 * us
def tileBlock (t : Nat) : Nat := 2 * (t % 9) + t / 9 / 4
def blkAmps (s : State) (t : Nat) : Nat := s.fld pgPwrG (tileBlock t) 0x114 0 12
def blkLimit (s : State) (t : Nat) : Nat := s.fld pgPwrG (tileBlock t) 0x114 16 12
/-- The supply block's current is above the threshold. -/
def blockBusy (s : State) (t : Nat) : Bool :=
  decide (s.fld pgPwrG 0 0x104 8 7 * blkLimit s t < 100 * blkAmps s t)

def seqBusy (t : Nat) (s : State) : State :=
  s.setFld (pgPwrT t) 0 0x100 11 1 (if (s.tileP t).seqs.isEmpty then 0 else 1)

/-- The first turn-on of the tile's queue begins: its stages, or a wait for supply current. -/
def beginTurnOn (t : Nat) (s : State) : State :=
  match (s.tileP t).seqs with
  | [] => seqBusy t s
  | q :: r =>
    if blockBusy s t then
      seqBusy t ((s.modTile t fun p => { p with seqs := { q with waitFrom := some s.now, slow := true } :: r }).bump (pgPwrT t) 0 0x180)
    else seqBusy t (s.modTile t fun p => { p with seqs := { q with start := s.now } :: r })

/-- Whether a tile may turn a region on: not dark, fused or dark for heat (15 R363), the region not isolated and not already queued or on; a core
island that is fused out or failed never. -/
def mayTurnOn (s : State) (t r : Nat) : Bool :=
  decide (tileSt s t < 3) && decide ((s.tileP t).heat ≠ 2) && !(s.tileP t).iso.contains r && !((s.tileP t).seqs.any fun q => q.region = r) &&
    ((regionSites t r).any fun x => decide (siteKind s x < 2) && !(s.core x).on)

def turnOn (t r : Nat) (s : State) : State :=
  if mayTurnOn s t r then
    let idle := (s.tileP t).seqs.isEmpty
    let s1 := s.modTile t fun p => { p with seqs := p.seqs ++ [{ region := r }] }
    if idle then beginTurnOn t s1 else s1
  else s

/-- The wait of R353 ends: at a sample below the threshold, or after wait_us with event 0x5012. -/
def waitEnd (t : Nat) (s : State) : State :=
  match (s.tileP t).seqs with
  | q :: r => match q.waitFrom with
    | some w =>
      let isOver := decide (w + s.fld pgPwrG 0 0x104 16 16 * us ≤ s.now)
      let go (u : State) : State := u.modTile t fun p => { p with seqs := { q with waitFrom := none, start := s.now } :: r }
      if !blockBusy s t then go s
      else if isOver then (go s).raise (pgPwrT t) 0x5012 (pack [(0, t), (2, q.region)])
      else s
    | none => s
  | [] => s

/-- Eight stages and one further interval (R352). -/
def turnOnTime (s : State) (q : TurnOn) : Nat := 9 * stageUs s * (if q.slow then 4 else 1)

/-- Clocks gated, outputs clamped, every segment opened at once (R352). -/
def openHeaders (t r : Nat) (s : State) : State :=
  let xs := regionSites t r
  if (xs.any fun x => (boundAt s x).isSome) || !(xs.any fun x => (s.core x).on) then s
  else (xs.foldl (fun u x => islandOff x u) s).bump (pgPwrT t) 0 0x18C

def regionPowered (t : Nat) (s : State) : State :=
  match (s.tileP t).seqs with
  | q :: r =>
    if q.waitFrom = none ∧ q.start + turnOnTime s q ≤ s.now then
      let s1 := ((regionSites t q.region).filter fun x => decide (siteKind s x < 2) && !(s.core x).on).foldl (fun u x => islandOn x u) s
      let s2 := (s1.modTile t fun p => { p with seqs := r }).bump (pgPwrT t) 0 0x18C
      beginTurnOn t (if q.off then openHeaders t q.region s2 else s2)
    else s
  | [] => s

/-- A turn-off, only of a region whose work has been moved; for a region whose own turn-on is queued or runs it is acted
on when that ends. -/
def turnOff (t r : Nat) (s : State) : State :=
  if (s.tileP t).seqs.any fun q => q.region = r then
    s.modTile t fun p => { p with seqs := p.seqs.map fun q => if q.region = r then { q with off := true } else q }
  else openHeaders t r s

/-- A stage that draws too much, or a region that does not settle: ISOLATED, its cores kind 3; a fused-out site stays kind 2 (R354). -/
def regionShort (t : Nat) (s : State) : State :=
  match (s.tileP t).seqs with
  | q :: r =>
    if q.waitFrom.isSome then s
    else
      let s1 := (s.modTile t fun p => { p with iso := p.iso ++ [q.region], seqs := r }).err (pgPwrT t) 3 0x5020 (regionLoc t q.region)
        (pack [(0, t), (2, q.region)])
      beginTurnOn t (((regionSites t q.region).filter fun x => decide (siteKind s x ≠ 2)).foldl (fun u x => failSite x 0x5020 u) (s1.enterFault (.region t q.region) 0x5020))
  | [] => s

/-! ### Rails (R340) -/

/-- Gate every core clock of the module. -/
def gateAll (s : State) : State := { s with cores := SMap.mapAll s.cores fun _ c => { c with gated := true } }

def allTiles : List Nat := List.range tiles

/-- A tile's VCORE is commanded off: no sequence goes on, its islands lose what they hold. -/
def vcoreOff (s : State) (t : Nat) : State :=
  let s1 := (coresOff t s).modTile t fun x => { x with seqs := [], heaters := 0, rail := 0 }
  if tileSt s t < 3 then (s1.setFld (pgPwrT t) 0 0x110 0 10 0).setFld (pgPwrT t) 0 0x100 11 1 0 else s1

/-- The tiles of a supply block (R339). -/
def blockTiles (b : Nat) : List Nat := (List.range 4).map fun i => 9 * (4 * (b % 2) + i) + b / 2

/-- The rail-off of the tiles that are due: VCORE off, then the VMEM rails with no VCORE rail on in their block; every sequence is
aborted, the routers are dead (10 R270), stages of bound cores are faulted. -/
def railOff (s : State) : State :=
  let l := s.pwr.railOff
  if l = [] then s
  else
    let s1 := l.foldl vcoreOff (s.setFld pgPwrG 0 0x100 4 1 0)
    let dead (b : Nat) : Bool := (blockTiles b).all fun t => l.contains t || decide (s1.fld (pgPwrT t) 0 0x110 0 10 = 0)
    let s2 := if (List.range 18).any dead then s1.setFld pgPwrG 0 0x100 3 1 0 else s1
    let s3 := if allTiles.all l.contains then routersLost (fun _ => true) s2 else l.foldl (fun u t => routersDown t u) s2
    let s4 := l.foldl (fun u t => faultBound t u) (s3.modPwr fun p => { p with railOff := [] })
    if s4.fld pgThmG 0 0x10C 0 3 = 3 ∧ allTiles.all l.contains = true then s4.setFld pgThmG 0 0x10C 0 3 4 else s4

/-- The tiles that a rail feeds: a VCORE rail its own, a VMEM rail its block's four. -/
def railTiles (rail : Nat) : List Nat := if rail < 72 then [rail] else blockTiles (rail - 72)

/-- A rail leaves regulation: 0x5032; the tiles affected lose their clocks, and their rail-off is due (R340). -/
def railLost (ts : List Nat) (rail : Nat) (s : State) : State :=
  let gate (u : State) (t : Nat) : State :=
    (tileSites t).foldl (fun v x => if (v.core x).on then v.modCore x fun c => { c with gated := true } else v) u
  ((ts.foldl gate s).modPwr fun p => { p with railOff := p.railOff ++ ts.filter fun t => !p.railOff.contains t }).err pgPwrG 1 0x5032 rail (pack [(0, rail)])

/-- A rail's fault: a VCORE rail's own tile; a VMEM rail's four, whose VCORE rails go off first; VLINK and VEDGE, which every compute
rail waits for when it comes up, all of them (notes/assumptions/49.md). -/
def railFault (rail : Nat) (s : State) : State :=
  if rail < 72 then railLost (railTiles rail) rail (s.setFld pgPwrG 0 0x100 4 1 0)
  else if rail < 90 then
    railLost (railTiles rail) rail ((((railTiles rail).foldl (fun u t => if tileSt u t < 3 then u.setFld (pgPwrT t) 0 0x110 0 10 0 else u) s).setFld pgPwrG 0 0x100 4 1 0).setFld pgPwrG 0 0x100 3 1 0)
  else railLost allTiles rail (s.setFld pgPwrG 0 0x100 (if rail = 90 then 2 else 1) 1 0)

/-! ### Telemetry and contact (R346, R353, R355, R356) -/

/-- Excess drop in microvolt (R355). -/
def excess (rail vout vsense ma : Nat) : Int :=
  (vout : Int) - vsense - ((Config.rPath rail * ma / 1000 : Nat) : Int) - Config.vOfs rail

def since (c : Bool) (now : Nat) (x : Option Nat) : Option Nat := if c then some (x.getD now) else none

/-- One rail's sample: voltages in uV, current in mA. -/
def railSample (s : State) (x : RailSample) : State :=
  let e := excess x.rail x.vout x.vsense x.ma
  let above (mv : Nat) : Bool := decide ((mv * 1000 : Int) < e)
  let warn := above (s.fld pgPwrG 0 0x118 0 8)
  let trip := above (s.fld pgPwrG 0 0x118 8 8)
  let f (r : RailT) : RailT :=
    { warnSince := since warn s.now r.warnSince, tripSince := since trip s.now r.tripSince, warned := r.warned && warn, tripped := r.tripped && trip }
  let s1 := s.modPwr fun p => { p with rails := SMap.upd p.rails {} x.rail f }
  if x.rail < 72 then
    let mv : Int := max (-128) (min 127 (e.tdiv 1000))
    ((s1.setFld (pgPwrT x.rail) 0 0x110 16 10 (x.vsense / 1000)).setFld (pgPwrT x.rail) 0 0x114 0 10 (x.ma / 1000)).setFld
      (pgPwrT x.rail) 0 0x114 16 8 (BitVec.ofInt 8 mv).toNat
  else s1

/-- TELEMETRY_SAMPLE: module power, rails, supply blocks. -/
def telemetry (watts : Nat) (rails : List RailSample) (blocks : List (Nat × Nat)) (s : State) : State :=
  let s1 := rails.foldl railSample s
  let amps := (List.range tiles).foldl (fun n t => n + s1.fld (pgPwrT t) 0 0x114 0 10) 0
  let s2 := (s1.setFld pgPwrG 0 0x10C 0 16 watts).setFld pgPwrG 0 0x10C 16 12 (Nat.min (amps / 10) 0xFFF)
  blocks.foldl (fun t b => t.setFld pgPwrG b.1 0x114 0 12 (Nat.min b.2 0xFFF)) s2

def State.rail (s : State) (r : Nat) : RailT := SMap.get s.pwr.rails {} r
def lasted (x : Option Nat) (now d : Nat) : Bool := match x with
  | some t => decide (t + d ≤ now)
  | none => false

/-- warn_mv for warn_ms: CONTACT_SUSPECT, once in a stretch. -/
def contactSuspect (r : Nat) (s : State) : State :=
  if lasted (s.rail r).warnSince s.now (s.fld pgPwrG 0 0x118 16 8 * ms) && !(s.rail r).warned then
    let s1 := s.modPwr fun p => { p with rails := SMap.upd p.rails {} r fun x => { x with warned := true } }
    -- the ledger's record stays (R355)
    let s1 : State := { s1 with led := { s1.led with suspects := s1.led.suspects ++ [(s.now, r)] } }
    (railTiles r).foldl (fun u t => (u.setFld (pgPwrT t) 0 0x100 9 1 1).err (pgPwrT t) 1 0x5010 0 (pack [(0, t), (2, r)])) s1
  else s

/-- trip_mv for trip_ms: cap 0, 0x5011, dark. -/
def contactTrip (r : Nat) (s : State) : State :=
  if lasted (s.rail r).tripSince s.now (s.fld pgPwrG 0 0x118 24 8 * ms) && !(s.rail r).tripped then
    let s1 := s.modPwr fun p => { p with rails := SMap.upd p.rails {} r fun x => { x with tripped := true } }
    (railTiles r).foldl (fun u t =>
      darken t (capState t ((u.modTile t fun p => { p with contactCap := 0 }).err (pgPwrT t) 2 0x5011 0 (pack [(0, t), (2, r)])))) s1
  else s

/-- A lower voltage at the sense point (255) or at an island is kept with its time (R356). -/
def vminSample (t mv place : Nat) (s : State) : State :=
  let w := s.regN (pgPwrT t) 0 0x118
  if mv < bitsOf w 0 10 then
    (s.setRegN (pgPwrT t) 0 0x118 (mv + place * 2 ^ 16 + 2 ^ 31)).setReg64 (pgPwrT t) 0 0x120 s.now
  else s

/-! ### The module power cap (R346) -/

/-- The lower of PWR_CAP.cap_w and the coolant cap (15 R369). -/
def capWatts (s : State) : Nat := Nat.min (s.fld pgPwrG 0 0x108 0 16) (s.fld pgThmG 0 0x10C 16 16)

def hungriest (s : State) : Nat :=
  (List.range tiles).foldl (fun a t => if s.fld (pgPwrT a) 0 0x114 0 10 < s.fld (pgPwrT t) 0 0x114 0 10 then t else a) 0

/-- One governor period of the power cap. -/
def powerCap (s : State) : State :=
  let w := s.fld pgPwrG 0 0x10C 0 16
  let cap := capWatts s
  if cap < w then
    let t := hungriest s
    let s1 := (s.modTile t fun p => { p with powerCap := p.powerCap - 1 }).modPwr fun p =>
      { p with order := t :: p.order, lowSince := none }
    let s2 := if (s.tileP t).powerCap = 0 then s.modPwr fun p => { p with lowSince := none } else capState t s1
    if s.fld pgPwrG 0 0x100 6 1 = 1 then s2
    else (s2.setFld pgPwrG 0 0x100 6 1 1).err pgPwrG 2 0x5040 0 (pack [(0, w), (4, cap)])
  else if 100 * w < 98 * cap then
    match s.pwr.lowSince with
    | none => s.modPwr fun p => { p with lowSince := some s.now }
    | some t0 =>
      if t0 + 100 * us ≤ s.now then
        match s.pwr.order with
        | t :: r =>
          let s1 := capState t ((s.modTile t fun p => { p with powerCap := Nat.min 15 (p.powerCap + 1) }).modPwr fun p => { p with order := r })
          if r = [] then (s1.setFld pgPwrG 0 0x100 6 1 0).raise pgPwrG 0x5040 (pack [(0, w), (4, cap)]) else s1
        | [] => if s.fld pgPwrG 0 0x100 6 1 = 1 then (s.setFld pgPwrG 0 0x100 6 1 0).raise pgPwrG 0x5040 (pack [(0, w), (4, cap)]) else s
      else s
  else s.modPwr fun p => { p with lowSince := none }

end Sys2Proof.Machine
end

