-- ==== Sys2Proof/Machine/ThmOps.lean ====
section
/-! DEFINITION. Thermal control and cooling (15): readings, the forecast, throttling, heat darkening, sensors, Winter
hold, the coolant states, recalibration. -/

namespace Sys2Proof.Machine

/-! ### Readings (R359, R360) -/

/-- The covering diode of a site, in its tile. -/
def coverDiode (site : Nat) : Nat := 3 * (siteY site % 12 / 3) + siteX site % 12 / 4
def diodeOff (d : Nat) : Nat := 0x110 + 4 * d
def diodeTemp (s : State) (t d : Nat) : Nat := s.fld (pgThmT t) 0 (diodeOff d) 0 11
def diodeFailed (s : State) (t d : Nat) : Bool := s.fld (pgThmT t) 0 (diodeOff d) 11 1 = 1
/-- A ring-oscillator reading with the offset of its last recalibration, tenths. -/
def roTemp (i : Isl) : Int := i.ro + i.ofs

/-- The protective reading in tenths. -/
def protective (s : State) (site : Nat) : Int :=
  let i := s.isl site
  let t := siteTile site
  let d := coverDiode site
  let dv : Int := (diodeTemp s t d : Nat)
  match i.roFail, diodeFailed s t d with
  | false, false => max (roTemp i) dv
  | false, true => roTemp i
  | true, false => dv
  | true, true => i.model / 100 + 100

def sampleIn (islands : List IslSample) (diodes : List DiodeSample) (s : State) : State :=
  let s1 := islands.foldl (fun t x => t.modIsl x.site fun i => { i with ro := x.ro, mw := x.mw }) s
  diodes.foldl (fun t x => t.setFld (pgThmT x.tile) 0 (diodeOff x.diode) 0 11 (Nat.min x.temp 0x7FF)) s1

/-! ### The forecast (R361), in thousandths of a degree -/

def targetC (s : State) : Int := ((s.fld pgThmG 0 0x110 0 8 : Nat) : Int) * 1000
def coolantAt (s : State) (t : Nat) : Int :=
  (s.pwr.tin : Int) * 100 + ((s.pwr.tout : Int) - s.pwr.tin) * 100 * (2 * (t % 9) + 1 : Nat) / 18

def tilePower (s : State) (t : Nat) : Nat := (tileSites t).foldl (fun n x => n + (s.isl x).mw) 0

/-- Recalibrations of a tile, each of which refines its constants (R373). -/
def recals (s : State) (t : Nat) : Nat := SMap.get s.led.recals 0 t

def steady (s : State) (t site : Nat) : Int :=
  coolantAt s t + ((Config.thermalR site (recals s t) * (s.isl site).mw / 1000 + Config.thermalRt t (recals s t) * tilePower s t / 1000 : Nat) : Int)

/-- `x + (y - x) * k / 2^32`. -/
def blend (x y : Int) (k : Nat) : Int := x + (y - x) * (k : Int) / (2 ^ 32 : Nat)

def forecast (t : Nat) (s : State) : State :=
  (clockedIn s t).foldl (fun u x =>
    let ss := steady s t x
    let ti := protective s x * 100
    let m := (s.isl x).model
    u.modIsl x fun i => { i with
      fcst := blend ss ti (Config.thermalDecay x (recals s t) 5000 % 2 ^ 32)
      model := blend ss m (Config.thermalDecay x (recals s t) 100 % 2 ^ 32) }) s

/-! ### Throttling (R362, R363) -/

/-- The coolant state: 0 NORMAL, 1 ALARM, 2 DERATE, 3 SHUTDOWN, 4 STOPPED (R370). -/
def coolState (s : State) : Nat := s.fld pgThmG 0 0x10C 0 3

/-- The clocked island with the highest forecast, the lowest local index on ties. -/
def hottest (s : State) (l : List Nat) : Option Nat :=
  l.foldl (fun a x => match a with
    | none => some x
    | some y =>
      if (s.isl y).fcst < (s.isl x).fcst ∨ ((s.isl y).fcst = (s.isl x).fcst ∧ siteLocal x < siteLocal y) then some x else a) none

/-- R362 for a tile, and since when R363's island has been at cap 0. From SHUTDOWN on no cap rises again (R371). -/
def throttle (t : Nat) (s : State) : State :=
  let l := clockedIn s t
  match hottest s l with
  | none => s
  | some h =>
    let hot := decide (targetC s < (s.isl h).fcst)
    let cool := targetC s - ((s.fld pgThmG 0 0x110 8 4 : Nat) : Int) * 1000
    let s1 :=
      if hot then
        (if 0 < (s.isl h).tcap then
          ((s.modIsl h fun i => { i with tcap := i.tcap - 1 }).modTile t fun p => { p with lowered := h :: p.lowered }).bump
            (pgThmT t) 0 0x180
         else s)
      else if coolState s < 3 ∧ (l.all fun x => (s.isl x).fcst ≤ cool) = true then
        match (s.tileP t).lowered with
        | x :: r => (s.modIsl x fun i => { i with tcap := Nat.min 15 (i.tcap + 1) }).modTile t fun p => { p with lowered := r }
        | [] => s
      else s
    let s2 := l.foldl (fun u x => u.modIsl x fun i => { i with
      hotSince := since (hot && decide (x = h) && decide (i.tcap = 0)) s.now i.hotSince }) s1
    -- a stretch at cap 0 that has ended: the next one is judged anew (R363)
    if l.all fun x => (s2.isl x).hotSince.isNone then s2.modTile t fun p => { p with noMove := false } else s2

/-- A tile's thermal state (THM_TILE_STAT.tstate). -/
def tstate (s : State) (t : Nat) : Nat :=
  let p := s.tileP t
  if p.heat = 2 then 3 else if p.heat = 1 then 2 else if 0 < p.heaters then 4
  else if (tileSites t).any fun x => (s.isl x).tcap < 15 then 1 else 0

def tileStat (t : Nat) (s : State) : State :=
  let l := clockedIn s t
  let h := (tileSites t).foldl (fun a x => match a with
    | none => some x
    | some y => if protective s y < protective s x ∨ (protective s y = protective s x ∧ siteLocal x < siteLocal y) then some x else a) none
  let f := match hottest s l with
    | some x => ((s.isl x).fcst / 1000).toNat
    | none => 0
  let (hc, hs) := match h with
    | some x => ((protective s x / 10).toNat, siteLocal x)
    | none => (0, 0)
  s.setRegN (pgThmT t) 0 0x100 (tstate s t + hc % 256 * 2 ^ 4 + f % 256 * 2 ^ 12 + hs * 2 ^ 20)

/-- Fence or free the local ports of a tile's routers (R363). -/
def tilePorts (t : Nat) (on : Bool) (s : State) : State :=
  (tileSites t).foldl (fun u x => setTab x 5 0 (putBits (routerCfg u x) 38 1 (if on then 1 else 0)) u) s

/-- HEAT_DARK: islands off, VCORE and routers on, local ports as fenced. -/
def goHeatDark (t : Nat) (s : State) : State :=
  let s1 := tilePorts t true (coresOff t s)
  let s2 := s1.modTile t fun p => { p with heat := 2, coolAt := none, seqs := [], heaters := 0 }
  tileStat t (((setTileSt t 1 s2).setFld (pgPwrT t) 0 0x100 4 4 0).err (pgThmT t) 3 0x5054 0 (pack [(0, t)]))

/-- Free reserve sites for every bound core of the tile. -/
def roomToMove (s : State) (p t : Nat) : Bool :=
  let mine := (boundIn s t).filter fun b => b.1 = p
  decide (mine.length ≤ ((allSites (s.part p).reserve).filter fun x =>
    decide (siteKind s x < 2) && bindable s x && decide (siteTile x ≠ t)).length)

def heatDue (s : State) (t : Nat) : Bool :=
  (clockedIn s t).any fun x => decide ((s.isl x).tcap = 0) && lasted (s.isl x).hotSince s.now (s.fld pgThmG 0 0x110 16 16 * ms)

def heatDark (t : Nat) (s : State) : State :=
  if heatDue s t && decide ((s.tileP t).heat = 0) && decide (tileSt s t < 2) then
    match servingPart s t with
    | none => goHeatDark t s
    | some p =>
      if roomToMove s p t then setHolder p 1 (tileStat t (s.modTile t fun x => { x with heat := 1, noMove := false }))
      else if (s.tileP t).noMove then s
      else (s.modTile t fun x => { x with noMove := true }).err (pgThmT t) 4 0x5055 0 (pack [(0, t), (2, p)])
  else s

/-- R364: the way back; a tile of a partition returns as one of its reserve tiles. -/
def heatExit (t : Nat) (s : State) : State :=
  if (s.tileP t).heat = 2 ∧ lasted (s.tileP t).coolAt s.now (100 * ms) = true ∧ coolState s ≤ 1 then
    let s1 := tilePorts t false (s.modTile t fun p => { p with heat := 0, coolAt := none })
    let s2 := match tilePart s1 t with
      | some p => (s1.modPart p fun q => { q with reserve := if q.reserve.contains t then q.reserve else q.reserve ++ [t] }).setFld
          (pgSched p) 0 (0x114 + 4 * (t / 32)) (t % 32) 1 1
      | none => s1
    tileStat t (capState t ((List.range 9).foldl (fun u k => turnOn t (144 + k) u) s2))
  else s

/-! ### Trips and sensors (R365, R366) -/

/-- The junction trip: on a measured reading of 105 degrees from a sensor not marked failed; an island with no working
sensor is tripped by the AMP on its protective reading. -/
def tripDue (s : State) (site temp : Nat) (diode : Bool) : Bool :=
  let rf := (s.isl site).roFail
  let df := diodeFailed s (siteTile site) (coverDiode site)
  if rf && df then decide (s.mg.amp = .up) && decide ((1050 : Int) ≤ protective s site)
  else decide (1050 ≤ temp) && (if diode then !df else !rf)

def junctionTrip (site temp : Nat) (diode : Bool) (s : State) : State :=
  let c := s.core site
  if c.on && !c.gated && tripDue s site temp diode then
    let t := siteTile site
    let s1 := (s.modCore site fun k => { k with gated := true, fcode := 0x5051 }).modIsl site fun i => { i with tripped := true, coolSince := none }
    let s2 := (s1.bump (pgThmT t) 0 0x184).err (pgThmT t) 0 0x5051 (siteLocal site + coverDiode site * 2 ^ 8)
      (pack [(0, agCore site), (2, temp)])
    if (s.blk (pgCore site)).st = .faulted then s2 else haltCore site s2
  else s

/-- A tripped site may be bound again after 10 ms at or below the target (R365). -/
def untrip (s : State) : State :=
  (s.pwr.isl.filter fun e => e.2.tripped).foldl (fun u e =>
    let cool := decide (protective s e.1 * 100 ≤ targetC s)
    let x := since cool s.now e.2.coolSince
    if lasted x s.now (10 * ms) then u.modIsl e.1 fun i => { i with tripped := false, coolSince := none }
    else u.modIsl e.1 fun i => { i with coolSince := x }) s

/-- The sites that a diode covers. -/
def covered (t d : Nat) : List Nat := (tileSites t).filter fun x => coverDiode x = d

def diodeModel (s : State) (t d : Nat) : Int := (covered t d).foldl (fun a x => a + (s.isl x).model) 0 / 12

def failMark (t local_ d : Nat) (s : State) : State :=
  s.err (pgThmT t) 2 0x5053 (local_ + d * 2 ^ 8) (pack [(0, t), (2, local_), (3, d)])

/-- The flag of a diode: some pair with it is flagged. -/
def diodeFlag (t d : Nat) (s : State) : State :=
  s.setFld (pgThmT t) 0 (diodeOff d) 12 1 (if (covered t d).any fun x => (s.isl x).disagree then 1 else 0)

/-- R366 for one island with two working sensors. -/
def comparePair (s : State) (site : Nat) : State :=
  let t := siteTile site
  let d := coverDiode site
  let i := s.isl site
  if i.roFail || diodeFailed s t d then s
  else
    let dv : Int := (diodeTemp s t d : Nat)
    let diff := if roTemp i ≤ dv then dv - roTemp i else roTemp i - dv
    let ok := since (decide (diff ≤ 40)) s.now i.okSince
    let clear := i.disagree && lasted ok s.now sec
    let s1 := s.modIsl site fun x => { x with
      diffSince := since (decide (40 < diff)) s.now i.diffSince, okSince := ok, disagree := x.disagree && !clear }
    let s2 := if clear then diodeFlag t d s1 else s1
    if 100 < diff then
      let s3 := if roTemp i * 100 + 10000 < i.model then
          failMark t (siteLocal site) d (s2.modIsl site fun x => { x with roFail := true }) else s2
      if dv * 100 + 10000 < diodeModel s t d then failMark t (siteLocal site) d (s3.setFld (pgThmT t) 0 (diodeOff d) 11 1 1) else s3
    else s2

def compareAll (s : State) : State :=
  ((s.cores.filter fun e => e.2.on).map (·.1)).foldl comparePair s

def sensorDisagree (site : Nat) (s : State) : State :=
  let i := s.isl site
  if lasted i.diffSince s.now (sec + 1) && !i.disagree then
    let t := siteTile site
    let d := coverDiode site
    ((diodeFlag t d (s.modIsl site fun x => { x with disagree := true, okSince := none })).bump (pgThmT t) 0 0x18C).err (pgThmT t) 1
      0x5052 (siteLocal site + d * 2 ^ 8) (pack [(0, agCore site), (2, d)])
  else s

/-! ### Winter hold (R367) and thermal cycles (R368) -/

def tileIdle (s : State) (t : Nat) : Bool := (boundIn s t).isEmpty && decide ((s.tileP t).heat ≠ 2) && decide (tileSt s t < 3)

def workingDiodes (s : State) (t : Nat) : List Nat :=
  ((List.range 12).filter fun d => !diodeFailed s t d).map (diodeTemp s t)

/-- Clusters 0 to n - 1 of a tile run in heater mode, the others not; an island that the junction trip has gated stays so (R365). -/
def setHeaters (t n : Nat) (s : State) : State :=
  let s1 := (List.range 9).foldl (fun u k => (regionSites t (144 + k)).foldl (fun w x =>
    if (w.core x).on = true ∧ (boundAt w x).isNone = true ∧ (w.isl x).tripped = false ∧ siteKind w x < 2 then
      (w.modIsl x fun i => { i with heater := decide (k < n) }).modCore x fun c => { c with gated := !decide (k < n) }
    else w) u) s
  s1.modTile t fun p => { p with heaters := n }

def winterOn (s : State) : Bool :=
  s.fld pgThmG 0 0x114 0 1 = 1 && decide (coolState s ≤ 1) && s.fld pgPwrG 0 0x100 6 1 = 0

def winter (t : Nat) (s : State) : State :=
  let n := (s.tileP t).heaters
  let s1 :=
    if winterOn s && tileIdle s t && (s.tileP t).recalAt.isNone then
      let l := workingDiodes s t
      let sum := l.foldl (· + ·) 0
      let centre := s.fld pgThmG 0 0x114 8 8
      let half := s.fld pgThmG 0 0x114 16 4
      if l = [] then s
      else if sum < (centre - half) * 10 * l.length then (if n < 9 then setHeaters t (n + 1) s else s)
      else if centre * 10 * l.length < sum then (if 0 < n then setHeaters t (n - 1) s else s)
      else s
    else if 0 < n then setHeaters t 0 s else s
  if 0 < (s1.tileP t).heaters then s1.bump (pgThmT t) 0 0x188 else s1

/-- Count a thermal cycle of amplitude `a` tenths. -/
def countCycle (t a : Nat) (s : State) : State :=
  let off := if a ≤ 400 then 0x150 else if a ≤ 600 then 0x154 else 0x158
  s.setRegN (pgThmT t) 0 off (satInc (s.regN (pgThmT t) 0 off) 0xFFFFFFFF)

def cycles (t : Nat) (s : State) : State :=
  match workingDiodes s t with
  | [] => s
  | l =>
    let v := l.foldl Nat.max 0
    let p := s.tileP t
    let lo := Nat.min v (p.trough.getD v)
    match p.peak with
    | none =>
      if lo + 200 ≤ v then s.modTile t fun x => { x with trough := some lo, peak := some v }
      else s.modTile t fun x => { x with trough := some lo }
    | some k =>
      if k < v then s.modTile t fun x => { x with peak := some v }
      else if v + 200 ≤ k then
        countCycle t (k - p.trough.getD 0) (s.modTile t fun x => { x with trough := some v, peak := none })
      else s

/-! ### Coolant (R369-R372) -/

/-- Q_full in units of 1/50,000 of 0.1 L/min. -/
def qFull (s : State) (tin : Nat) : Nat :=
  let base := if tin ≤ 300 then 1800 else if tin ≤ 350 then 1800 + 4 * (tin - 300) else 2000 + 8 * (tin - 350)
  base * (10000 + 48 * s.fld pgThmG 0 0x108 16 5)

def qNom (s : State) : Nat := s.fld pgThmG 0 0x108 0 12
/-- Sum and number of the flow samples of the last 100 ms. -/
def flowSum (s : State) : Nat := s.pwr.flows.foldl (fun n x => n + x.2) 0
def flowN (s : State) : Nat := s.pwr.flows.length

/-- Q below a percentage of Q_nom; Q below Q_full. -/
def qBelow (s : State) (pct : Nat) : Bool := decide (100 * flowSum s < pct * qNom s * flowN s)
def qShort (s : State) : Bool := decide (flowSum s * 50000 < qFull s s.pwr.tin * flowN s)
def coolCap (s : State) : Nat :=
  if qShort s then 27000 * (flowSum s * 50000) / (qFull s s.pwr.tin * flowN s) else 27000

def setCool (st : Nat) (s : State) : State := (s.setFld pgThmG 0 0x10C 0 3 st).modPwr fun p => { p with okSince := none }
def setCoolCap (w : Nat) (s : State) : State := s.setFld pgThmG 0 0x10C 16 16 w
def coolLoc (s : State) (flow : Nat) : Nat := flow % 2 ^ 12 + s.pwr.tin % 2 ^ 11 * 2 ^ 16
def coolData (s : State) (flow : Nat) : BitVec 128 := pack [(0, flow), (2, s.pwr.tin)]

def livePartsList (s : State) : List Nat := (s.parts.filter fun e => decide (e.2.ps ≠ .unloaded) && decide (e.2.ps ≠ .lost)).map (·.1)

def stopWinter (s : State) : State := (List.range tiles).foldl (fun u t => if 0 < (u.tileP t).heaters then setHeaters t 0 u else u) s

/-- R371, time 0: orderly shutdown. -/
def orderly (flow : Nat) (s : State) : State :=
  let s1 := (setCool 3 s).err pgThmG 2 0x5062 (coolLoc s flow) (coolData s flow)
  let s2 := (s.cores.map (·.1)).foldl (fun u x => u.modIsl x fun i => { i with tcap := 0 }) (stopWinter s1)
  (livePartsList s).foldl (fun u p => setHolder p 1 u) (s2.modPwr fun p => { p with shutAt := some s.now })

/-- R372: sudden stop; every partition ends, every move is abandoned. -/
def suddenStop (flow : Nat) (s : State) : State :=
  let s1 := (setCool 4 (gateAll s)).err pgThmG 3 0x5063 (coolLoc s flow) (coolData s flow)
  let s2 := (livePartsList s).foldl (fun u p => endPartition p u) s1
  (stopWinter s2).modPwr fun p => { p with
    railOff := allTiles, shutAt := none, tile := SMap.mapAll p.tile fun _ x => { x with heat := if x.heat = 1 then 0 else x.heat } }

/-- A sudden condition of R370 in a sample. -/
def sudden (s : State) (flow : Nat) (before : List (Nat × Nat)) : Bool :=
  decide (100 * flow < 25 * qNom s) || s.fld pgThmG 0 0x104 24 1 = 1 ||
    decide (2 * flow < before.foldl (fun m x => Nat.max m x.2) 0)

/-- What lets ALARM and DERATE return, and since when (R370). -/
def fine (s : State) : Bool := !qBelow s 90 && decide (150 ≤ s.pwr.tin) && decide (s.pwr.tin ≤ 400)

def coolNext (flow : Nat) (s : State) : State :=
  let st := coolState s
  let back := if st = 2 then !qShort s else fine s
  let s1 := s.modPwr fun p => { p with okSince := since back s.now p.okSince }
  let returned := lasted s1.pwr.okSince s.now sec
  if st ≤ 2 ∧ (qBelow s 50 = true ∨ lasted s.pwr.hotSince s.now (10 * sec) = true) then orderly flow s1
  else if st ≤ 1 ∧ qShort s = true then
    stopWinter (setCoolCap (coolCap s) ((setCool 2 s1).err pgThmG 1 0x5061 (coolLoc s flow) (coolData s flow)))
  else if st = 0 ∧ fine s = false then (setCool 1 s1).err pgThmG 0 0x5060 (coolLoc s flow) (coolData s flow)
  else if st = 1 ∧ returned = true then (setCool 0 s1).modBlk pgThmG fun b => b.clearErr 1
  else if st = 2 then
    (if returned then setCoolCap 27000 ((setCool 1 s1).modBlk pgThmG fun b => b.clearErr 2) else setCoolCap (coolCap s) s1)
  else s1

def coolantSample (flow dp inlet outlet : Nat) (s : State) : State :=
  let before := s.pwr.flows.filter fun x => decide (s.now < x.1 + 100 * ms)
  let s1 := s.modPwr fun p => { p with
    flows := before ++ [(s.now, flow)], tin := inlet, tout := outlet, hotSince := since (decide (450 < inlet)) s.now p.hotSince }
  let q := flowSum s1 / flowN s1
  let s2 := (s1.setRegN pgThmG 0 0x100 (inlet % 2 ^ 11 + outlet % 2 ^ 11 * 2 ^ 16)).setRegN pgThmG 0 0x104
    (Nat.min q 0xFFF + Nat.min dp 0xFFF * 2 ^ 12 + s.fld pgThmG 0 0x104 24 1 * 2 ^ 24)
  if coolState s2 = 4 then s2
  else if sudden s2 flow before then suddenStop flow s2
  else coolNext flow s2

/-- R371: 1.5 s, or every partition PAUSED: partitions end, rails go off. -/
def shutdownOver (s : State) : State :=
  match s.pwr.shutAt with
  | none => s
  | some t0 =>
    let l := livePartsList s
    if t0 + 1500 * ms ≤ s.now ∨ (l.all fun p => (s.part p).ps = .paused) = true then
      (l.foldl (fun u p => endPartition p u) s).modPwr fun p => { p with shutAt := none, railOff := allTiles }
    else s

def coolFail (s : State) : State :=
  let s1 := s.setFld pgThmG 0 0x104 24 1 1
  if coolState s = 4 then s1 else suddenStop (s.fld pgThmG 0 0x104 0 12) s1

/-! ### Recalibration (R373) -/

def recalReq (t : Nat) (s : State) : State :=
  let s1 := (setHeaters t 0 s).setFld (pgThmT t) 0 0x160 1 1 1
  let s2 := (tileSites t).foldl (fun u x => if (u.core x).on then u.modCore x fun c => { c with gated := true } else u) s1
  s2.modTile t fun p => { p with recalAt := some s.now }

def recalDiode (t sum : Nat) (s : State) (x : Nat × Nat) : State :=
  let v := x.1
  let far := decide (12 * v + 360 < sum) || decide (sum + 360 < 12 * v)
  (s.setFld (pgThmT t) 0 (diodeOff x.2) 0 11 (Nat.min v 0x7FF)).setFld (pgThmT t) 0 (diodeOff x.2) 11 1 (if far then 1 else 0)

def recalRo (t : Nat) (s : State) (x : Nat × Nat) : State :=
  let site := siteOf t x.2
  let d := coverDiode site
  let s1 := if diodeFailed s t d then s.modIsl site fun i => { i with ro := x.1 }
    else
      let o : Int := (diodeTemp s t d : Int) - x.1
      let bad := decide (80 < o) || decide (o < -80)
      s.modIsl site fun i => { i with ro := x.1, ofs := if bad then i.ofs else o, roFail := bad }
  s1.modIsl site fun i => { i with model := protective s1 site * 100 }

/-- Steps 2 to 4: twelve diode readings, the 144 raw ring-oscillator readings of the tile; the constants are refined in the ledger,
which keeps the tile's ageing estimate of the same measurement (17 R418). -/
def recalTile (t : Nat) (diodes ros : List Nat) (s : State) : State :=
  let s1 := ros.zipIdx.foldl (recalRo t) (diodes.zipIdx.foldl (recalDiode t (diodes.foldl (· + ·) 0)) s)
  { s1 with
    led := { s1.led with recals := SMap.upd s1.led.recals 0 t (· + 1), ageing := SMap.put s1.led.ageing t (Config.drift t s1.free) }
    free := s1.free + 1 }

/-- R373 after 50 ms. -/
def recalDone (t : Nat) (diodes ros : List Nat) (s : State) : State :=
  match (s.tileP t).recalAt with
  | none => s
  | some t0 =>
    if t0 + 50 * ms ≤ s.now then
      ((recalTile t diodes ros s).setFld (pgThmT t) 0 0x160 1 1 0).modTile t fun p => { p with recalAt := none }
    else s

/-! ### The governor period -/

/-- Diodes of a tile dark for heat at or below target - 20 degrees (R364). -/
def coolWatch (t : Nat) (s : State) : State :=
  if (s.tileP t).heat = 2 then
    let cool := (workingDiodes s t).all fun v => decide ((v : Int) * 100 ≤ targetC s - 20000)
    s.modTile t fun p => { p with coolAt := since cool s.now p.coolAt }
  else s

/-- A setpoint written in the period before is in effect now (14 R341). -/
def railPeriod (t : Nat) (s : State) : State := s.modTile t fun p => { p with rail := s.fld (pgPwrT t) 0 0x110 0 10 }

def tilePeriod (s : State) (t : Nat) : State :=
  tileStat t (setpoint t (coolWatch t (cycles t (winter t (throttle t (forecast t (sliceDue t (railPeriod t s))))))))

/-- Power and thermal pages whose committed set applies now (02 R42). -/
def pwrPages : List Nat := [pgPwrG, pgThmG] ++ (List.range tiles).map pgPwrT ++ (List.range tiles).map pgThmT

def governor (islands : List IslSample) (diodes : List DiodeSample) (s : State) : State :=
  let s1 := pwrPages.foldl (fun t pg => if running t pg then applyPage pg t else t) s
  let s2 := untrip (compareAll (sampleIn islands diodes s1))
  powerCap ((List.range tiles).foldl tilePeriod s2)

/-- THM_SITE_D0 and D1: the snapshot of a site (THM_SITE_SEL). -/
def thmSnap (t : Nat) (s : State) : State :=
  let x := siteOf t (s.fld (pgThmT t) 0 0x140 0 8)
  let i := s.isl x
  let b (c : Bool) (k : Nat) : Nat := if c then 2 ^ k else 0
  let d0 := (roTemp i).toNat % 2 ^ 11 + b i.roFail 11 + b i.disagree 12 + (i.fcst / 1000).toNat % 256 * 2 ^ 16 + i.tcap * 2 ^ 24 +
    b i.heater 28 + b i.tripped 29 + 2 ^ 31
  (s.setRegN (pgThmT t) 0 0x144 d0).setRegN (pgThmT t) 0 0x148 ((i.model / 100).toNat % 2 ^ 11 + coverDiode x * 2 ^ 16)

end Sys2Proof.Machine
end

