-- ==== Sys2Proof/Machine/BarOps.lean ====
section
/-! DEFINITION. Accesses to the BARs: which region answers, reads of every width, doorbells, MSI-X (02 R29-R32, R47,
R48, R462, 20 R455-R456). -/

namespace Sys2Proof.Machine

/-- The BAR and offset lie in the device's address space: BAR0 256 MiB, BAR2 8 MiB, BAR4 64 KiB (R29). -/
def barOk (bar off : Nat) : Bool := (decide (bar = 2) && decide (off < 2 ^ 23)) || (decide (bar = 0) && decide (off < 2 ^ 28)) || (decide (bar = 4) && decide (off < 2 ^ 16))

/-- An offset of a mailbox: BAR4 0x2000 to 0x5FFF (R32). -/
def isMbx (bar off : Nat) : Bool := decide (bar = 4) && decide (0x2000 ≤ off) && decide (off < 0x6000)
def isMsixTab (bar off : Nat) : Bool := decide (bar = 4) && decide (0x8000 ≤ off)
def isPba (bar off : Nat) : Bool := decide (bar = 4) && decide (0x7000 ≤ off) && decide (off < 0x7100)

/-- The page of an access, none in BAR2. -/
def accessPage (bar off : Nat) : Option (PKind × Nat) := if bar = 2 then none else pageInfo (pageOfAccess bar off)

/-- The region responds to an agent: block pages from their stage, the rest of BAR4 from stage 1, the rest of BAR0 from
stage 4 (R29, R30). -/
def regionLive (s : State) (ag bar off : Nat) : Bool :=
  match accessPage bar off with
  | some _ => pageLive s ag (pageOfAccess bar off)
  | none => ag == agAmp || decide ((if bar = 4 then 1 else 4) ≤ stageReach s)

/-! ### MSI-X table and pending bits (R462) -/

/-- Release a pending message when neither mask holds the vector. -/
def msixRelease (s : State) (v : Nat) : State :=
  if SMap.get s.host.msixPend false v && !msixHeld s v then
    (s.modHost fun h => { h with msixPend := SMap.set h.msixPend false v false }).emit (.msix v (s.msixEntry v))
  else s

/-- An aligned 4- or 8-byte write to the table at byte `off`. -/
def msixWrite (off n : Nat) (v : W64) (s : State) : State :=
  if (n = 4 ∨ n = 8) ∧ off % n = 0 ∧ off + n ≤ 0x8000 then
    let i := off / 16
    let e := putBits (s.msixEntry i).toNat (8 * (off % 16)) (8 * n) v.toNat
    msixRelease (s.modHost fun h => { h with msixTab := SMap.set h.msixTab msixReset i (BitVec.ofNat 128 e) }) i
  else s

def msixFunctionMask (m : Bool) (s : State) : State :=
  (s.host.msixPend.map (·.1)).foldl msixRelease (s.modHost fun h => { h with msixFMask := m })

/-- A word of BAR4 outside the block pages and mailboxes. -/
def bar4Word (s : State) (off : Nat) : W32 :=
  if isMsixTab 4 off then BitVec.ofNat 32 (bitsOf (s.msixEntry ((off - 0x8000) / 16)).toNat (8 * (off % 16)) 32)
  else if isPba 4 off then
    BitVec.ofNat 32 ((List.range 32).foldl (fun a b =>
      a + (if SMap.get s.host.msixPend false (8 * (off - 0x7000) + b) then 2 ^ b else 0)) 0)
  else 0

/-! ### Doorbells (R31, 03 R63) -/

/-- A discarded doorbell write: its ring and a saturating count in GLB_DB_STRAY. -/
def dbStray (ring : Nat) (s : State) : State :=
  s.setRegN pgGlob 0 0x118 (ring % 2 ^ 20 + satInc (s.fld pgGlob 0 0x118 20 11) 0x7FF * 2 ^ 20)

/-- The index of a doorbell: a producer of a submission ring, a consumer of the other kinds. -/
def doorbell (r ix : Nat) (s : State) : State :=
  match s.openRing? r with
  | none => dbStray r s
  | some g =>
    if dKind g.desc = 0 then
      let d := idxSub ix g.prod
      if d = 0 then s else if ringSize g.desc < g.used + d then dbStray r s else s.modRing r fun x => { x with prod := ix }
    else
      let d := idxSub ix g.cons
      if d = 0 then s else if g.used < d then dbStray r s else s.modRing r fun x => { x with cons := ix }

def doorbellWrite (off n : Nat) (v : W64) (s : State) : State :=
  if stageReach s < 4 then dropEarly s
  else if (n = 8 ∨ n = 4) ∧ off % 8 = 0 then doorbell (off / 8) (bitsOf v.toNat 0 24) s
  else dbStray (off / 8) s

/-! ### Reads -/

/-- What an aligned word reads as, without effects. -/
def peekWord (s : State) (ag bar off : Nat) : W32 :=
  if isMbx bar off then mbxPeek s ag ((off - 0x2000) / 0x100) (off % 0x100)
  else match accessPage bar off with
    | some _ => readWord s (pageOfAccess bar off) (off % 4096)
    | none => if bar = 4 then bar4Word s off else 0

/-- An aligned 4-byte read with its effects. -/
def readAt (ag bar off : Nat) (s : State) : W32 × State :=
  if isMbx bar off then
    (peekWord s ag bar off, if off % 0x100 < 0x40 then mbxTook ag ((off - 0x2000) / 0x100) (off % 0x100 / 4) s else s)
  else match accessPage bar off with
    | some _ => readReg32 ag (pageOfAccess bar off) (off % 4096) s
    | none => (peekWord s ag bar off, s)

/-- A read before its region responds returns all-ones (R30). -/
def earlyRead (ag n : Nat) (s : State) : State := s.emit (.readData ag (2 ^ (8 * n) - 1))

/-- An aligned 4- or 8-byte read. -/
def readCmd (ag bar off n : Nat) (s : State) : State :=
  if regionLive s ag bar off then
    let r := readAt ag bar off s
    if n = 8 then
      let q := readAt ag bar (off + 4) r.2
      q.2.emit (.readData ag (r.1.toNat + 2 ^ 32 * q.1.toNat))
    else r.2.emit (.readData ag r.1.toNat)
  else earlyRead ag n s

/-- A read of 1 or 2 bytes, or an unaligned one: the bytes as their registers read, with no effect (R48). One of a
mailbox's data by its receiver has none either: it sets no read_started and does not empty the mailbox, though R52 names
no width (DESIGN CHOICE, notes/assumptions/69.md). -/
def narrowRead (ag bar off n : Nat) (s : State) : State :=
  if regionLive s ag bar off then
    let byte (i : Nat) : Nat := bitsOf (peekWord s ag bar ((off + i) / 4 * 4)).toNat (8 * ((off + i) % 4)) 8
    s.emit (.readData ag ((List.range n).foldl (fun a i => a + byte i * 2 ^ (8 * i)) 0))
  else earlyRead ag n s

end Sys2Proof.Machine
end

