-- ==== Sys2Proof/Machine/FamBlock.lean ====
section
/-! DEFINITION. The commands of register access and block control (02 R29-R48, 20 R455-R456). -/

namespace Sys2Proof.Machine

def widthOk (n : Nat) : Bool := n = 1 || n = 2 || n = 4 || n = 8

/-- An aligned read of 4 or 8 bytes (R47). -/
def execReg64LowRead (ag bar off n : Nat) (s : State) : Res :=
  act (agentOk ag && barOk bar (off + n - 1) && ((decide (n = 4) || decide (n = 8)) && decide (off % n = 0))) (readCmd ag bar off n) s
/-- A 4-byte read of a register with RC fields (00 R11). -/
def execRcRead (ag bar off : Nat) (s : State) : Res :=
  act (agentOk ag && barOk bar (off + 3) && decide (off % 4 = 0)) (readCmd ag bar off 4) s
def execNarrowOrUnalignedRead (ag bar off n : Nat) (s : State) : Res :=
  act (agentOk ag && barOk bar (off + n - 1) && widthOk n) (narrowRead ag bar off n) s

/-- A host access to a region that does not respond yet, BAR2 from stage 4 (R30). -/
def earlyAccess (bar off : Nat) (write : Bool) (s : State) : State :=
  if regionLive s agHost bar off then s else if write then dropEarly s else earlyRead agHost 4 s

def execEarlyAccessDrop (bar off : Nat) (write : Bool) (s : State) : Res :=
  act (barOk bar off) (earlyAccess bar off write) s

/-- No page, mailbox or MSI-X structure at the offset: 0, and no record of a write (20 R455, R462). -/
def unmapped (bar off : Nat) : Bool :=
  !isMbx bar off && !isMsixTab bar off && !isPba bar off && decide (bar ≠ 2) && (accessPage bar off).isNone

def execUnmappedOffsetAccess (bar off : Nat) (write : Bool) (s : State) : Res :=
  act (barOk bar off) (when (unmapped bar off) fun t =>
    if write then (if regionLive t agHost bar off then t else dropEarly t)
    else if regionLive t agHost bar off then t.emit (.readData agHost 0) else earlyRead agHost 4 t) s

/-! ### BLK_CTRL -/

def pageOk (pg : Nat) : Bool := (pageInfo pg).isSome

def execRun (ag pg : Nat) (s : State) : Res := act (agentOk ag && pageOk pg) (ctrlCmd ag pg 1) s
def execStopReq (ag pg : Nat) (s : State) : Res := act (agentOk ag && pageOk pg) (ctrlCmd ag pg 2) s
def execPartReset (ag pg : Nat) (s : State) : Res := act (agentOk ag && pageOk pg) (ctrlCmd ag pg 4) s
def execCommit (ag pg : Nat) (s : State) : Res := act (agentOk ag && pageOk pg) (ctrlCmd ag pg 8) s
def execLock (ag pg : Nat) (s : State) : Res := act (agentOk ag && pageOk pg) (ctrlCmd ag pg (2 ^ 31)) s

def execBlockInitDone (pg : Nat) (s : State) : Res := act (pageOk pg) (initDone pg) s
def execBlockDrainDone (pg : Nat) (s : State) : Res := act (pageOk pg) (blockDrain pg) s
def execCommittedSetApply (pg : Nat) (s : State) : Res := act (pageOk pg) (setApply pg) s
def execBlockFault (pg bit code : Nat) (loc : W64) (data : BitVec 128) (s : State) : Res :=
  act (pageOk pg && decide (bit < 31) && decide (code < 2 ^ 16)) (when (active s pg) (blockFault pg bit code loc.toNat data)) s
def execBlockWatchdog (pg : Nat) (s : State) : Res := act (pageOk pg) (blockWatchdog pg) s
def execBlockFence (pg : Nat) (s : State) : Res := act (pageOk pg) (blockFence pg) s
def execBlockFenceRelease (pg : Nat) (s : State) : Res := act (pageOk pg) (fenceRelease pg) s
def execBlockRecovery (pg : Nat) (s : State) : Res := act (pageOk pg) (recover pg) s
def execErrStatClear (ag pg : Nat) (v : W32) (s : State) : Res :=
  act (agentOk ag && pageOk pg) (fun t => if pageLive t ag pg then hdrWrite ag pg 0x010 v t
    else if ag = agHost then dropEarly t else t) s
def execCfgRejectClear (ag pg : Nat) (s : State) : Res :=
  act (agentOk ag && pageOk pg) (fun t => if pageLive t ag pg then hdrWrite ag pg 0x028 0x80000000#32 t
    else if ag = agHost then dropEarly t else t) s

end Sys2Proof.Machine
end

