-- ==== Sys2Proof/Machine/FamEmc.lean ====
section
/-! DEFINITION. The commands of edge memory and of the T2 window (11). -/

namespace Sys2Proof.Machine

/-- The code that stops the read of a word of a Steward table or of a spill object, whose data unit carries the metadata
of the Steward's own last write: an empty slot, or what the code finds (R285). -/
def ownCode (s : State) (owner slot : Nat) (errs : List SymErr) : Option Nat :=
  if (keySlot s owner slot).key = none then some 0x7020
  else if 2 ≤ metaFlips errs 8 then some 0x2011
  else if (List.range 8).any fun w => sc256 (errsOf errs w) = .uncorrectable then some 0x2010
  else none

/-- Read such a word: count, or report to the consumer. -/
def ownRead (owner slot unit req : Nat) (errs : List SymErr) (bad : Nat → State → State) (s : State) : State :=
  match ownCode s owner slot errs with
  | some c => bad c (emcErr (256 * unit) req c s (if c = 0x7020 then 1 else unitUe errs 0))
  | none => (s.bump (t1Page (256 * unit)) 0 0x18C).bump (t1Page (256 * unit)) 0 0x180 (unitCe errs 0)

/-- A page-table entry that cannot be read: the page is lost (06 R165). -/
def pageMetaUe (p pg code : Nat) (s : State) : State :=
  (losePages p [pg] s).err pgKv 2 code (pg + p * 2 ^ 32) 0 true

/-- A prefix-tree node that cannot be read: it goes with its subtree; ERR_LOC is the address in edge memory (03 R96, R102). -/
def nodeUe (id code addr : Nat) (s : State) : State :=
  let nodes := killNodes (s.serv.nodes.length + 1) (fun k _ => k = id) s.serv.nodes
  ({ s with serv := { s.serv with nodes := nodes } }).err pgServ 3 code addr 0 true

/-- A handle-table entry that cannot be read: R285 points to R96, which speaks of nodes. The model releases the handle as
PREFIX_RELEASE does: stale, its references dropped, its generation raised (DESIGN CHOICE, notes/assumptions/80.md). -/
def handleUe (idx code addr : Nat) (s : State) : State := (releaseHandle idx s).err pgServ 3 code addr 0 true

/-- What a read of a table word or of a moving object decides when it fails with a code at a data unit (R285). -/
def t1Consumer (use : T1Use) (unit code : Nat) (s : State) : State :=
  match use with
  | .data .. => s
  | .pageTable p pg => pageMetaUe p pg code s
  | .node id => nodeUe id code (256 * unit) s
  | .handle idx => handleUe idx code (256 * unit) s
  | .tree p sl => treeUe p sl code s
  | .move i => match (s.sess i).obj with
    | some o => if (s.sess i).st = .t1 ∧ o.moving = true then releaseSess i true s else s
    | none => s

def t1ReadCmd (use : T1Use) (unit : Nat) (errs : List SymErr) (s : State) : State :=
  match use with
  | .data owner slot req =>
    match readUnit { owner := owner, slot := slot, req := req } unit errs 0 s with
    | (.ok b, t) => t.emit (.hdmData (256 * unit) b)
    | (.error _, t) => t
  | .move i =>
    let k := keySlot s 1 (s.sess i).tenant
    -- the object's data units carry the generation of its spill (R278, R290)
    if k.key.isSome ∧ (s.sess i).obj.any (fun o => o.gen ≠ k.gen) then t1Consumer use unit 0x7021 (emcErr (256 * unit) 3 0x7021 s)
    else ownRead 1 (s.sess i).tenant unit 3 errs (t1Consumer use unit) s
  | _ => ownRead 3 0 unit 2 errs (t1Consumer use unit) s

def execT1Read (use : T1Use) (unit : Nat) (errs : List SymErr) (s : State) : Res :=
  act (decide (256 * unit < t1Bytes)) (t1ReadCmd use unit errs) s

def execT1Write (owner slot content session req addr : Nat) (data : List Byte) (s : State) : Res :=
  act (decide (owner < 4) && decide (addr + data.length ≤ t1Bytes) && decide (req < 7)) (fun t =>
    let x : Access := { owner := owner, slot := slot, req := req, content := content, session := session }
    -- a write of the host itself needs no snoop; any other writer's does (02 R23)
    if req = 0 then (t1Write x addr data t).2 else devWrite (tagT1 req) x addr data t) s

/-! ### Refresh, patrol, grants -/


/-- REFRESH (R276, R284): a refresh command; a committed set of the controller's page applies. `hot` that the devices
report a temperature above 85 °C. -/
def refresh (n : Nat) (hot : Bool) (s : State) : State :=
  let pg := pgEmc n
  if s.fld pg 0 0x100 0 1 = 0 then s
  else
    let s1 := (s.bump pg 0 0x198).setFld pg 0 0x100 1 1 (if hot then 1 else 0)
    let s2 := if (s.blk pg).st = .running ∧ (s.blk pg).commit.isSome then applyCommit pg s1 else s1
    if s2.fld pg 0 0x110 0 8 = 0 then s2.setFld pg 0 0x100 2 1 0 else s2

def execRefresh (n : Nat) (hot : Bool) (s : State) : Res := act (decide (n < 48)) (refresh n hot) s

def groupsPerChannel : Nat := 16777216

/-- What the patrol finds wrong in a unit (R285): raised, and the location is sent to the ledger. -/
def patrolErr (addr code n : Nat) (s : State) : State := (emcErr addr 6 code s n).enterFault (.t1 addr) code

/-- The time that a patrol of `h` hours gives each group of a channel (R286). -/
def groupTime (h : Nat) : Nat := h * 3600 * sec / groupsPerChannel

/-- Patrol of one group (R286): the code, not the owner; corrected words are rewritten as they were
corrected, another is left as it is and raises its event. A group is read when its share of the period has gone by; a pass is complete
with the last group. -/
def t1Patrol (n : Nat) (errs : List SymErr) (s : State) : State :=
  let pg := pgEmc n
  let h := s.fld pg 0 0x110 0 8
  let last := SMap.find s.mem.scrubAt n
  if s.fld pg 0 0x100 0 1 = 0 then s
  else if h = 0 then s.setFld pg 0 0x100 2 1 0
  else if last.any fun t => decide (s.now < t + groupTime h) then s
  else
    let grp := if last.isNone then 0 else (s.fld pg 0 0x114 0 24 + 1) % groupsPerChannel
    let end_ := grp + 1 = groupsPerChannel
    let passes := s.fld pg 0 0x114 24 8 + if end_ then 1 else 0
    let s0 : State := { s with mem := { s.mem with scrubAt := SMap.put s.mem.scrubAt n s.now } }
    let s1 := (s0.setRegN pg 0 0x114 (grp + passes % 256 * 2 ^ 24)).setFld pg 0 0x100 2 1 (if end_ then 0 else 1)
    (List.range 8).foldl (fun t u =>
      let a := (grp * 48 + n) * 2048 + 256 * u
      let t1 := (t.bump pg 0 0x18C).bump pg 0 0x180 (unitCe errs u)
      let bad := ((List.range 8).filter fun w => sc256 (errsOf errs (9 * u + w)) = .uncorrectable).length
      let t2 := if 2 ≤ metaFlips errs (9 * u + 8) then patrolErr a 0x2011 1 t1 else t1
      let t3 := if bad = 0 then t2 else patrolErr a 0x2010 bad t2
      if errs = [] then t3
      else { t3 with mem := { t3.mem with t1 := Mem.write t3.mem.t1 a (deliver256 (Mem.read t3.mem.t1 a 256) errs u) } }) s1

def execT1PatrolScrub (n : Nat) (errs : List SymErr) (s : State) : Res := act (decide (n < 48)) (t1Patrol n errs) s

/-- A grant of `ns` by a requester (7 refresh): EMC_MAXHOLD, and R283's report. -/
def emcHold (n req ns : Nat) (s : State) : State :=
  let pg := pgEmc n
  let c := Nat.min ns 0xFFFFFF
  let s1 := if s.fld pg 0 0x10C 0 24 < c then s.setRegN pg 0 0x10C (c + req * 2 ^ 24 + 2 ^ 31) else s
  let lim := s.fld pg 0 0x108 0 24
  if lim ≠ 0 ∧ lim < ns then
    (s1.bump pg 0 0x1A0).raiseFrom pg agAmp 0x2031 (pack [(0, n), (2, req)])
  else s1

def execEmcHoldWatchdog (n req ns : Nat) (s : State) : Res :=
  act (decide (n < 48) && decide (req < 8)) (emcHold n req ns) s

/-! ### The T2 window (R295-R298) -/

def t2Size (s : State) : Nat := s.fld pgMap 0 0x118 0 13
/-- Extents of a window: 65,536 in each GiB. -/
def t2Enable (s : State) : State :=
  if s.fld pgMap 0 0x11C 0 2 = 0 then (s.setFld pgMap 0 0x11C 0 1 1).setRegN pgMap 0 0x120 (65536 * t2Size s) else s

def execT2Enable (ag : Nat) (s : State) : Res := act (agentOk ag) (regCmd ag pgMap 0x11C 1 t2Enable) s

/-- Writes to T2 in progress: moves of SPILLED_T1 objects, spills that went to T2. -/
def t2Writing (v : Session) : Bool := match v.obj with
  | some o => (decide (v.st = .t1) && o.moving) || (decide (v.st = .spilling) && decide (o.tier = 2))
  | none => false

/-- Clearing enable (R298): draining; writes in progress are abandoned, their sessions' KV released as where the window
has no room (R296). -/
def t2Disable (s : State) : State :=
  if s.fld pgMap 0 0x11C 0 1 = 1 then
    let s1 := (s.setFld pgMap 0 0x11C 0 1 0).setFld pgMap 0 0x11C 1 1 1
    s1.serv.sess.foldl (fun t e => if t2Writing (t.sess e.1) then releaseSess e.1 true t else t) s1
  else s

def execT2Disable (ag : Nat) (s : State) : Res := act (agentOk ag) (regCmd ag pgMap 0x11C 0 t2Disable) s

/-- A session's copy leaves T2 with the window: a session whose only KV it is goes RELEASED; one that has its pages keeps them,
and a spill under way begins anew (notes/assumptions/67.md). -/
def t2Leave (i : Nat) (s : State) : State :=
  let v := s.sess i
  if v.st = .active then dropObj i s
  else if v.st = .t2 ∨ holdsAny s v.part i = false then releaseSess i true s
  else if v.st = .spilling then spillNew i (dropObj i s)
  else dropObj i s

/-- Draining ends once no restore reads T2: every SPILLED_T2 session becomes RELEASED. -/
def t2DrainDone (s : State) : State :=
  let restoring := s.serv.reqs.any fun e => e.2.rst && (match (s.sess e.2.session).obj with
    | some o => decide (o.tier = 2)
    | none => false)
  if s.fld pgMap 0 0x11C 1 1 = 1 ∧ restoring = false then
    let s1 := s.serv.sess.foldl (fun t e => match (t.sess e.1).obj with
      | some o => if o.tier = 2 then t2Leave e.1 t else t
      | none => t) s
    (s1.setFld pgMap 0 0x11C 1 1 0).setRegN pgMap 0 0x120 0
  else s

def execT2DrainDone (s : State) : Res := run t2DrainDone s

/-! ### Key slots -/

/-- EMC_KEY_STAT after a query: loaded, done, generation. -/
def keyStat (s : State) : State :=
  let k := keySlot s (s.fld pgMap 0 0x130 12 2) (s.fld pgMap 0 0x130 0 12)
  s.setRegN pgMap 0 0x134 ((if k.key.isSome then 1 else 0) + 2 + k.gen * 2 ^ 16)

def execKeyQuery (ag : Nat) (v : W32) (s : State) : Res := act (agentOk ag) (regStore ag pgMap 0x130 v.toNat keyStat) s

end Sys2Proof.Machine
end

