-- ==== Sys2Proof/Machine/FamFabric.lean ====
section
/-! DEFINITION. The fabric instructions of a core and the commands of the mesh (10). -/

namespace Sys2Proof.Machine

/-! ### Instructions (R258, R259) -/

/-- An address in g[a]: site, element, counter; none for coordinates that name no site. -/
structure FabAddr where
  dst : Nat
  elem : Nat
  ctr : Nat
  deriving DecidableEq, Repr

def fabAddr (v : W64) : Option FabAddr :=
  let n := v.toNat
  let x := bitsOf n 0 7
  let y := bitsOf n 7 7
  if x = 0x7F ∧ y = 0x7F then some ⟨steward, bitsOf n 14 20, bitsOf n 34 5⟩
  else if x < 108 ∧ y < 96 then some ⟨siteAt x y, bitsOf n 14 20, bitsOf n 34 5⟩ else none

/-- Payloads of a region, 32 bytes each, and packets of at most 64 of them. -/
def payloads (c : Core) (d : W64) : List (List Byte) := (rElems d).map fun e => Mem.read c.spad (32 * e) 32
def chunks64 : (fuel : Nat) → List (List Byte) → List (List (List Byte))
  | 0, _ => []
  | n + 1, l => if l.isEmpty then [] else l.take 64 :: chunks64 n (l.drop 64)

/-- The packets of a region: the element address advances, the last packet names the counter. -/
def regionPackets (c : Core) (d : W64) (t : Flit) : List (Flit × List (List Byte)) :=
  let l := payloads c d
  let ps := chunks64 l.length l
  ps.zipIdx.map fun e => ({ t with elem := t.elem + 64 * e.2, cnt := decide (e.2 + 1 = ps.length) }, e.1)

/-- A region send: its conditions before and after the region's own, the packets it puts into the mesh. -/
def regionSend (site op : Nat) (w : BitVec 56) (ecc : Ecc) (pre post : State → Nat → List Chk)
    (tmpl : State → Nat → Flit) (put : Flit → List (List Byte) → State → State) (s : State) : Res :=
  insnAct site op w (fun i t =>
    let c := t.core site
    let d := c.greg (fD i)
    issueWith site i ecc (pre t i ++ [⟨rBad d, 0x1003, some (rRange d), 0⟩, needEntries c 1 (rRange d)] ++ post t i)
      [(rRange d, false)] (fun u =>
      retire site ((u.core site).pc + 8) (countOperand site (rElems d)
        ((regionPackets c d (tmpl u i)).foldl (fun v e => put e.1 e.2 v) u))) t) s

def baseFlit (site vc : Nat) : Flit := { pid := 0, idx := 0, len := 0, vc := vc, src := site, dst := site, loc := site }

/-- An address that SEND (`stewardOk` false) or CSEND does not accept. -/
def addrBad (a : Option FabAddr) (stewardOk : Bool) : Bool := match a with
  | none => true
  | some x => !stewardOk && decide (x.dst = steward)

/-- A packet to one destination. -/
def sendTo (t : Flit) (pls : List (List Byte)) (s : State) : State := sendKept [t.dst] t pls s

def execISend (site : Nat) (w : BitVec 56) (ecc : Ecc) (s : State) : Res :=
  regionSend site 0x90 w ecc (fun t i => [⟨addrBad (fabAddr ((t.core site).greg (fA i))) false, 0x1002, none, 0⟩])
    (fun _ _ => [])
    (fun t i => match fabAddr ((t.core site).greg (fA i)) with
      | some a => { baseFlit site 4 with dst := a.dst, elem := a.elem, ctr := a.ctr }
      | none => baseFlit site 4)
    sendTo s

/-- FSEND: the flow's source entry at the core's router (R259, R261); a flow marked mcast takes its descriptor's tree. -/
def execIFsend (site : Nat) (w : BitVec 56) (ecc : Ecc) (s : State) : Res :=
  regionSend site 0x91 w ecc (fun _ _ => []) (fun t i =>
      let e := tabEntry t site 0 (fImm i % 1024)
      [⟨!(bitAt e 0 && bitAt e 1) || decide (bitsOf e 32 64 = 0), 0x1006, some (rRange ((t.core site).greg (fD i))), 0⟩])
    (fun t i =>
      let f := fImm i % 1024
      let e := tabEntry t site 0 f
      { baseFlit site 1 with
        dst := if bitAt e 3 then treeBase + f else siteAt (bitsOf e 12 7) (bitsOf e 19 7)
        elem := ((t.core site).greg (fA i)).toNat % 2 ^ 20, id := f })
    (fun f pls u =>
      if isMcast f then
        let dsc := bitsOf (tabEntry u site 0 f.id) 4 8
        let owed := members u dsc (tabEntry u site 2 dsc)
        if owed = [] then addPacket f pls u else sendKept owed f pls u
      else sendTo f pls u) s

def execIMsend (site : Nat) (w : BitVec 56) (ecc : Ecc) (s : State) : Res :=
  regionSend site 0x92 w ecc (fun _ _ => []) (fun _ _ => [])
    (fun t i =>
      let a := ((t.core site).greg (fA i)).toNat
      { baseFlit site 3 with elem := bitsOf a 0 20, ctr := bitsOf a 20 5, id := fImm i % 256 })
    addPacket s

/-- RSEND: one contribution of exactly the reduction's length (R259, R266). -/
def execIRsend (site : Nat) (w : BitVec 56) (ecc : Ecc) (s : State) : Res :=
  insnAct site 0x93 w (fun i t =>
    let c := t.core site
    let d := c.greg (fD i)
    let id := fImm i % 256
    let e := tabEntry t site 1 id
    let r := some (rRange d)
    issueWith site i ecc
      [⟨rBad d, 0x1003, r, 0⟩, needEntries c 1 (rRange d),
       ⟨!bitAt e 0 || !bitAt e 5 || decide (rBytes d ≠ 32 * (bitsOf e 10 6 + 1)), 0x1007, r, 0⟩]
      [(rRange d, false)] (fun u =>
      let k := redKey site id
      let n := SMap.get u.fab.contrib 0 k
      let u1 := u.modFab fun m => { m with contrib := SMap.set m.contrib 0 k ((n + 1) % 16) }
      retire site ((u.core site).pc + 8) (countOperand site (rElems d)
        (addPacket { baseFlit site 2 with id := id, round := n } (payloads c d) u1))) t) s

/-- CSEND: one flit on VC0; with the barrier flag only from the stage's leader, the partition filled in by the router
(R255, R259). -/
def execICsend (site : Nat) (w : BitVec 56) (ecc : Ecc) (s : State) : Res :=
  insnAct site 0x94 w (fun i t =>
    let c := t.core site
    let a := fabAddr (c.greg (fA i))
    let bar := bitAt (fMod i) 0
    issueWith site i ecc [⟨addrBad a true || (bar && decide (leaderSite t site ≠ site)), 0x1002, none, 0⟩] [] (fun u =>
      let pl := (((c.vec (fD i)).take 8).map fun x => leBytes 4 x.toNat).flatten
      let pl1 := if bar then (pl.take 31) ++ (pl.drop 31).map (fun b => b &&& 0x7F#8) else pl
      match a with
      | none => u
      | some x => retire site (c.pc + 8) (addPacket
          { baseFlit site 0 with dst := x.dst, elem := x.elem, ctr := x.ctr, cnt := !bar, barrier := bar,
                                 kind := if bar then .eqxArrive else .data, id := if bar then bitsOf (routerCfg u site) 14 4 else 0 } [pl1] u)) t) s

def execICntadd (site : Nat) (w : BitVec 56) (ecc : Ecc) (s : State) : Res :=
  simple site 0x95 w ecc [] (fun i c =>
    { c with inb := SMap.upd c.inb 0 (fImm i % 32) fun v => v + (c.greg (fA i)).truncate 32 }) s
def execICntrd (site : Nat) (w : BitVec 56) (ecc : Ecc) (s : State) : Res :=
  simple site 0x96 w ecc [] (fun i c => c.setG (fD i) ((SMap.get c.inb 0 (fImm i % 32)).signExtend 64)) s

/-- What FFENCE waits for: unacknowledged packets of VC1 and VC4, flits of VC0, VC2 and VC3 still in the core's port. -/
def ffenceClear (s : State) (site : Nat) : Bool :=
  (s.fab.kept.all fun e => decide (e.1 / (16384 * 8) ≠ site) || e.2.isEmpty) &&
  !(s.fab.flits.any fun f => f.loc = site && f.src = site && f.inp = 4 && (decide (f.kind = .data) || decide (f.kind = .eqxArrive)) &&
      (f.vc = 0 || f.vc = 2 || f.vc = 3))

def execIFfence (site : Nat) (w : BitVec 56) (ecc : Ecc) (s : State) : Res :=
  insnAct site 0x97 w (fun i t => issueWith site i ecc [] [] (fun u =>
    if ffenceClear u site then retire site ((u.core site).pc + 8) u else u) t) s

/-! ### The mesh -/

def siteOk (site : Nat) : Bool := decide (site < sites)

def execLinkReplay (site port : Nat) (s : State) : Res := act (siteOk site && decide (port < 4)) (linkReplay site port) s
/-- What the Steward does with a message that has left the mesh on its edge link: the arrivals of an EQX_ARRIVE's mask, the stage
and step of a STEP_DONE (R255, 04 R117, R121). -/
def stewardTakes (f : Flit) (s : State) : State :=
  if f.kind = .eqxArrive then
    ((List.range 255).filter fun g => bitAt (leNat f.data) g).foldl (fun t g => eqxArrive f.id g t) s
  else if f.kind = .stepDone then stepDone f.id (leNat (f.data.take 4)) (leNat ((f.data.drop 4).take 4)) s
  else s

/-- FLIT_FORWARD; what leaves the mesh for the Steward reaches it. -/
def forward (site port slot : Nat) (ue : Bool) (s : State) : State :=
  let t := flitForward site port slot ue s
  if site = stewardSite ∧ port = edgePort site ∧ ue = false then
    (s.fab.flits.filter fun f => f.dst = steward && !t.fab.flits.contains f).foldl (fun u f => stewardTakes f u) t
  else t

def execFlitForward (site port slot : Nat) (ue : Bool) (s : State) : Res :=
  act (siteOk site && decide (port < 4) && decide (slot < 64)) (forward site port slot ue) s
def execPacketDelivery (site : Inbound) (s : State) : Res := act (siteOk site.site) (packetDelivery site.site site.ue) s
def execMcastFlit (site : Nat) (s : State) : Res := act (siteOk site) (mcastFlit site) s
def execRedFlitArrive (site : Nat) (s : State) : Res := act (siteOk site) (redFlitArrive site) s
def execRedRoundTimeout (site id : Nat) (s : State) : Res := act (siteOk site && decide (id < 256)) (redTimeout site id) s
def execStepIncomplete (site : Nat) (s : State) : Res := act (siteOk site) (stepIncomplete site) s
def execE2eAck (site : Nat) (s : State) : Res := act (siteOk site) (e2eAck site) s
def execE2eRetryTimer (site dst vc : Nat) (s : State) : Res :=
  act (siteOk site && siteOk dst && decide (vc = 1 ∨ vc = 4)) (e2eRetry site dst vc) s
def execLinkDead (site port : Nat) (s : State) : Res := act (siteOk site && decide (port < 4)) (linkSilent site port) s

/-! ### Table commands (R272) -/

/-- The selected router, table and entry of a fabric page; none where FAB_TSEL names none. -/
def tabSel (s : State) (t : Nat) : Option (Nat × Nat × Nat) :=
  let r := s.fld (pgFab t) 0 0x110 0 8
  let k := s.fld (pgFab t) 0 0x110 8 4
  let e := s.fld (pgFab t) 0 0x110 12 10
  if r < 144 ∧ e < tabSize k then some (siteOf t r, k, e) else none

/-- A discarded table command: reason 3, FAB_TSTAT.err. -/
def tabRefuse (t : Nat) (s : State) : State :=
  (s.reject (pgFab t) 0x124 Cls.l.code 3).setFld (pgFab t) 0 0x128 1 1 1

def tabRead (t : Nat) (s : State) : State :=
  match tabSel s t with
  | none => tabRefuse t s
  | some (site, k, e) =>
    let v := tabEntry s site k e
    (List.range 4).foldl (fun u j => u.setRegN (pgFab t) 0 (0x114 + 4 * j) (v / 2 ^ (32 * j))) s

/-- AMP-owned bits of table 5: [43:38]. -/
def ampBits (v : Nat) : Nat := bitsOf v 38 6

/-- The entry that FAB_TDATA0-3 hold. -/
def tabData (s : State) (t : Nat) : Nat := fourWords fun j => s.regN (pgFab t) 0 (0x114 + 4 * j)

/-- A table write that is discarded: no such entry, or an entry or field that the AMP owns. -/
def tabWriteRefused (ag t : Nat) (s : State) : Bool :=
  match tabSel s t with
  | none => true
  | some (site, k, e) => decide (ag ≠ agAmp) &&
      (decide (k = 4) || decide (k = 6) || (decide (k = 5) && decide (ampBits (tabData s t) ≠ ampBits (tabShadow s site k e))))

def tabWrite (ag t : Nat) (s : State) : State :=
  if tabWriteRefused ag t s then tabRefuse t s
  else match tabSel s t with
    | none => s
    | some (site, k, e) => setTabShadow site k e (tabData s t) s

def execFabTableRead (ag tile : Nat) (s : State) : Res :=
  act (agentOk ag && decide (tile < tiles)) (regCmd ag (pgFab tile) 0x124 1 (tabRead tile)) s
def execFabTableWrite (ag tile : Nat) (s : State) : Res :=
  act (agentOk ag && decide (tile < tiles)) (regCmd ag (pgFab tile) 0x124 2 (tabWrite ag tile)) s

end Sys2Proof.Machine
end

