-- ==== Sys2Proof/Machine/FamHost.lean ====
section
/-! DEFINITION. The commands of the host attachment: resets from the host, CXL.cache and CXL.mem, PTM, doorbells and
MSI-X (02 R17-R33). -/

namespace Sys2Proof.Machine

/-! ### Resets from the host (R27) -/

/-- Messages and claims of the host: a claim it holds ends, its words are gone (R27). -/
def Mbx.unclaim (ag : Nat) (b : Mbx) : Mbx :=
  if b.claimed && decide (b.holder = ag) then { b with claimed := false, data := List.replicate 16 0 } else b

def dropHostClaims (s : State) : State :=
  s.modMbx fun x => { x with box := SMap.mapAll x.box fun _ b => b.unclaim agHost }

/-- What every reset in R27 does: MSI-X state, host doorbells and masks, claims, DOE state, IDE keys; the cache is written
back; the Steward takes it as a host detach (R28). -/
def hostReset (s : State) : State :=
  let s1 := (hostDetach (cacheFlush s)).modHost fun h => { h with
    msixTab := [], msixPend := [], msixFMask := false, doeBusy := false, ideIo := none, ideCm := none, ptmValid := false }
  let s2 : State := { s1 with mg := { s1.mg with
      conns := SMap.del s1.mg.conns 0, sess := s1.mg.sess.filter fun x => x.tr ≠ 0, ideProg := [] } }
  dropHostClaims ((s2.setReg pgHostDb 0 0x100 0).setReg pgHostDb 0 0x104 0xFFFFFFFF#32)

/-- CXL Reset: the HDM decoder is uncommitted; with Mem Clr the HDM range is zeroed. The spec does not say what becomes of
device writes that wait for a back-invalidation response: the reset ends the host's hold of every line, and such writes
are dropped with the rings that asked for them, which the detach closes (DESIGN CHOICE, notes/assumptions/66.md). -/
def cxlReset (memClr : Bool) (s : State) : State :=
  let s1 := (hostReset s).modHost fun h => { h with decCommitted := false, decLocked := false, decBase := 0, hostHeld := [], bisnp := [] }
  if memClr then s1.modMem fun m => { m with
    t1 := SMap.keep m.t1 fun k _ => decide (hdmBytes s ≤ k)
    metas := SMap.keep m.metas fun k _ => decide (hdmBytes s ≤ 256 * k)
    junk := cutRanges 0 (hdmBytes s) m.junk }
  else s1

def execFlr (s : State) : Res := run hostReset s
/-- The link goes down and retrains; configuration requests are retried until 100 ms after. -/
def execConventionalReset (s : State) : Res :=
  run (fun t => ((hostReset t).modHost fun h => { h with trained := false, flit256 := false, crsUntil := t.now + 100 * ms }).setFld
    pgGlob 0 0x104 0 8 0) s
def execCxlReset (memClr : Bool) (s : State) : Res := run (cxlReset memClr) s

/-! ### CXL.cache (R20) -/

/-- Answer a host snoop. Response codes are CXL's: 0 RspIHitI, 1 RspSHitSE, 2 RspIHitSE, 3 RspSFwdM, 4 RspIFwdM, 5 RspVHitV,
6 RspVFwdV (notes/assumptions/43.md). -/
def snoop (line : Nat) (op : Snoop) (s : State) : State :=
  match SMap.find s.host.cache line with
  | none => s.emit (.snoopRsp line 0 [])
  | some c =>
    let keep (x : CLine) (t : State) : State := t.modHost fun h => { h with cache := SMap.put h.cache line x }
    let gone (t : State) : State := t.modHost fun h => { h with cache := SMap.del h.cache line }
    match op with
    | .data => if c.dirty then keep { c with dirty := false, excl := false } (s.emit (.snoopRsp line 3 c.data))
               else keep { c with excl := false } (s.emit (.snoopRsp line 1 []))
    | .inv => if c.dirty then gone (s.emit (.snoopRsp line 4 c.data)) else gone (s.emit (.snoopRsp line 2 []))
    | .cur => if c.dirty then s.emit (.snoopRsp line 6 c.data) else s.emit (.snoopRsp line 5 [])

def execH2dSnoop (line : Nat) (op : Snoop) (s : State) : Res := run (snoop line op) s

/-! ### CXL.mem (R22-R24, 18 R436) -/

/-- The range is decoded: committed, in 256-byte flit mode. -/
def memDecodes (s : State) (addr : Nat) : Bool := decide (addr % 64 = 0) && decide (addr + 64 ≤ hdmSize s)
def memOn (s : State) : Bool := bitAt (viewWord s pgGlob .glob 0 0 0x104).get!.toNat 10

/-- An access before CXL.mem is back after a wafer reset: all-ones, AER, event 0x6005. -/
def memEarly (addr : Nat) (read : Bool) (s : State) : State :=
  let s1 := (s.emit (.aer addr)).raise pgGlob 0x6005 (pack [(0, addr)])
  if read then s1.emit (.hdmData addr (List.replicate 64 0xFF#8)) else s1

/-- A host read of a line: a word that cannot be corrected gives all-ones, the header log and AER (R24). -/
def hdmRead (addr : Nat) (errs : List SymErr) (s : State) : State :=
  if stageNow s < 4 then memEarly addr true s
  else if memOn s then
    match t1Read { owner := 0, req := 0 } addr 64 errs s with
    | (.ok b, t) => (t.modHost fun h => { h with
        hostHeld := if h.hostHeld.contains (addr / 64) then h.hostHeld else h.hostHeld ++ [addr / 64] }).emit (.hdmData addr b)
    | (.error _, t) => (((t.modHost fun h => { h with rasLog := BitVec.ofNat 64 addr, aerUnc := true }).emit (.aer addr))).emit
        (.hdmData addr (List.replicate 64 0xFF#8))
  else s

def execHdmRead (addr : Nat) (errs : List SymErr) (s : State) : Res := act (memDecodes s addr) (hdmRead addr errs) s

def hdmWrite (addr : Nat) (data : List Byte) (s : State) : State :=
  if stageNow s < 4 then memEarly addr false s
  else if memOn s then (t1Write { owner := 0, req := 0 } addr data s).2
  else s

def execHdmWrite (addr : Nat) (data : List Byte) (s : State) : Res :=
  act (memDecodes s addr && decide (data.length = 64)) (hdmWrite addr data) s

/-- A snoop response: the host no longer holds the line; what waited for no other line, nor behind an earlier write of the
same writer, takes effect, in order (R23, 03 R64). -/
def bisnpDone (line : Nat) (s : State) : State :=
  drainPend (s.modHost fun h => { h with hostHeld := h.hostHeld.filter fun l => l ≠ line })

def execBisnpResponse (line : Nat) (s : State) : Res := run (bisnpDone line) s

/-- The host commits the decoder, from stage 4; a locked one stays (R18). -/
def decoderCommit (base : Nat) (lockOn : Bool) (s : State) : State :=
  if stageNow s < 4 ∨ 6 < stageNow s ∨ (s.host.decCommitted && s.host.decLocked) = true then s
  else s.modHost fun h => { h with decCommitted := true, decBase := base, decLocked := lockOn }

def execHdmDecoderCommit (base : Nat) (lockOn : Bool) (s : State) : Res := run (decoderCommit base lockOn) s

def execHdmCfgWrite (ag : Nat) (v : W32) (s : State) : Res :=
  act (agentOk ag) (regStore ag pgGlob 0x108 v.toNat id) s

/-! ### PTM (R26) -/

def ptmDialogue (host : W64) (s : State) : State :=
  if s.fld pgGlob 0 0x10C 0 1 = 1 ∧ s.host.ptmNext ≤ s.now then
    (s.setReg64 pgGlob 0 0x110 (host - BitVec.ofNat 64 s.now).toNat).modHost fun h => { h with
      ptmValid := true, ptmNext := s.now + s.fld pgGlob 0 0x10C 4 12 * ms }
  else s

def execPtmDialogue (hostTime : W64) (s : State) : Res := run (ptmDialogue hostTime) s

/-! ### Doorbells (R31) -/

def execDoorbellWrite (off n : Nat) (v : W64) (s : State) : Res :=
  act (decide (off < 2 ^ 23) && widthOk n) (doorbellWrite off n v) s

/-! ### MSI-X (R462) -/

def execMsixTableWrite (off n : Nat) (v : W64) (s : State) : Res :=
  act (decide (off < 0x8000) && widthOk n) (fun t => if 1 ≤ stageReach t then msixWrite off n v t else dropEarly t) s
def execMsixFunctionMaskWrite (mask : Bool) (s : State) : Res := run (msixFunctionMask mask) s

end Sys2Proof.Machine
end

