-- ==== Sys2Proof/Machine/MgmtOps.lean ====
section
/-! DEFINITION. The management plane's shared operations (17 R400-R410, 19 R447): the AMP's mode, crash records, the alarm
pin, firmware slots and the boot, updates. -/

namespace Sys2Proof.Machine

def State.modMg (s : State) (f : MgmtSt → MgmtSt) : State := { s with mg := f s.mg }

/-- The AMP runs its firmware: what only it does is held while it does not (01 R16). -/
def ampUp (s : State) : Bool := s.mg.amp = .up

/-! ### Crash records (R410) -/

/-- ERR_FIRST, ERR_INFO and ERR_LOC of the global, fault, power and thermal pages. -/
def errWords (s : State) : List Nat :=
  ([pgGlob, pgFault, pgPwrG, pgThmG].map fun pg =>
    let b := s.blk pg
    [b.errFirst.toNat, b.errInfo.toNat, b.errLoc.toNat]).flatten

/-- Write a crash record, the newest of the 64 in rotation. Causes: 1 AMP watchdog, 2 wafer watchdog, 3 orderly shutdown,
4 sudden stop, 5 rail fault, 6 boot failure, 7 12V_AUX failure (notes/assumptions/50.md). -/
def crashRecord (cause : Nat) (s : State) : State :=
  let r : CrashRec := { cause := cause, time := s.now, ready := s.regN pgGlob 0 0x100, errs := errWords s, last := s.led.recent }
  s.modMg fun m => { m with crash := (r :: m.crash).take 64, crashN := m.crashN + 1 }

/-! ### ALARM_N (19 R447) -/

def alarmDue (s : State) : Bool :=
  decide (3 ≤ coolState s) || decide (stageNow s = 15) || decide (s.mg.amp = .recovery) || s.fld pgMgmt 0 0x100 2 1 = 1 || s.mg.tamper

/-- The AMP drives ALARM_N (pin 0) as R447 says. -/
def alarmPin (s : State) : State :=
  if alarmDue s = s.mg.alarmLow then s
  else (s.modMg fun m => { m with alarmLow := alarmDue s }).emit (.pin 0 (!alarmDue s))

/-! ### Revocation fuses, slots and the boot (R401-R403) -/

/-- SEC_REVOKE is the home of the fuses. -/
def fuses (s : State) : Nat := s.fld pgSec 0 0x104 0 16

def otherSlot (x : Nat) : Nat := 1 - x
def Pkg.key (g : Pkg) (i : Nat) : Nat := g.keys.getD i 0
def Pkg.verifies (g : Pkg) (i : Nat) : Bool := g.good.getD i false

/-- What the ROM finds in a slot: 0 it boots, 0x7001 refused, 0x7003 a revoked key; 0x7004 another component fails
(R403 steps 2 and 4). -/
def keyRefused (s : State) (g : Pkg) (i : Nat) : Bool := !bitAt s.mg.manifestKeys (g.key i) || bitAt (fuses s) (g.key i)

def slotCode (s : State) (x : Nat) : Nat :=
  match SMap.find s.mg.slots x with
  | none => 0x7001
  | some g =>
    if bitAt (fuses s) (g.key 0) then 0x7003
    else if keyRefused s g 0 || !g.verifies 0 then 0x7001
    else if [1, 2, 3].any fun i => keyRefused s g i || !g.verifies i then 0x7004
    else 0

/-- A refusal is recorded: ERR bit 0 and SEC_BOOT_STAT.fail_code, the last code of R403. -/
def bootFail (code slot : Nat) (s : State) : State :=
  (s.setFld pgSec 0 0x100 16 16 code).err pgSec 0 code slot (pack [(0, slot)])

/-- A slot boots: what runs, its signing key, the fallback bits; a package new in its slot activates (event 0x4071), with its
revocation list where the root key signed that, but never for the key that signed it (R402). -/
def runSlot (x : Nat) (fell : Bool) (s : State) : State :=
  let g := (SMap.find s.mg.slots x).getD {}
  let b (c : Bool) : Nat := if c then 1 else 0
  let s1 := (s.setFld pgSec 0 0x100 0 7 (x + b fell * 2 + g.key 0 % 16 * 8)).setFld pgMgmt 0 0x100 0 3 (x + b fell * 2)
  let s2 := s1.modMg fun m => { m with amp := .up, running := x, fresh := false }
  if s.mg.fresh && decide (x = s.mg.active) then
    let own := g.keys.foldl (fun a k => a ||| 2 ^ k) 0
    let blow := if g.rooted then g.revoke &&& (own ^^^ 0xFFFF) else 0
    (s2.setFld pgSec 0 0x104 0 16 (fuses s ||| blow)).raise pgMgmt 0x4071 (pack [(0, x)])
  else s2

/-- The ROM's boot: the active slot, the other once; none leaves recovery (R403). -/
def romBoot (s : State) : State :=
  let a := s.mg.active
  let c1 := if s.mg.manifestOk then slotCode s a else 0x7001
  if c1 = 0 then runSlot a false s
  else
    let s1 := bootFail c1 a s
    let o := otherSlot a
    let c2 := if s.mg.manifestOk then slotCode s o else 0x7001
    if c2 = 0 then runSlot o true s1
    else
      let s2 := bootFail 0x7002 o (bootFail c2 o s1)
      (((s2.setFld pgSec 0 0x100 2 1 1).setFld pgMgmt 0 0x100 2 1 1).modMg fun m => { m with amp := .recovery, reached := stageReach s }).setRegN pgGlob 0 0x100
        (15 + 0x7002 * 2 ^ 16)

/-- The AMP stops and starts again from its ROM: SPDM connections and sessions of its firmware and an unfinished update go
with it (notes/assumptions/51.md). -/
def ampRestart (s : State) : State :=
  s.modMg fun m => { m with amp := .rom, conns := [], sess := [], updating := false, upload := none, cmds := [], armedAt := none }

/-! ### Updates (R404) -/

/-- Mailbox answers in mailbox 0: 0 accepted, 1 busy, 2 refused (notes/assumptions/52.md). -/
def mailAnswer (code : Nat) (data : List Nat) (s : State) : State := s.emit (.mail 0 code data)

/-- The slot that does not run, or in recovery is not marked active. -/
def inactive (s : State) : Nat := otherSlot (if ampUp s then s.mg.running else s.mg.active)

def slotBytes24 : Nat := 24 * 2 ^ 20

/-- A package into the inactive slot; where every component verifies, the slot is marked active for the next restart. -/
def writePackage (g : Pkg) (s : State) : State :=
  let o := inactive s
  let s1 := s.modMg fun m => { m with slots := SMap.put m.slots o g, updating := false, upload := none }
  if slotCode s1 o = 0 then mailAnswer 0 [o] (s1.modMg fun m => { m with active := o, fresh := true })
  else mailAnswer 2 [slotCode s1 o] s1

/-- A transfer ends after 10 s without a block. -/
def uploadOpen (s : State) : Bool := match s.mg.upload with
  | some u => decide (s.now < u.last + 10 * sec)
  | none => false

def updBusy (s : State) : Bool := s.mg.updating || uploadOpen s

/-- By the host from stage 4: the package lies in the HDM range. -/
def update (off len : Nat) (g : Pkg) (s : State) : State :=
  if stageNow s < 4 ∨ 6 < stageNow s ∨ ampUp s = false then mailAnswer 2 [] s
  else if updBusy s then mailAnswer 1 [] s
  else if len = 0 ∨ slotBytes24 < len ∨ hdmSize s < off + len then mailAnswer 2 [] s
  else writePackage g s

/-- In recovery, or below stage 4. -/
def updateStart (len : Nat) (s : State) : State :=
  if s.mg.amp ≠ .recovery ∧ 4 ≤ stageNow s ∧ stageNow s ≠ 15 then mailAnswer 2 [] s
  else if updBusy s then mailAnswer 1 [] s
  else if len = 0 ∨ slotBytes24 < len then mailAnswer 2 [] s
  else mailAnswer 0 [] (s.modMg fun m => { m with upload := some { len := len, last := s.now } })

/-- The window's 2 KiB as it stands. -/
def winBytes (s : State) : List Byte :=
  ((List.range 512).map fun i => leBytes 4 (s.regN pgEarly 0 (0x800 + 4 * i))).flatten

def updateBlock (ix : Nat) (g : Pkg) (s : State) : State :=
  match s.mg.upload with
  | none => mailAnswer 2 [] s
  | some u =>
    if uploadOpen s = false ∨ ix ≠ u.next then mailAnswer 2 [ix] s
    else
      let d := u.data ++ winBytes s
      if u.len ≤ 2048 * (ix + 1) then writePackage g s
      else mailAnswer 0 [ix] (s.modMg fun m => { m with upload := some { u with next := ix + 1, last := s.now, data := d } })

def uploadTimeout (s : State) : State :=
  if s.mg.upload.isSome && !uploadOpen s then s.modMg fun m => { m with upload := none } else s

/-! ### Measurements (R406) -/

/-- Measurement `i`: 1 ROM, 6 manifest and fuses, else the running package's component. -/
def measurement (s : State) (i : Nat) : BitVec 256 :=
  if i = 1 then Config.measurement 1 0
  else if i = 6 then Config.measurement 6 (fuses s)
  else Config.measurement i ((SMap.find s.mg.slots s.mg.running).getD {}).id

/-- SEC_MEAS_D0-7 follow SEC_MEAS_SEL. -/
def measLoad (s : State) : State :=
  let v := (measurement s (s.fld pgSec 0 0x110 0 3)).toNat
  (List.range 8).foldl (fun t k => t.setRegN pgSec 0 (0x114 + 4 * k) (v / 2 ^ (32 * k))) s

end Sys2Proof.Machine
end

