-- ==== Sys2Proof/Machine/WaferOps.lean ====
section
/-! DEFINITION. Wafer resets and bring-up (18 R427-R436, R441, 19 R449). -/

namespace Sys2Proof.Machine

/-! ### Rails and failures of bring-up -/

/-- Compute rails off at once, whatever was due (14 R340). -/
def railsDown (s : State) : State := railOff (s.modPwr fun p => { p with railOff := allTiles })

/-- R430: stage 15, rails off, a crash record. -/
def bringFatal (code : Nat) (s : State) : State :=
  if waferBusy s then crashRecord 6 (railsDown ((s.setRegN pgGlob 0 0x100 (15 + code % 2 ^ 16 * 2 ^ 16)).modMg fun m => { m with reached := stageNow s })) else s

/-- A fatal condition raises its event and stops bring-up. -/
def bringFail (code : Nat) (s : State) : State := if waferBusy s then bringFatal code (s.raise pgGlob code) else s

/-- A coolant stop during bring-up fails it with the coolant code (R441). -/
def coolBring (s : State) : State :=
  if coolState s = 3 then bringFatal 0x5062 s else if coolState s = 4 then bringFatal 0x5063 s else s

/-- Stage 1 begins: the power assembly is looked at (19 R449). -/
def beginBring (s : State) : State :=
  let s2 := (s.setRegN pgGlob 0 0x100 (1 + (if s.mg.warm then 16 else 0))).modMg fun m => { m with stageAt := s.now }
  if s.mg.paPg && s.mg.paPrsnt then s2 else s2.raise pgPwrG 0x5084

/-! ### What a wafer reset clears (R433, R435) -/

/-- The calendar is the one register a wafer reset leaves (R435). -/
def waferKeeps (key : Nat) : Bool :=
  decide (key / 2 ^ 20 = pgMgmt) && decide (0x110 ≤ key % 2 ^ 12) && decide (key % 2 ^ 12 < 0x11C)

/-- A register word after a wafer reset: its reset value but for fields whose reset value is "ledger" or "fuse" (02 R36);
on the warm path the state of DARK and FUSED tiles and their caps stays (R435). -/
def waferWord (warm : Bool) (key : Nat) (v : W32) : W32 :=
  if waferKeeps key then v
  else match pageInfo (key / 2 ^ 20) with
    | none => keyReset key
    | some (k, _) =>
      if key % 2 ^ 12 < 0x100 then keyReset key
      else if warm && decide (k = .pwrT) && decide (key % 2 ^ 12 = 0x100) && decide (3 ≤ bitsOf v.toNat 0 3) then
        BitVec.ofNat 32 (putBits (keepBits k key v).toNat 0 3 (bitsOf v.toNat 0 3))
      else keepBits k key v

def waferRegs (warm : Bool) (s : State) : SMap W32 :=
  s.regs.foldl (fun m e => if 2 ^ 37 ≤ e.1 then m else SMap.set m (keyReset e.1) e.1 (waferWord warm e.1 e.2)) []

/-- Key slots empty, generations stay; a loaded slot's clear counts (11 R288, 17 R408). -/
def emptySlot (k : KeySlot) : KeySlot := if k.key.isSome then { key := none, gen := nextGen k.gen } else k
def emptySlots (m : SMap KeySlot) : SMap KeySlot := SMap.mapAll m fun _ k => emptySlot k

/-- The device key of a wafer reset: a new one, of the next generation. -/
def newDevKey (n : Nat) (k : KeySlot) : KeySlot := { key := some (Config.deviceKey n), gen := nextGen k.gen }

/-- Edge memory at a wafer reset: zeroed but for the HDM range on the warm path with its size unchanged (R435). The
rest is left unreachable by a warm reset: no metadata matches it. -/
def waferMem (warm : Bool) (s : State) : MemSt :=
  let size := s.fld pgGlob 0 0x108 0 9
  let keep := warm && decide (size = s.fld pgGlob 0 0x108 16 9) && !s.mg.t1Lost
  let lim := size * 2 ^ 30
  { t1 := if keep then SMap.keep s.mem.t1 fun k _ => decide (k < lim) else []
    metas := if keep then SMap.keep s.mem.metas fun k _ => decide (256 * k < lim) else []
    junk := if keep then cutRanges lim t1Bytes s.mem.junk else []
    tenantKeys := emptySlots s.mem.tenantKeys, ownerKeys := emptySlots s.mem.ownerKeys, devKey := newDevKey s.free s.mem.devKey }

/-- Islands: failed marks, offsets and the model's estimate stay until a recalibration (15 R361, R366, R373), at every reset. On the
warm path the caps of failed slices stay. -/
def waferIsl (i : Isl) : Isl := { roFail := i.roFail, ofs := i.ofs, model := i.model }
def waferTile (t : TileP) : TileP := { sliceCap := t.sliceCap, iso := t.iso }

def waferPwr (warm : Bool) (p : PwrSt) : PwrSt :=
  { isl := SMap.mapAll p.isl fun _ i => waferIsl i
    tile := if warm then SMap.mapAll p.tile fun _ t => waferTile t else []
    flows := p.flows, tin := p.tin, tout := p.tout }

/-- A mailbox emptied at a wafer reset (02 R55, 18 R435): its message, words, claim and withdrawn are gone. Its sticky status
bits, seq, stamp and settings stay: the rules say only "emptied, claims released" (DESIGN CHOICE, notes/assumptions/80.md). -/
def emptyBox (b : Mbx) : Mbx := { b with data := List.replicate 16 0, full := false, claimed := false, withdrawn := false }

/-- Mailboxes to the Steward are emptied and their claims released; those to the AMP where it restarts (R435). -/
def waferBoxes (ampToo : Bool) (s : State) : SMap Mbx :=
  SMap.mapAll s.mbx.box fun m b =>
    if receiverOf s m = 2 ∨ (ampToo = true ∧ receiverOf s m = 1) then emptyBox b else b

/-! ### Wafer resets -/

/-- What would be NORMAL or ALARM once the rails are up again (15 R370). -/
def coolGood (s : State) : Bool :=
  !qShort s && !qBelow s 50 && decide (s.pwr.tin ≤ 450) && s.fld pgThmG 0 0x104 24 1 = 0 && !s.pwr.flows.isEmpty

/-- STOPPED refuses a reset until then (R441); the AMP may ask at any other time (R437). -/
def coolAllows (s : State) : Bool := decide (coolState s ≠ 4) || coolGood s

/-- The state that a wafer reset leaves (R435): kind 1 warm, 2 cold; `rom` that the AMP restarts. -/
def waferClear (kind : Nat) (rom : Bool) (s : State) : State :=
  let warm := decide (kind = 1)
  let size := s.fld pgGlob 0 0x108 0 9
  let fr := s.fld pgMgmt 0 0x130 0 7
  let hot := s.host
  let s1 : State := { s with
    regs := waferRegs warm s, shadow := [], fresh := [], blocks := [], stage64 := [], snap64 := []
    paths := SMap.keep s.paths fun k _ => decide (k < 2)
    host := { hot with cache := [], hostHeld := [], bisnp := [], decCommitted := false, decLocked := false, decBase := 0 }
    mbx := { s.mbx with box := waferBoxes rom s, dbStw := 0, dbAmp := if rom then 0 else s.mbx.dbAmp }
    serv := {}, parts := [], spec := {}, kv := [], we := {}, mem := waferMem warm s, cores := [], led := { s.led with ceHour := [] }, fab := {}, mlk := {}
    pwr := waferPwr warm s.pwr, fr := { size := fr * 2 ^ 30 }, rp := {} }
  s1.setFld pgGlob 0 0x108 16 9 size

/-- RESET_STAT of a wafer reset: kind, cause, count. -/
def resetStat (kind cause count : Nat) (s : State) : State :=
  s.setRegN pgGlob 0 0x144 (kind + cause * 4 + Nat.min count 0xFFFF * 2 ^ 16)

/-- A wafer reset: kind 1 warm, 2 cold; cause 1 host, 2 BMC, 3 wafer watchdog, 4 Steward watchdog (R433). Its event and vector
precede it; the coherency cache is written back (R436). -/
def waferReset (kind cause : Nat) (rom : Bool) (s : State) : State :=
  if coolAllows s then
    let s1 := cacheFlush (s.raise pgGlob 0x4078 (pack [(0, kind), (1, cause)]))
    let link := s.fld pgGlob 0 0x104 0 8
    let s2 := (waferClear kind rom s1).setFld pgGlob 0 0x104 0 8 link
    let s3 := resetStat kind cause (s.fld pgGlob 0 0x144 16 16 + 1) s2.draw
    let keepStat := bitsOf (s.regN pgMgmt 0 0x100) 0 16
    let s4 := if rom then s3 else (s3.setFld pgMgmt 0 0x100 0 16 keepStat).setFld pgSec 0 0x100 0 16 (s.fld pgSec 0 0x100 0 16)
    let s5 := if kind = 2 then s4.setFld pgMgmt 0 0x100 3 9 0 else if rom then s4.setFld pgMgmt 0 0x100 3 9 (s.fld pgMgmt 0 0x100 3 9) else s4
    let s6 := s5.modMg fun m => { m with
      warm := decide (kind = 1), stwDead := false, dead := [], cmds := [], upload := none
      updating := false, armedAt := none }
    beginBring (if rom then ampRestart s6 else s6)
  else s.setFld pgGlob 0 0x144 6 1 1

/-- A reset that the coolant state forbids to every agent but the AMP. -/
def resetRefused (ag : Nat) (s : State) : Bool := decide (ag ≠ agAmp) && (decide (coolState s = 2) || decide (coolState s = 3))

/-- GLB_RESET written with its confirmation (R437): outside NORMAL and ALARM another agent's request is discarded; in
STOPPED it is refused. -/
def resetRequest (ag kind : Nat) (s : State) : State :=
  if resetRefused ag s then s.reject pgGlob 0x140 Cls.l.code 3
  else waferReset kind (if ag = agBmc then 2 else 1) (decide (kind = 2)) s

/-! ### Power-on (R433, 17 R400, 19 R450) -/

/-- Timebase restart: VAON came up without power (17 R400). -/
def tbRestart (s : State) : State :=
  (s.setFld pgMgmt 0 0x100 16 8 (satInc (s.fld pgMgmt 0 0x100 16 8) 0xFF)).err pgMgmt 1 0x4076

/-- What survives without power: fields whose reset value is "ledger" or "fuse", as the latest checkpoint has them where
only it holds them (the thermal-cycle bins, 17 R418). -/
def powerRegs (vaon : Bool) (s : State) : SMap W32 :=
  let bins (k : Nat) : Bool := decide (pgThmG < k / 2 ^ 20) && decide (k / 2 ^ 20 < 0x70D8) && decide (0x150 ≤ k % 2 ^ 12) && decide (k % 2 ^ 12 < 0x15C)
  let m := s.regs.foldl (fun m e =>
    if 2 ^ 37 ≤ e.1 ∨ bins e.1 = true then m
    else match pageInfo (e.1 / 2 ^ 20) with
      | none => m
      | some (k, _) =>
        let cal := vaon && decide (e.1 / 2 ^ 20 = pgMgmt) && decide (0x110 ≤ e.1 % 2 ^ 12) && decide (e.1 % 2 ^ 12 < 0x11C)
        SMap.set m (keyReset e.1) e.1 (if cal then e.2 else if e.1 % 2 ^ 12 < 0x100 then keyReset e.1 else keepBits k e.1 e.2)) []
  (s.led.ckpt.filter fun e => bins e.1).foldl (fun m e => SMap.set m (keyReset e.1) e.1 e.2) m

def genOnly (m : SMap KeySlot) : SMap KeySlot := SMap.mapAll m fun _ k => { (emptySlot k) with key := none }

/-- The ledger after power is applied at device time `now`: its intervals run from there. -/
def ledgerOn (now : Nat) (l : LedSt) : LedSt :=
  { l with recent := [], ceHour := [], ckptAt := now, ceHourAt := now, agedAt := now }

/-- Power is applied: everything but what flash, fuses and, where `vaon` says that it stayed up, VAON hold. -/
def powerOn (vaon i3c : Bool) (s : State) : State :=
  let m := s.mg
  let size := s.fld pgGlob 0 0x108 0 9
  let fr := s.fld pgMgmt 0 0x130 0 7
  let mem : MemSt := {
    tenantKeys := if vaon then genOnly s.mem.tenantKeys else [], ownerKeys := if vaon then genOnly s.mem.ownerKeys else []
    devKey := newDevKey s.free (if vaon then s.mem.devKey else {}) }
  let s1 : State := { State.reset with
    now := s.now, regs := powerRegs vaon s, mem := mem, fr := { size := fr * 2 ^ 30 }, led := ledgerOn (if vaon then s.now else 0) s.led
    mg := {
      amp := .rom, slots := m.slots, active := m.active, fresh := m.fresh, manifestOk := m.manifestOk
      manifestKeys := m.manifestKeys, operator := m.operator, crash := m.crash, crashN := m.crashN, i3c := i3c, paPg := m.paPg
      paPrsnt := m.paPrsnt, mainBad := m.mainBad, tamper := m.tamper, alarmLow := false, perst := m.perst }
    pwr := { isl := SMap.mapAll s.pwr.isl fun _ i => waferIsl { i with model := 0 } }
    b0 := s.b0, out := s.out, free := s.free + 1, pending := s.pending }
  let s2 := s1.setFld pgGlob 0 0x108 16 9 size
  let s3 := (resetStat 0 0 0 (if vaon then s2 else tbRestart { s2 with now := 0 })).raise pgGlob 0x4078 (pack [(0, 0), (1, 0)])
  beginBring (if m.auxBad then crashRecord 7 s3 else s3)

/-! ### The stages (R427-R434) -/

def setDeadLink (site d : Nat) (s : State) : State := setTab site 5 0 (routerCfg s site ||| 2 ^ (39 + d)) s

/-- The code of a fatal condition, if any. -/
def foundFatal : Found → Option Nat
  | .rail _ => some 0x5080
  | .noRef => some 0x5081
  | .channel _ => some 0x2050
  | _ => none

/-- A stage may find a condition only if it is one of its own. -/
def foundStage : Found → Nat
  | .rail _ => 2 | .noRef => 2 | .noLock _ => 2 | .link _ _ => 2 | .slice _ _ => 2 | .recal _ _ _ => 2
  | .rows _ => 3 | .channel _ => 3 | .core _ => 5 | .stored k _ => if k = 0 then 3 else if k = 1 then 2 else 4

def foundOk : Found → Bool
  | .rail r => decide (r < 92) | .noRef => true | .noLock t => decide (t < tiles)
  | .link x d => decide (x < sites) && decide (d < 4) | .slice t n => decide (t < tiles) && decide (n < 56)
  | .recal t d r => decide (t < tiles) && decide (d.length = 12) && decide (r.length = 144)
  | .rows x => decide (x < sites) | .channel n => decide (n < 48) | .core x => decide (x < sites)
  | .stored k n => decide (k < 3) && decide (n < 48)

/-- The warm path did not hold: the cold procedure runs for that part (R434). -/
def fallBack (s : State) : State :=
  if s.fld pgGlob 0 0x144 5 1 = 1 then s.setFld pgGlob 0 0x100 4 1 0
  else ((s.setFld pgGlob 0 0x144 5 1 1).setFld pgGlob 0 0x100 4 1 0).raise pgGlob 0x4079

/-- A condition that bring-up records and passes (R429). A warm bring-up runs no slice or SRAM self-test and no recalibration (R434). -/
def found (s : State) (f : Found) : State :=
  match f with
  | .noLock t => goDark t ((s.err (pgPwrT t) 5 0x5031 0 (pack [(0, t)])).enterFault (.tile t) 0x5031)
  | .link x d => (setDeadLink x d (s.enterFault (.link x d) 0x3010)).raise (fabPg x) 0x3010 (pack [(0, siteLocal x), (2, d)])
  | .slice t n => if s.mg.warm then s else sliceFail t n s
  | .recal t d r => if s.mg.warm then s else recalTile t d r s
  | .rows x => if s.mg.warm then s else (failSite x 0x2051 s).raise (pgCore x) 0x2051 (pack [(0, agCore x)])
  | .core x => (failSite x 0x1050 (s.modCore x fun c => { c with on := false })).raise (pgCore x) 0x1050 (pack [(0, agCore x)])
  | .stored _ _ => if s.mg.warm then fallBack s else s
  | _ => s

/-- The training results that a stage leaves in the ledger, under the running PHY code's package. -/
def phyId (s : State) : Nat := ((SMap.find s.mg.slots s.mg.running).getD {}).id
def trainUnits (stage : Nat) : List (Nat × Nat) :=
  if stage = 2 then [(1, 0)] else if stage = 3 then (List.range 48).map fun n => (0, n)
  else if stage = 4 then (List.range 16).map fun n => (2, n) else []

/-- A stored result that is missing or of another PHY training code makes a warm stage fall back (R434). -/
def storedOk (s : State) (u : Nat × Nat) : Bool := s.led.training.contains (u.1, u.2, phyId s)

def trained (stage : Nat) (s : State) : State :=
  let us := trainUnits stage
  let s1 := if s.mg.warm && !us.all (storedOk s) then fallBack s else s
  { s1 with led := { s1.led with
      training := (s1.led.training.filter fun e => !us.contains (e.1, e.2.1)) ++ us.map fun u => (u.1, u.2, phyId s) } }

/-- VMEM comes up on the power-good of VEDGE and VLINK, then VCORE on that of VMEM, at every tile that is not dark or fused (14
R340). -/
def railsUp (s : State) : State :=
  let s1 := if s.fld pgPwrG 0 0x100 1 2 = 3 then s.setFld pgPwrG 0 0x100 3 1 1 else s
  if s1.fld pgPwrG 0 0x100 3 1 = 1 then
    (allTiles.foldl (fun t k => if tileSt t k < 3 then railOn k t else t) s1).setFld pgPwrG 0 0x100 4 1 1
  else s1

/-- Stage 2's own work: isolated regions stay so (14 R354), rails in regulation, block limits read, dark tiles and dead links of the ledger kept out of the
routes on the warm path; on the cold path slices and tiles are tested again. -/
def stage2 (s : State) : State :=
  let s0 := s.led.faultList.foldl (fun t e => match e.loc with
    | .region k r => t.modTile k fun p => { p with iso := if p.iso.contains r then p.iso else p.iso ++ [r] }
    | _ => t) s
  let s1 := railsUp s0
  let s2 := ((List.range 18).foldl (fun t b => t.setFld pgPwrG b 0x114 16 12 (Config.blockLimit b % 4096)) s1).modFab fun m =>
    { m with detours := List.range tiles }
  if s.mg.warm then
    -- the failed slices that the ledger restores act again at the next governor period (14 R343)
    let again (t : State) (k : Nat) : State := match (List.range 56).find? (bitAt (t.reg64 (pgPwrT k) 0 0x108)) with
      | some n => t.modTile k fun p => { p with sliceDue := some n }
      | none => t
    let s3 := (List.range tiles).foldl (fun t k => if 3 ≤ tileSt t k then listTile k t else again t k) s2
    s3.led.faultList.foldl (fun t e => match e.loc with | .link x d => setDeadLink x d t | _ => t) s3
  else (List.range tiles).foldl (fun t k =>
    (((t.setReg64 (pgPwrT k) 0 0x108 0).setFld (pgPwrT k) 0 0x100 16 6 0).setFld (pgPwrT k) 0 0x100 8 1 0).modTile k fun p =>
      { p with sliceCap := 15 }) s2

/-- Extents of the Steward's 32 MiB of tree buffers (05 R140), a user of the pool (11 R280). -/
def treeExtents : Nat := 32 * 2 ^ 20 / 16384

/-- Extents of the Steward's other tables: 16 bytes for each frame that a wafer can hold (06 R161), 4 MiB for the handle table and
1 GiB for the prefix trees. Their sizes, and that they are taken at the reset, are the model's (DESIGN CHOICE,
notes/assumptions/82.md). -/
def tableExtents : Nat := 10368 + 256 + 65536

/-- Stage 3's own work: core islands on, clocks held, every element zero; every channel is trained (11 R276); the extent pool is
what is left of T1, and the Steward's tree buffers and tables take theirs. -/
def stage3 (s : State) : State :=
  let ok (x : Nat) : Bool := decide (siteKind s x < 2)
  let s1 : State := { s with cores := ((List.range sites).filter ok).map fun x => (x, { on := true, gated := true, lastRet := s.now }) }
  let total := (t1Bytes - poolBase s1) / 16384
  let s2 : State := { s1 with mg := { s1.mg with t1Lost := false }, mem := { s1.mem with ext := [], scrubAt := [] } }
  let s3 := (List.range 48).foldl (fun t n => t.setFld (pgEmc n) 0 0x100 0 1 1) s2
  takeExt .tables tableExtents (takeExt .trees treeExtents (setPoolFree (s3.setRegN pgMap 0 0x100 total) total))

/-- Stage 4 begins: every enabled port trains. -/
def portsTrain (s : State) : State :=
  (List.range 16).foldl (fun t p => if t.fld (pgPort p) 0 0x104 0 1 = 1 ∧ portSt t p = 0 then startTrain p t else t) s

/-- Whether a stage's work is done as far as the state shows it. -/
def stageReady (s : State) : Bool :=
  ampUp s && match stageNow s with
    | 1 => s.mg.paPg && s.mg.paPrsnt && s.host.trained
    | 4 => (List.range 16).all (fun p => portSt s p ≠ 1) || decide (s.mg.stageAt + 10 * sec ≤ s.now)
    | _ => true

def stageMs (n : Nat) (s : State) : State :=
  s.setFld pgGlob 0 (0x150 + 4 * (n - 1)) 0 24 (Nat.min ((s.now - s.mg.stageAt) / ms) 0xFFFFFF)

def nextStage (n : Nat) (s : State) : State :=
  ((stageMs n s).setFld pgGlob 0 0x100 0 4 (n + 1)).modMg fun m => { m with stageAt := s.now }

/-- A stage completes and the next begins, or the device is ready; or it found something fatal (R427-R430). -/
def stageDone (fs0 : List Found) (s : State) : State :=
  let n := stageNow s
  if waferBusy s && stageReady s then
    let fs := fs0.filter fun f => foundStage f = n
    match fs.findSome? foundFatal with
    | some c => bringFail c s
    | none =>
      if n = 3 ∧ s.mg.mainBad = true then bringFail 0x2050 s
      else if n = 4 ∧ s.host.flit256 = false then bringFail 0x6004 s
      else match n with
        | 1 => nextStage 1 ((s.setFld pgPwrG 0 0x100 1 1 1).setFld pgPwrG 0 0x100 2 1 1)
        | 2 => nextStage 2 (fs.foldl found (trained 2 (stage2 s)))
        | 3 => nextStage 3 (portsTrain (stage3 (fs.foldl found (trained 3 s))))
        | 4 => nextStage 4 (fs.foldl found (trained 4 s))
        | _ =>
          let s1 := fs.foldl found s
          let s2 := ((List.range tiles).filter (shortTile s1)).foldl (fun t k => t.raise (pgPwrT k) 0x1051 (pack [(0, k)])) s1
          (nextStage 5 s2).modMg fun m => { m with hbAt := s.now }
  else s

def stageLimits : List Nat := [0, 1, 15, 60, 30, 30]

def bringTimeout (s : State) : State :=
  if waferBusy s && decide (s.mg.stageAt + stageLimits.getD (stageNow s) 0 * sec < s.now) then bringFail 0x4080 s else s

/-- The AMP's watchdog in stages 2 to 5: stage 2 again, warm (R441). -/
def ampBring (s : State) : State :=
  if 2 ≤ stageNow s ∧ stageNow s ≤ 5 then
    (s.setRegN pgGlob 0 0x100 (2 + 16)).modMg fun m => { m with warm := true, stageAt := s.now }
  else s

end Sys2Proof.Machine
end

