-- ==== Sys2Proof/Machine/FaultOps.lean ====
section
/-! DEFINITION. Governor moves at a pause (04 R126, 14 R357, 15 R363, 16 R379), corrected-error rates (16 R378), the Steward's and
the AMP's watchdogs (16 R389-R391), tile and cluster resets (18 R437, R439), the module's inputs (19 R450). -/

namespace Sys2Proof.Machine

/-! ### Governor moves -/

/-- Move one healthy core to the first candidate that passes its test; false where there is none. -/
def moveCore (p c : Nat) (spares : Bool) (fails : List Nat) (s : State) : Bool × State :=
  match siteOfLogical s p c with
  | none => (true, s)
  | some old => match firstSite fails (candidates s p c old spares) s with
    | (some new, t) => (true, governorMove p c old new t)
    | (none, t) => (false, t)

def moveAll (p : Nat) (spares : Bool) (fails : List Nat) (l : List Nat) (s : State) : Bool × State :=
  l.foldl (fun r c => if r.1 then moveCore p c spares fails r.2 else r) (true, s)

/-- The AMP starts a relocation of a paused partition: RELOCATING (04 R124), with the Equinox that step 4 belongs to. R123 does
not say whether a relocation begun from PAUSED or DRAINING counts as an Equinox: the model counts it, under the next Equinox
number (DESIGN CHOICE, notes/assumptions/80.md). -/
def startReloc (p : Nat) (s : State) : State :=
  setPs p .relocating (s.modPart p fun q => { q with
    eqx := some { num := (q.eqxNum + 1) % 2 ^ 32, causes := q.causes, start := s.now, phase := 4 } })

/-- It is done: steps 5 to 8 follow (04 R124); a member of a span is paused again until its head releases it. -/
def endReloc (p : Nat) (s : State) : State :=
  match (s.part p).eqx with
  | none => s
  | some e =>
    let s1 := settleReserve p s
    if (s.part p).isMember then tellHolders p (setPs p .paused (s1.modPart p fun q => { q with eqx := none }))
    else eqxFinish p e s1

/-- Retirements (16 R379): the old site becomes kind 3; holder bit 2 clears. A core without a site stays. -/
def retireCores (p : Nat) (fails : List Nat) (s : State) : State :=
  let s1 := (s.part p).retireDue.foldl (fun t c =>
    let old := siteOfLogical t p c
    let r := moveCore p c true fails t
    match r.1, old with
    | true, some x => failSite x 0x2006 r.2
    | _, _ => r.2) (startReloc p s)
  endReloc p (s1.modPart p fun q => { q with retireDue := [], holders := if bitAt q.holders 2 then q.holders - 4 else q.holders })

/-- A tile that waits for its move: every bound core goes to the reserve tiles, then the tile is dark, or dark for heat;
without a site the partition ends, through RELOCATING (04 R124), or a move for heat is given up (14 R357, 15 R363). -/
def clearTile (p : Nat) (fails : List Nat) (s : State) (t : Nat) : State :=
  let mine := ((boundIn s t).filter fun b => b.1 = p).map fun b => b.2.1
  let r := moveAll p false fails mine s
  if tileSt s t = 2 then
    goDark t (match r.1, mine.find? fun c => decide ((siteOfLogical r.2 p c).map siteTile = some t) with
      | false, some c =>
        let old := (siteOfLogical r.2 p c).getD 0
        relocFail p ((relocReport p c old old 0 2 (startReloc p r.2)).err pgFault 0 0x402B (agCore old + p * 2 ^ 16) (pack [(0, c), (2, p)]))
      | _, _ => r.2)
  else if r.1 then goHeatDark t r.2
  else (r.2.modTile t fun x => { x with heat := 0, noMove := true }).err (pgThmT t) 4 0x5055 0 (pack [(0, t), (2, p)])

/-- The relocation service at a pause: moves that wait, not during a coolant shutdown (15 R371). -/
def pausedMoves (p : Nat) (fails : List Nat) (s : State) : State :=
  if 3 ≤ coolState s then s
  else
    -- moves of a tile first: they need the partition PAUSED, which a retirement may end
    let ts := (s.part p).tiles.filter (waitsMove s)
    let s1 := if ts = [] then s else settleReserve p (ts.foldl (clearTile p fails) s)
    if (s1.part p).retireDue = [] ∨ (s1.part p).ps ≠ .paused then (if ts = [] then s1 else clearHolder p 1 s1)
    else retireCores p fails (if ts = [] then s1 else s1.modPart p fun q =>
      { q with holders := if bitAt q.holders 1 then q.holders - 2 else q.holders })

/-- RELOCATION_DONE: step 4 of an Equinox with faults, or the governor moves of a paused partition; the service runs on the
AMP (16 R386, R390). -/
def relocDone (p : Nat) (fails bad : List Nat) (s : State) : State :=
  if ampUp s = false then s
  else match (s.part p).ps with
    | .relocating => relocation p fails bad s
    | .paused => pausedMoves p fails s
    | _ => s

/-! ### Corrected errors (R378) -/

/-- A core's sample: growth above ce_limit raises 0x2001, once a minute at most, and goes to the ledger. -/
def ceSample (site : Nat) (s : State) : State :=
  let n := s.regN (pgCore site) 0 0x210
  let c := s.core site
  let grown := (n + 2 ^ 32 - c.ceMark) % 2 ^ 32
  let limit := s.fld pgFault 0 0x104 16 16
  let s1 := s.modCore site fun k => { k with ceMark := n }
  let due := match c.ceSaid with
    | some t => decide (t + 60 * sec ≤ s.now)
    | none => true
  if limit ≠ 0 ∧ limit < grown ∧ due = true then
    let s2 := s1.modCore site fun k => { k with ceSaid := some s.now }
    ({ s2 with led := { s2.led with ceRate := s2.led.ceRate ++ [(s2.now, site, grown)] } } : State).err pgFault 3 0x2001 (agCore site)
      (pack [(0, agCore site), (4, grown)])
  else s1

/-! ### When a plane stops (R389-R391) -/

/-- The Steward counts as stopped: 0x4028, and a warm wafer reset where stw_reset_en says so. -/
def stewardStopped (s : State) : State :=
  if s.mg.stwDead then s
  else
    let s1 := (s.modMg fun m => { m with stwDead := true }).err pgFault 2 0x4028 0 (pack [(0, s.fld pgFault 0 0x100 8 8)])
    if s.fld pgFault 0 0x100 1 1 = 1 then waferReset 1 4 false s1 else s1

def heartbeatDue (s : State) : Bool := decide (s.mg.hbAt + s.fld pgFault 0 0x100 8 8 * ms ≤ s.now)

def stwWatch (s : State) : State :=
  if ampUp s && decide (stageNow s = 6) && heartbeatDue s then stewardStopped s else s

/-- The AMP's watchdog: the ROM recovery path, then the firmware of its slot (R390). -/
def ampWatch (s : State) : State :=
  if s.mg.amp = .off then s
  else
    let s1 := crashRecord 1 s
    let s2 := (s1.setFld pgMgmt 0 0x100 4 8 (satInc (s1.fld pgMgmt 0 0x100 4 8) 0xFF)).setFld pgMgmt 0 0x100 2 1 1
    ampBring (ampRestart s2)

/-- The wafer watchdog: a warm wafer reset that restarts the AMP, its cause in the ledger first (R391). -/
def waferWatch (s : State) : State := if s.mg.amp = .off then s else waferReset 1 3 true (crashRecord 2 s)

/-! ### Cluster and tile resets (18 R437, R439, R441) -/

def clusterSites (t k : Nat) : List Nat := regionSites t (144 + k)
def clusterMask (m : Nat) : List Nat := (List.range 9).filter fun k => bitAt m k

/-- A core of a reset island: reset, then off; its traffic is absorbed. -/
def resetIsland (site : Nat) (s : State) : State := islandOff site (coreResetState site s)

def resetClusters (t : Nat) (ks : List Nat) (s : State) : State :=
  let xs := ((ks.map (clusterSites t)).flatten).filter fun x => (s.core x).on
  let s1 := xs.foldl (fun u x => resetIsland x u) (absorbTraffic (fun x => xs.contains x) s)
  ks.foldl (fun u k => turnOn t (144 + k) u) s1

def tileBusy (t : Nat) (on : Bool) (s : State) : State := s.setFld (pgTile t) 0 0x100 16 1 (if on then 1 else 0)

/-- The reset of R437 runs: clusters, or for mask 2^9 the whole tile, whose neighbours list it until its routers are up. -/
def beginTileReset (t m : Nat) (s : State) : State :=
  if bitAt m 9 then
    let s1 := dropFlits (fun f => decide (siteTile f.loc = t)) (listTile t s)
    let s2 : State := { s1 with regs := SMap.keep s1.regs fun k _ =>
      !(decide (2 ^ 37 ≤ k) && decide (k < 2 ^ 38) && decide (siteTile (k / 2 ^ 20 - 2 ^ 17) = t)) }
    let s3 := (resetRegs (pgFab t) .fab s2).modBlk (pgFab t) Block.toReset
    resetClusters t (List.range 9) s3
  else resetClusters t (clusterMask m) s

/-- The reset ends when its turn-ons have. -/
def endTileReset (t : Nat) (s : State) : State :=
  if s.fld (pgTile t) 0 0x100 16 1 = 1 ∧ (s.tileP t).seqs = [] then
    match (s.tileP t).reset with
    | some m => if (s.tileP t).begun then
        tileBusy t false ((if bitAt m 9 then unlistTile t s else s).modTile t fun p => { p with reset := none, begun := false })
      else
        let s1 := (beginTileReset t m s).modTile t fun p => { p with begun := true }
        if (s1.tileP t).seqs = [] then
          tileBusy t false ((if bitAt m 9 then unlistTile t s1 else s1).modTile t fun p => { p with reset := none, begun := false })
        else s1
    | none => tileBusy t false s
  else s

/-- A request that R437 permits: no wafer reset runs, no site of the clusters is bound, the tile in no partition; the AMP's
at any time when none runs. -/
def tileResetOk (ag t m : Nat) (s : State) : Bool :=
  !waferBusy s && decide (s.fld (pgTile t) 0 0x100 16 1 = 0) &&
    (if ag = agAmp then true else if bitAt m 9 then (tilePart s t).isNone
     else (clusterMask m).all fun k => (clusterSites t k).all fun x => (boundAt s x).isNone)

/-- TILE_RESET written; while a turn-on of the tile runs it waits for that. -/
def tileReset (ag t m : Nat) (s : State) : State :=
  if m = 0 then s
  else if tileResetOk ag t m s then
    endTileReset t (tileBusy t true (s.modTile t fun p => { p with reset := some m, begun := false }))
  else s.reject (pgTile t) 0x100 2 3

/-! ### The module's inputs (19 R450) -/

/-- 12V_MAIN is lost: every T1 channel, every partition, the Steward. With 12V_AUX lost only that is acted on. -/
def mainFail (s : State) : State :=
  if s.mg.mainBad || s.mg.auxBad then s
  else
    let s1 := (s.modMg fun m => { m with mainBad := true, t1Lost := true }).raise pgPwrG 0x5083
    let s2 := (List.range 48).foldl (fun t n => t.modBlk (pgEmc n) fun b => { b with st := .faulted }) s1
    let s3 := (livePartsList s2).foldl (fun t p => endPartition p t) s2
    stewardStopped s3

/-- PA_PG low with rails on: as a rail fault; the rule names no rail for ERR_LOC (notes/assumptions/53.md). -/
def paLoss (s : State) : State :=
  let s1 := s.modMg fun m => { m with paPg := false }
  if s.fld pgPwrG 0 0x100 3 1 = 1 ∨ s.fld pgPwrG 0 0x100 4 1 = 1 then
    crashRecord 5 (railLost allTiles ((Config.fresh s.free).toNat % 256) s1.draw)
  else s1

/-- 12V_AUX is lost: clocks gated, rails off on held charge; the cause stays in VAON for the next power-on. -/
def auxFail (s : State) : State :=
  if s.mg.auxBad then s
  else ((gateAll (s.raise pgPwrG 0x5082)).modPwr fun p => { p with railOff := allTiles }).modMg fun m => { m with auxBad := true }

end Sys2Proof.Machine
end

