-- ==== Sys2Proof/Machine/FamPwr.lean ====
section
/-! DEFINITION. The commands of power delivery and clocking (14). -/

namespace Sys2Proof.Machine

def tileOk (t : Nat) : Bool := decide (t < tiles)
def railOk (r : Nat) : Bool := decide (r < 92)
/-- Regions of a tile: core islands, clusters, router islands (R351). -/
def regionOk (r : Nat) : Bool := decide (r < 297)

/-- GOVERNOR_PERIOD (R346, 15 R361-R367): the firmware's, every 100 us. -/
def execGovernorPeriod (islands : List IslSample) (diodes : List DiodeSample) (s : State) : Res :=
  act (islands.all (fun i => decide (i.site < sites)) && diodes.all fun d => tileOk d.tile && decide (d.diode < 12))
    (when (ampUp s) (governor islands diodes)) s
/-- A raise that needs the rail waits for the AMP (01 R16); a lowering does not. -/
def execStepChangeDone (site : Nat) (s : State) : Res :=
  act (decide (site < sites)) (when (ampUp s || decide (targetStep s site ≤ s.fld (pgCore site) 0 0x110 0 4)) (stepChanged site)) s
/-- The module's input energy goes to the ledger (17 R418): watts over 10 us. -/
def execTelemetrySample (watts : Nat) (rails : List RailSample) (blocks : List (Nat × Nat)) (s : State) : Res :=
  act (rails.all (fun r => decide (r.rail < 90)) && blocks.all fun b => decide (b.1 < 18))
    (fun t => telemetry watts rails blocks { t with led := { t.led with energy := t.led.energy + watts } }) s
def execContactTrip (rail : Nat) (s : State) : Res := act (decide (rail < 90)) (when (ampUp s) (contactTrip rail)) s
def execContactSuspect (rail : Nat) (s : State) : Res := act (decide (rail < 90)) (when (ampUp s) (contactSuspect rail)) s
def execTrimSliceFail (tile n : Nat) (s : State) : Res := act (tileOk tile && decide (n < 56)) (sliceFail tile n) s
def execClkLockLoss (tile : Nat) (s : State) : Res := act (tileOk tile) (lockLoss tile) s
def execClkRelockRetry (tile : Nat) (locked : Bool) (s : State) : Res := act (tileOk tile) (relock tile locked) s
def execRefClockLoss (s : State) : Res := run refLost s
def execRefClockRestore (s : State) : Res := run (fun t => t.setFld pgPwrG 0 0x100 5 1 0) s
def execRegionTurnOn (tile region : Nat) (s : State) : Res := act (tileOk tile && regionOk region) (turnOn tile region) s
def execRegionTurnOnWaitEnd (tile : Nat) (s : State) : Res := act (tileOk tile) (waitEnd tile) s
def execRegionPowered (tile : Nat) (s : State) : Res := act (tileOk tile) (fun t => endTileReset tile (regionPowered tile t)) s
def execRegionTurnOff (tile region : Nat) (s : State) : Res := act (tileOk tile && regionOk region) (turnOff tile region) s
def execRegionShort (tile : Nat) (s : State) : Res := act (tileOk tile) (fun t => endTileReset tile (regionShort tile t)) s
def execEfuseTrip (tile : Nat) (s : State) : Res := act (tileOk tile) (efuseTrip tile) s
/-- The rail-off sequence ends (R340). -/
def execRailOff (s : State) : Res := run (fun t => alarmPin (railOff t)) s
/-- A rail fault writes a crash record (17 R410). -/
def execRailFault (rail : Nat) (s : State) : Res := act (railOk rail) (fun t => crashRecord 5 (railFault rail t)) s
def execVminSample (tile mv place : Nat) (s : State) : Res :=
  act (tileOk tile && decide (mv < 1024) && (decide (place < 144) || decide (place = 255))) (vminSample tile mv place) s
/-- A stretch of more than 5 per cent counts its cycles (R348). -/
def execSupplyDroop (site permille cycles : Nat) (s : State) : Res :=
  act (decide (site < sites)) (when (decide (50 < permille)) fun t => t.bump (pgPwrT (siteTile site)) 0 0x184 cycles) s

end Sys2Proof.Machine
end

