-- ==== Sys2Proof/Machine/FamThm.lean ====
section
/-! DEFINITION. The commands of thermal control and cooling (15). -/

namespace Sys2Proof.Machine

/-- A coolant stop writes a crash record (17 R410), fails a bring-up in progress (18 R441) and drives ALARM_N (19 R447). -/
def coolAfter (before : Nat) (s : State) : State :=
  let c := coolState s
  let s1 := if before < 3 ∧ c = 3 then crashRecord 3 s else if before < 4 ∧ c = 4 then crashRecord 4 s else s
  alarmPin (if before < 3 ∧ 3 ≤ c then coolBring s1 else s1)

def cooled (f : State → State) (s : State) : State := coolAfter (coolState s) (f s)

def execJunctionTrip (site temp : Nat) (diode : Bool) (s : State) : Res := act (decide (site < sites)) (junctionTrip site temp diode) s
def execHeatDark (tile : Nat) (s : State) : Res := act (tileOk tile) (when (ampUp s) (heatDark tile)) s
def execHeatDarkExit (tile : Nat) (s : State) : Res := act (tileOk tile) (when (ampUp s) (heatExit tile)) s
def execSensorDisagree (site : Nat) (s : State) : Res := act (decide (site < sites)) (when (ampUp s) (sensorDisagree site)) s
def execCoolantSample (flow dp inlet outlet : Nat) (s : State) : Res := run (cooled (coolantSample flow dp inlet outlet)) s
def execCoolFailAssert (s : State) : Res := run (cooled coolFail) s
/-- COOL_FAIL_N released: its bit clears, the coolant state stays (19 R446). -/
def execCoolFailRelease (s : State) : Res := run (fun t => t.setFld pgThmG 0 0x104 24 1 0) s
def execShutdownTimeout (s : State) : Res := run shutdownOver s

/-- THM_RECAL.req is discarded with reason 3 unless the tile is idle and no recalibration runs (R373). -/
def recalRefused (tile : Nat) (s : State) : Bool := !(tileIdle s tile && (s.tileP tile).recalAt.isNone)

def recalWrite (tile : Nat) (s : State) : State :=
  if recalRefused tile s then s.reject (pgThmT tile) 0x160 Cls.l.code 3 else recalReq tile s

def execRecalReq (ag tile : Nat) (s : State) : Res :=
  act (agentOk ag && tileOk tile) (regCmd ag (pgThmT tile) 0x160 1 (recalWrite tile)) s
def execRecalDone (tile : Nat) (diodes ros : List Nat) (s : State) : Res :=
  act (tileOk tile && decide (diodes.length = 12) && decide (ros.length = 144)) (recalDone tile diodes ros) s

end Sys2Proof.Machine
end

