-- ==== Sys2Proof/Machine/FamFault.lean ====
section
/-! DEFINITION. The commands of faults and recovery (16), bring-up and reset (18) and the module's inputs (19). -/

namespace Sys2Proof.Machine

def execCeRateSample (site : Nat) (s : State) : Res := act (decide (site < sites)) (when (ampUp s) (ceSample site)) s
def execRelocationDone (part : Nat) (fails bad : List Nat) (s : State) : Res := act (decide (part < 16)) (relocDone part fails bad) s
/-- The Steward's heartbeat goes only to the AMP and is offered to no path (17 R412). -/
def execStwHeartbeat (s : State) : Res := run (fun t => t.modMg fun m => { m with hbAt := t.now }) s
def execStwWdogExpire (s : State) : Res := run (fun t => alarmPin (stwWatch t)) s
def execAmpWatchdog (s : State) : Res := run (fun t => alarmPin (ampWatch t)) s
def execWaferWatchdog (s : State) : Res := run (fun t => alarmPin (waferWatch t)) s

/-! ### Bring-up -/

/-- POWER_ON: device time starts at 0 where VAON had lost its power (17 R398, R400). -/
def execPowerOn (vaonKept i3c : Bool) (s : State) : Res :=
  let t := alarmPin (powerOn vaonKept i3c s)
  .next { t with now := if vaonKept then s.now else 0, pending := s.pending }

/-- The ROM's boot, with R430's ends where no slot boots. -/
def bootStep (s : State) : State :=
  if s.mg.amp = .rom then
    let t := romBoot s
    if t.mg.amp = .recovery then crashRecord 6 (if waferBusy s then railsDown t else t) else t
  else s

def execRomBoot (s : State) : Res := run (fun t => alarmPin (bootStep t)) s
def execBringupStageDone (found : List Found) (s : State) : Res := act (found.all foundOk) (fun t => alarmPin (stageDone found t)) s
def execBringupStageTimeout (s : State) : Res := run (fun t => alarmPin (bringTimeout t)) s

/-- The function as the host finds it (02 R17, R18, R22). -/
def fnReport (s : State) : FnReport :=
  { vendor := Config.vendorId.toNat, device := 0x0C72, cls := 0x120000,
    doe := [.discovery, .spdm, .securedSpdm, .cdat, .ideKm], dvsecSize := hdmSize s, cdatSize := hdmSize s }

/-- The link trains (02 R19): lanes, speed code, flit mode; the function can then be enumerated. A link that reaches only
68-byte flits stops a bring-up that has reached stage 4. -/
def linkTrain (width speed : Nat) (flit256 : Bool) (s : State) : State :=
  let s1 := ((s.modHost fun h => { h with trained := true, flit256 := flit256 }).setFld pgGlob 0 0x104 0 8
    (width + speed * 2 ^ 5)).emit (.enumerated (fnReport s))
  if !flit256 && (decide (stageNow s = 4) || decide (stageNow s = 5)) then bringFail 0x6004 s1 else s1

def execLinkTrain (width speed : Nat) (flit256 : Bool) (s : State) : Res :=
  act ((width = 4 || width = 8 || width = 16) && decide (3 ≤ speed) && decide (speed ≤ 5))
    (when (decide (1 ≤ stageNow s)) fun t => alarmPin (linkTrain width speed flit256 t)) s

/-- PERST#: asserted, a conventional reset; released, the function is ready within 100 ms (R428). -/
def perst (low : Bool) (s : State) : State :=
  if low = s.mg.perst then s
  else
    let s1 := s.modMg fun m => { m with perst := low }
    if low then (hostReset s1).modHost fun h => { h with trained := false, flit256 := false }
    else s1.modHost fun h => { h with crsUntil := s.now + 100 * ms }

def execPerstAssert (low : Bool) (s : State) : Res := run (perst low) s

/-! ### Resets -/

def execWarmReset (ag : Nat) (s : State) : Res :=
  act (agentOk ag) (regCmd ag pgGlob 0x140 (1 + 0x7A5E * 2 ^ 16) fun t => alarmPin (resetRequest ag 1 t)) s
def execColdReset (ag : Nat) (s : State) : Res :=
  act (agentOk ag) (regCmd ag pgGlob 0x140 (2 + 0x7A5E * 2 ^ 16) fun t => alarmPin (resetRequest ag 2 t)) s
def execClusterReset (ag tile mask : Nat) (s : State) : Res :=
  act (agentOk ag && tileOk tile && decide (mask < 512)) (regCmd ag (pgTile tile) 0x100 mask (tileReset ag tile mask)) s
def execTileReset (ag tile : Nat) (s : State) : Res :=
  act (agentOk ag && tileOk tile) (regCmd ag (pgTile tile) 0x100 512 (tileReset ag tile 512)) s

/-! ### Inputs -/

def execMain12vFail (s : State) : Res := run (fun t => alarmPin (mainFail t)) s
def execMain12vRestore (s : State) : Res := run (fun t => t.modMg fun m => { m with mainBad := false }) s
def execPaPgLoss (s : State) : Res := run paLoss s
def execPaPgRestore (s : State) : Res := run (fun t => t.modMg fun m => { m with paPg := true }) s
def execAux12vFail (s : State) : Res := run auxFail s

end Sys2Proof.Machine
end

