-- ==== Sys2Proof/Machine/FamLink.lean ====
section
/-! DEFINITION. The commands of the Merdutra links (13). -/

namespace Sys2Proof.Machine

def portOk (p : Nat) : Bool := decide (p < 16)
def laneOk (v : Nat) : Bool := decide (v < 4)

def execLinkFrame (port : Nat) (frame : List Byte) (ce ue : Nat) (s : State) : Res :=
  act (portOk port) (linkFrame port frame ce ue) s
def execPortRetrain (port : Nat) (s : State) : Res := act (portOk port) (portRetrain port) s
def execPortTrainDone (port : Nat) (up : Bool) (plane : Nat) (s : State) : Res :=
  act (portOk port && decide (plane < 16)) (portTrained port up plane) s
def execPortEnable (ag port : Nat) (on : Bool) (s : State) : Res :=
  act (agentOk ag && portOk port) (regStore ag (pgPort port) 0x104 (if on then 1 else 0) (portEnable port on)) s
def execPortRetrainCmd (ag port : Nat) (s : State) : Res :=
  act (agentOk ag && portOk port) (regCmd ag (pgPort port) 0x104 (2 + s.fld (pgPort port) 0 0x104 0 1) (retrainCmd port)) s

/-- The header of a WRITE in front of a lane is checked (R336): into flight, or a NAK. -/
def mlkWrite (p v : Nat) (s : State) : State :=
  match frontOf s p v 1 with
  | none => s
  | some h =>
    let l := s.lane p v
    if l.checked then s
    else
      let k := { pktOf h with lane := v }
      let s1 := heard p k.src s
      let skip := skipFront p v s1
      match standing s k with
      | 1 => answerAgain k skip
      | 2 => skip
      | 3 => skip
      | _ => match writeCheck s k (hUnits h) with
        | some c =>
          let s2 := sendNak k c (skip.bump pgGroup k.window 0x150)
          let s3 := if c = 4 then emcErr (wBase (s.rwin k.window).desc + k.off) 4 0x7020 s2 else s2
          acceptPkt { pkt := k, refused := some c } s3
        | none =>
          (setLane p v l.frames.length { l with checked := true } s1).modMlk fun m => { m with
            flights := m.flights ++ [{ src := k.src, lane := v, e2e := k.e2e, win := k.window, since := s.now }] }

def execMlkWrite (port lane : Nat) (s : State) : Res := act (portOk port && laneOk lane) (mlkWrite port lane) s

/-- The last unit of an accepted WRITE has arrived: it is applied in its turn, and acknowledged. -/
def mlkWriteApply (p v : Nat) (s : State) : State :=
  if (s.lane p v).checked = false then s
  else match takeFront s p v 1 with
    | none => s
    | some (k0, s1) =>
      let k := { k0 with lane := v }
      if s1.mlk.flights.any fun f => f.src = k.src && f.lane = v && f.e2e = k.e2e then
        acceptPkt { pkt := k } (s1.modMlk fun m => { m with flights := m.flights.map fun f =>
          if f.src = k.src ∧ f.lane = v ∧ f.e2e = k.e2e then { f with whole := true } else f })
      else s1

def execMlkWriteApply (port lane : Nat) (s : State) : Res := act (portOk port && laneOk lane) (mlkWriteApply port lane) s

/-- A WRITE whose last unit has not arrived within 100 us is discarded whole, with no NAK. -/
def mlkWriteTimeout (p v : Nat) (s : State) : State :=
  match frontOf s p v 1 with
  | none => s
  | some h =>
    let k := pktOf h
    match s.mlk.flights.find? fun f => f.src = k.src && f.lane = v && f.e2e = k.e2e && !f.whole with
    | none => s
    | some f =>
      if (s.lane p v).checked = true ∧ f.since + 100 * us ≤ s.now then
        (skipFront p v s).modMlk fun m => { m with flights := m.flights.filter fun g => g ≠ f }
      else s

def execMlkWriteTimeout (port lane : Nat) (s : State) : Res := act (portOk port && laneOk lane) (mlkWriteTimeout port lane) s

/-- The packet a tag names, sent to module `m`. -/
def txOf (s : State) (m tag : Nat) : Option PktTx := s.mlk.tx.find? fun e => e.pkt.tag = tag && e.pkt.dst = m
def dropTx (m tag : Nat) (s : State) : State :=
  s.modMlk fun x => { x with tx := x.tx.filter fun e => !(e.pkt.tag = tag && e.pkt.dst = m) }

/-- An ACK: the packet is released, a VL0 one gives L_m (R329). -/
def mlkAck (p : Nat) (s : State) : State :=
  match takeFront s p 0 3 with
  | none => s
  | some (k, s0) =>
    let s1 := heard p k.src s0
    match txOf s1 k.src k.tag with
    | none => s1
    | some e =>
      let s2 := answerTag e.own k.tag (dropTx k.src k.tag s1)
      if e.pkt.lane = 0 then s2.modPeer k.src fun x => { x with lat := Nat.min ((s.now - e.since) / 2) 0xFFFF } else s2

def execMlkAck (port : Nat) (s : State) : Res := act (portOk port) (mlkAck port) s

/-- A NAK (R335): the refusal is counted and traced, its generation stored; the transfer waits for the packet no more. -/
def mlkNak (p : Nat) (s : State) : State :=
  match takeFront s p 0 2 with
  | none => s
  | some (k, s0) =>
    let s1 := heard p k.src s0
    match txOf s1 k.src k.tag with
    | none => s1
    | some e => refusal e.own e.pkt k.window (some k.gen) (dropTx k.src k.tag s1)

def execMlkNak (port : Nat) (s : State) : Res := act (portOk port) (mlkNak port) s

/-- A CTRL packet: in its turn its message `msg` acts on the span of partition `p`. -/
def mlkCtrl (p v part : Nat) (msg : SpanMsg) (s : State) : State :=
  match takeFront s p v 4 with
  | none => s
  | some (k0, s0) =>
    let k := { k0 with lane := v }
    let s1 := heard p k.src s0
    match standing s1 k with
    | 0 => acceptPkt { pkt := k, msg := some (part, msg) } s1
    | 1 => answerAgain k s1
    | _ => s1

def execMlkCtrl (port lane part : Nat) (msg : SpanMsg) (s : State) : Res :=
  act (portOk port && laneOk lane && partOk part) (mlkCtrl port lane part msg) s

/-- A RED packet: its units enter the edge router as flits of its local input (R332, 08 R233). -/
def mlkRed (p site : Nat) (s : State) : State :=
  match takeFront s p 2 5 with
  | none => s
  | some (k, s0) =>
    let s1 := heard p k.src s0
    let np := newPid s1
    let n := pktUnits k
    let fl := (List.range n).map fun i =>
      ({ pid := np.1, idx := i, len := n, vc := 2, src := site, dst := site, id := k.window, round := k.red % 16,
         inc := bitAt k.red 4, data := (k.data.drop (32 * i)).take 32, loc := site, inp := 4 } : Flit)
    np.2.modFab fun m => { m with flits := m.flits ++ fl }

def execMlkRed (port site : Nat) (s : State) : Res :=
  act (portOk port && decide (site < sites) && decide (edgeOf site = some (portEdge port))) (mlkRed port site) s

/-- A packet not acknowledged within retry_us is sent again on the next UP port (R329). -/
def mlkRetry (tag : Nat) (s : State) : State :=
  match s.mlk.tx.find? fun e => e.pkt.tag = tag with
  | none => s
  | some e =>
    if s.now < e.since + s.fld pgGroup 0 0x104 0 12 * us then s
    else transmit e.pkt ((s.modMlk fun m => { m with tx := m.tx.map fun x => if x.pkt.tag = tag then { x with since := s.now } else x }).bump
      pgGroup 0 0x180)

def execMlkRetryTimer (tag : Nat) (s : State) : Res := act (decide (tag < 2 ^ 32)) (mlkRetry tag) s

def execPeerLost (m : Nat) (s : State) : Res := act (decide (m < 64)) (peerLost m) s
def execPeerHeard (m : Nat) (s : State) : Res := act (decide (m < 64)) (peerHeard m) s

/-! ### Windows -/

def winSel (s : State) : Nat := s.fld pgGroup 0 0x120 0 8
/-- The descriptor in MLK_WIN_D0-7. -/
def winRegs (s : State) : BitVec 256 :=
  BitVec.ofNat 256 ((List.range 8).foldl (fun a k => a + s.regN pgGroup 0 (0x130 + 4 * k) * 2 ^ (32 * k)) 0)

def winOpen (s : State) : State :=
  let w := winSel s
  if (s.rwin w).st = 0 ∧ winValid (winRegs s) = true then
    s.modWin w fun x => { x with st := 1, err := false, desc := winRegs s }
  else s.modWin w fun x => { x with err := true }

def winClose (s : State) : State :=
  s.modWin (winSel s) fun x => if x.st = 1 then { x with st := 2 } else x

def winCloseDone (w : Nat) (s : State) : State :=
  if (s.rwin w).st = 2 ∧ (s.mlk.flights.any fun f => f.win = w) = false then
    s.modWin w fun x => { x with st := 0, gen := nextGen x.gen }
  else s

def winRead (s : State) : State :=
  let d := (s.rwin (winSel s)).desc
  (List.range 8).foldl (fun t k => t.setRegN pgGroup 0 (0x130 + 4 * k) (dBits d (32 * k) 32)) s

def execWinOpen (ag : Nat) (s : State) : Res := act (agentOk ag) (regCmd ag pgGroup 0x124 1 winOpen) s
def execWinClose (ag : Nat) (s : State) : Res := act (agentOk ag) (regCmd ag pgGroup 0x124 2 winClose) s
def execWinCloseDone (win : Nat) (s : State) : Res := act (decide (win < 256)) (winCloseDone win) s
def execWinRead (ag : Nat) (s : State) : Res := act (agentOk ag) (regCmd ag pgGroup 0x124 3 winRead) s

end Sys2Proof.Machine
end

