-- ==== Sys2Proof/Machine/ReplayStart.lean ====
section
/-! DEFINITION. The start of a replay (17 R423, R424 item 1): the recorded interval, its sequences, which are excluded. -/

namespace Sys2Proof.Machine

/-- A field of a record's payload. -/
def FrRec.num (r : FrRec) (off n : Nat) : Nat := leNat ((r.payload.drop off).take n)

/-- The records after the first one that is the EQX record of Equinox `n` of partition `p`. -/
def afterEqx (p n : Nat) : List FrRec → Option (List FrRec)
  | [] => none
  | r :: l => if r.ty = 4 ∧ r.part = p ∧ r.num 0 4 = n then some l else afterEqx p n l

/-- The records before that one. -/
def beforeEqx (p n : Nat) : List FrRec → Option (List FrRec)
  | [] => none
  | r :: l => if r.ty = 4 ∧ r.part = p ∧ r.num 0 4 = n then some [] else (beforeEqx p n l).map fun x => r :: x

/-- The records between Equinoxes `a` and `b`; none where either is not in the recorder. -/
def interval (s : State) (p a b : Nat) : Option (List FrRec) :=
  match afterEqx p a s.fr.recs with
  | none => none
  | some l => if a = b then some [] else beforeEqx p b l

/-- Entries of a STEP record: slot, ntok, pos. -/
def stepEnts (r : FrRec) : List (Nat × Nat × Nat) :=
  (List.range (r.num 4 1)).map fun i => (r.num (16 + 8 * i) 2 % 4096, r.num (18 + 8 * i) 2, r.num (20 + 8 * i) 4)

/-- The sequence that held a slot when a step was recorded: the latest ADMIT before it. -/
def admitOf (s : State) (p slot seq : Nat) : Option FrRec :=
  (s.fr.recs.filter fun r => decide (r.ty = 2) && decide (r.part = p) && decide (r.aux % 4096 = slot) && decide (r.seq < seq)).getLast?

/-- A sequence: slot and the ADMIT record's number, none where that is gone. -/
def seqKey (s : State) (p : Nat) (r : FrRec) (e : Nat × Nat × Nat) : Nat × Option Nat := (e.1, (admitOf s p e.1 r.seq).map (·.seq))

def uniq {α : Type} [DecidableEq α] (l : List α) : List α := l.foldl (fun a x => if a.contains x then a else a ++ [x]) []

/-- Positions that the interval's steps give a sequence: (pos, ntok). -/
def seqSpans (s : State) (p : Nat) (l : List FrRec) (k : Nat × Option Nat) : List (Nat × Nat) :=
  ((l.map fun r => ((stepEnts r).filter fun e => seqKey s p r e = k).map fun e => (e.2.2, e.2.1))).flatten

/-- The request had native speculation on (03 R72). -/
def usedSpec (flags : Nat) : Bool := bitAt flags 4

/-- R424 item 1: what excludes a sequence. -/
def included (s : State) (q : Nat) (a : FrRec) (last : Nat) : Bool :=
  let v := s.sess (a.num 2 2)
  let ad := a.num 7 2
  decide (v.st ≠ .closed) && decide (v.tenant = a.num 4 2) && decide (last ≤ v.log.length) &&
  (SMap.get s.mem.tenantKeys {} v.tenant).key.isSome && !usedSpec (a.num 10 2) &&
  (decide (ad = 0xFFFF) || match SMap.find s.we.vers (verKey q ad (a.num 9 1)) with
    | some w => decide (w.st ≠ .loading) && decide (w.st ≠ .gone)
    | none => false)

/-- A sequence of the interval as the replay holds it, where it is included; it takes slot `slot` of the target. -/
def rpSeqOf (s : State) (p q : Nat) (l : List FrRec) (k : Nat × Option Nat) : Option RpSeq :=
  match k.2 with
  | none => none
  | some n => match s.fr.recs.find? fun r => r.seq = n with
    | none => none
    | some a =>
      let sp := seqSpans s p l k
      let last := sp.foldl (fun m e => Nat.max m (e.1 + e.2)) 0
      let first := (sp.head?.map (·.1)).getD 0
      if included s q a last then
        some { src := k.1, since := n, session := a.num 2 2, req := a.num 0 2, adapter := a.num 7 2, ver := a.num 9 1, slot := 0, need := first,
               seed := a.num 20 8, greedy := decide (4096 ≤ a.aux) }
      else none

def withSlot (e : (RpSeq × (Nat × Option Nat)) × Nat) : RpSeq × (Nat × Option Nat) := ({ e.1.1 with slot := e.2 }, e.1.2)

/-- The sequences of an interval that are replayed. -/
def rpSeqs (s : State) (p q : Nat) (l : List FrRec) (keys : List (Nat × Option Nat)) : List (RpSeq × (Nat × Option Nat)) :=
  ((keys.filterMap fun k => (rpSeqOf s p q l k).map fun x => (x, k)).zipIdx).map withSlot

def residentEpoch (g : Part) (e : Nat) : Bool :=
  decide (e ≠ 0xFF) && (decide (g.epCur = e) || decide (g.epDrain = e) || (decide (g.epOther = e) && !g.epFill))

/-- Why a start is refused: 0x4072 the interval, 0x4073 the target. -/
def replayCode (s : State) (p q a b : Nat) : Nat :=
  match interval s p a b with
  | none => 0x4072
  | some l =>
    if b < a ∨ (l.any fun r => r.ty = 15) = true then 0x4072
    else if (s.part q).ps ≠ .loaded ∨ slotsHeld s q ≠ 0 ∨ (s.part q).shape ≠ (s.part p).shape ∨
      ((l.filter fun r => decide (r.ty = 3) && decide (r.part = p)).any fun r => !residentEpoch (s.part q) (r.num 6 1)) = true then 0x4073
    else 0

/-- A recorded step as the replay holds it (R424); the record has bits [15:0] of its Equinox number, which is `a` or later. -/
def rpStepOf (s : State) (p a : Nat) (num : Nat × Option Nat → Option Nat) (r : FrRec) : RpStep := {
  kind := r.num 5 1, epoch := r.num 6 1, step := r.num 0 4, eqx := (a + (r.num 12 2 + 2 ^ 16 - a % 2 ^ 16) % 2 ^ 16) % 2 ^ 32
  ents := (stepEnts r).filterMap fun e => (num (seqKey s p r e)).map fun i => (i, e.2.1, e.2.2) }

def replayStart (s : State) : State :=
  let p := s.fld pgReplay 0 0x100 0 4
  let q := s.fld pgReplay 0 0x100 4 4
  let a := s.regN pgReplay 0 0x104
  let b := s.regN pgReplay 0 0x108
  let s0 := [0x124, 0x128, 0x12C, 0x130].foldl (fun t o => t.setReg pgReplay 0 o 0) s
  match replayCode s p q a b with
  | 0 =>
    let l := (((interval s p a b).getD []).filter fun r => decide (r.ty = 3) && decide (r.part = p))
    let keys := uniq ((l.map fun r => (stepEnts r).map (seqKey s p r)).flatten)
    let seqs := rpSeqs s p q l keys
    let num (k : Nat × Option Nat) : Option Nat := seqs.findIdx? fun e => e.2 = k
    let steps := l.map (rpStepOf s p a num)
    let rp : RpSt := { busy := true, src := p, tgt := q, eqx0 := a, eqx1 := b, seqs := seqs.map (·.1), steps := steps }
    let s1 := ((s0.setRegN pgReplay 0 0x120 1).setRegN pgReplay 0 0x12C (keys.length - seqs.length)).modPart q fun g => { g with replayOf := true }
    frWrite 14 p (leBytes 1 p ++ leBytes 1 q ++ leBytes 4 a ++ leBytes 4 b) { s1 with rp := rp }
  | c => (s0.setRegN pgReplay 0 0x120 (c * 2 ^ 16)).err pgReplay 0 c 0 (pack [(0, p), (1, q), (4, a), (8, b)])

/-- The last recorded step is compared: the replay ends (R424). -/
def replayDone (s : State) : State :=
  if s.rp.busy && s.rp.steps.isEmpty && (rpWarm s).isNone && s.rp.flying.isEmpty then replayFinish 0 s else s

end Sys2Proof.Machine
end

