-- ==== Sys2Proof/Machine/SbOps.lean ====
section
/-! DEFINITION. The sideband ring (17 R396-R399). A node's registers are 4,096 words that the spec does not name
(notes/assumptions/54.md). -/

namespace Sys2Proof.Machine

def nodes : Nat := 84
def nodeAmp : Nat := 78
def nodeE0 : Nat := 72

/-- The shorter of the two rings from the AMP to a node: 0 ascending, 1 descending. -/
def shorter (n : Nat) : Nat := if (n + nodes - nodeAmp) % nodes ≤ 42 then 0 else 1

def nodeWord (s : State) (n idx : Nat) : W32 := SMap.get s.mg.nodeReg 0#32 (4096 * n + idx)

/-- The AMP's own command is outstanding until its response comes (R396). -/
def sbSent (dst cmd idx : Nat) (data : W32) (s : State) : State :=
  if s.mg.cmds.any fun c => c.node = dst && c.idx = idx then s
  else s.modMg fun m => { m with
    cmds := m.cmds ++ [{ node := dst, cmd := cmd, idx := idx, data := data, ring := shorter dst, sent := s.now, first := s.now }] }

/-- The nodes that a destination names: 0xFF broadcasts. -/
def sbDsts (dst : Nat) : List Nat := if dst = 0xFF then List.range nodes else [dst]

/-- One step of the CRC-8 register, polynomial x^8 + x^2 + x + 1 (notes/assumptions/78.md). -/
def crc8Bit (c : Nat) : Nat := if 0x80 ≤ c then ((2 * c) % 256) ^^^ 0x07 else 2 * c

def crc8Byte (c b : Nat) : Nat := crc8Bit (crc8Bit (crc8Bit (crc8Bit (crc8Bit (crc8Bit (crc8Bit (crc8Bit (c ^^^ b))))))))

/-- CRC-8 of a byte string. -/
def crc8 (l : List Nat) : Byte := BitVec.ofNat 8 (l.foldl crc8Byte 0)

/-- The first 64 bits of a frame: destination, source, command, register index, data (R396). -/
def sbHead (dst src cmd idx : Nat) (data : W32) : Nat :=
  dst % 2 ^ 8 + src % 2 ^ 8 * 2 ^ 8 + cmd % 2 ^ 4 * 2 ^ 16 + idx % 2 ^ 12 * 2 ^ 20 + data.toNat * 2 ^ 32

def sbCrc (dst src cmd idx : Nat) (data : W32) : Byte :=
  crc8 ((List.range 8).map fun i => sbHead dst src cmd idx data / 2 ^ (8 * i) % 2 ^ 8)

/-- The 72 bits of a frame. -/
def sbFrame (dst src cmd idx : Nat) (data : W32) : BitVec 72 :=
  BitVec.ofNat 72 (sbHead dst src cmd idx data + (sbCrc dst src cmd idx data).toNat * 2 ^ 64)

/-- A response frame of a node. -/
def sbAnswer (src n idx : Nat) (v : W32) (s : State) : State := s.emit (.frame (shorter n) (sbFrame src n 2 idx v))

/-- A frame whose CRC fails is discarded by the node. -/
def sbRead (src dst idx : Nat) (crc : Byte) (s : State) : State :=
  let s1 := if src = nodeAmp ∧ dst ≠ 0xFF then sbSent dst 0 idx 0 s else s
  if crc = sbCrc dst src 0 idx 0 then (sbDsts dst).foldl (fun t n => sbAnswer src n idx (nodeWord t n idx) t) s1 else s1

def sbWrite (src dst idx : Nat) (data : W32) (crc : Byte) (s : State) : State :=
  let s1 := if src = nodeAmp ∧ dst ≠ 0xFF then sbSent dst 1 idx data s else s
  if crc = sbCrc dst src 1 idx data then (sbDsts dst).foldl (fun t n =>
    sbAnswer src n idx data (t.modMg fun m => { m with nodeReg := SMap.set m.nodeReg 0#32 (4096 * n + idx) data })) s1 else s1

/-- A response reaches the AMP: its command is answered. -/
def sbResponse (src idx : Nat) (data : W32) (crc : Byte) (s : State) : State :=
  if crc = sbCrc nodeAmp src 2 idx data then (s.modMg fun m => { m with cmds := m.cmds.filter fun c => !(c.node = src && c.idx = idx) }).emit (.readData agAmp data.toNat)
  else s

/-- The clock-gate broadcast of R372 reaches every node. -/
def sbGate (crc : Byte) (s : State) : State := when (decide (crc = sbCrc 0xFF nodeAmp 3 0 0)) gateAll s

/-- What the AMP does on an alarm frame is its firmware's: it is told. -/
def sbAlarm (src idx : Nat) (data : W32) (crc : Byte) (s : State) : State :=
  if crc = sbCrc nodeAmp src 5 idx data then s.emit (.notice src agAmp 5 [idx, data.toNat]) else s

/-- A time-sync frame carries the low word of the value, which the node extends to 64 bits (notes/assumptions/78.md). -/
def sbTime (value : Nat) : BitVec 72 := sbFrame 0xFF nodeAmp 4 0 (BitVec.ofNat 32 value)

/-- A node's copy of device time: the value received and 144 ns for each hop (R396, R399). -/
def timeSync (node hops : Nat) (value : Nat) (crc : Byte) (s : State) : State :=
  if crc = sbCrc 0xFF nodeAmp 4 0 (BitVec.ofNat 32 value) then s.modMg fun m => { m with nodeTime := SMap.put m.nodeTime node ((value + 144 * hops) % 2 ^ 64, s.now) } else s

def syncTimer (s : State) : State :=
  if ampUp s && decide (s.mg.syncAt + ms ≤ s.now) then
    ((s.modMg fun m => { m with syncAt := s.now }).emit (.frame 0 (sbTime s.now))).emit (.frame 1 (sbTime s.now))
  else s

/-- An unreachable node (R397): a compute tile loses its VCORE rail without a move; with E0 the Steward counts as stopped. -/
def unreachable (n : Nat) (s : State) : State :=
  let s1 := (s.modMg fun m => { m with
    dead := if m.dead.contains n then m.dead else m.dead ++ [n], cmds := m.cmds.filter fun c => c.node ≠ n }).err
      pgMgmt 0 0x5070 n (pack [(0, n)])
  if n < tiles then
    (if 3 ≤ tileSt s1 n then s1
     else
      let bound := (boundIn s1 n).map fun b => b.2.2
      bound.foldl (fun t x => faultCoreStage x t) (goDark n s1))
  else if n = nodeE0 then stewardStopped s1
  else s1

/-- 20 us without a response: once more on the other ring; a second silence within 100 us makes the node unreachable. -/
def sbRetry (node idx : Nat) (s : State) : State :=
  if ampUp s = false then s
  else match s.mg.cmds.find? fun c => c.node = node && c.idx = idx with
  | none => s
  | some c =>
    if c.sent + 20 * us ≤ s.now then
      (if c.tries < 2 then
        ((s.modMg fun m => { m with cmds := m.cmds.map fun x =>
            if x = c then { x with tries := 2, ring := 1 - c.ring, sent := s.now } else x }).setFld pgMgmt 0 0x100 3 1 1).emit
          (.frame (1 - c.ring) (sbFrame node nodeAmp c.cmd idx c.data))
       else unreachable node s)
    else s

end Sys2Proof.Machine
end

