-- ==== Sys2Proof/Machine/EvtOps.lean ====
section
/-! DEFINITION. Event paths (17 R413-R416), the ledger's log and checkpoint (17 R418-R420), crash-log readout (17 R410). -/

namespace Sys2Proof.Machine

def State.path (s : State) (p : Nat) : EvtPath := SMap.get s.paths {} p
def State.modPath (s : State) (p : Nat) (f : EvtPath → EvtPath) : State := { s with paths := SMap.upd s.paths {} p f }

/-- A record's 32 bytes; on an event ring the phase bit stands in data bit 127 and that bit in flag 6 (R411, 03 R64). -/
def recBytes (e : Event) (phase : Option Nat) : List Byte :=
  let top := e.data.toNat / 2 ^ 127
  let (fl, d) := match phase with
    | none => (e.flags, e.data.toNat)
    | some b => (putBits e.flags 6 1 top, e.data.toNat % 2 ^ 127 + b * 2 ^ 127)
  leBytes 8 e.time ++ leBytes 4 e.src ++ leBytes 2 e.code ++ leBytes 1 e.sev ++ leBytes 1 fl ++ leBytes 16 d

def evtWinClose (p : Nat) (s : State) : State := s.modPath p fun q => q.closeDue (pathCap p) (pathPrio p) s.now

/-- What an EVT_LOST record says: its path and ring (R416). -/
def pathKind (p : Nat) : Nat := if p = 0 then 1 else if p = 1 then 2 else 0
def pathRing (p : Nat) : Nat := if p < 2 then 0 else p - 2

def lostRecord (p : Nat) (q : EvtPath) (now : Nat) : Event :=
  { time := now, src := agAmp, code := 0x4070, sev := if q.lostA = 0 then 3 else 4, flags := 2,
    data := pack [(0, q.lostN), (4, q.lostT), (8, q.lostA), (12, pathKind p), (13, pathRing p)] }

/-- R416: 1 s after the first discard, once a second at most, while its reserved entry is free. -/
def lostDue (q : EvtPath) (now : Nat) : Bool :=
  q.lost.isNone && lasted q.firstLost now sec && match q.lastLost with
    | some t => decide (t + sec ≤ now)
    | none => true

def evtLost (p : Nat) (s : State) : State :=
  let q := s.path p
  if lostDue q s.now then
    let s1 := s.modPath p fun x => { x with
      lost := some (lostRecord p x s.now), lostN := 0, lostT := 0, lostA := 0, firstLost := none, lastLost := some s.now }
    s1.err pgMgmt 4 0x4070 (pathKind p * 2 ^ 8 + pathRing p * 2 ^ 12) 0 true
  else s

/-- The record that a path sends next: EVT_LOST, the priority queue, the queue. -/
def EvtPath.next (q : EvtPath) : Option (Event × EvtPath) :=
  match q.lost with
  | some e => some (e, { q with lost := none })
  | none => match q.prio with
    | e :: r => some (e, { q with prio := r })
    | [] => match q.queue with
      | e :: r => some (e, { q with queue := r })
      | [] => none

def EvtPath.waiting (q : EvtPath) : Nat := q.queue.length + q.prio.length + (if q.lost.isSome then 1 else 0)

/-! ### Event rings (R413) -/

/-- Open event rings with records waiting and room, in ascending order. -/
def readyRings (s : State) : List Nat :=
  (s.serv.rings.filter fun r =>
    decide (dKind r.2.desc = 2) && !r.2.closing && decide (0 < (s.path (2 + r.1)).waiting) && decide (0 < r.2.space)).map (·.1)

/-- The ring after the one last served. -/
def nextRing (s : State) : Option Nat :=
  let l := readyRings s
  match l.find? fun r => s.serv.evtLast < r with
  | some r => some r
  | none => l.head?

def ringRecord (r : Nat) (s : State) : State :=
  match s.ring r, (s.path (2 + r)).next with
  | some g, some (e, q) =>
    if 0 < g.space then pushEntry r (fun g => recBytes e (some (g.phase g.prod))) (s.modPath (2 + r) fun _ => q) else s
  | _, _ => s

def repeatN (f : State → State) : Nat → State → State
  | 0, s => s
  | n + 1, s => repeatN f n (f s)

/-- EVENT_RING_PASS: the next ring in rotation, one record while another ring waits, else up to 16; then its index
(notes/assumptions/55.md). -/
def ringPass (s : State) : State :=
  match nextRing s with
  | none => s
  | some r =>
    let n := if 1 < (readyRings s).length then 1 else 16
    endBatch r false (repeatN (ringRecord r) n (s.modServ fun v => { v with evtLast := r }))

/-! ### The BMC path -/


/-- Send the BMC its next record: OEM event class 0xF0 with the record (R409). -/
def bmcNext (s : State) : State :=
  match (s.path 0).next with
  | some (e, q) => ((s.modPath 0 fun _ => q).modMg fun m => { m with bmcSent := m.bmcSent + 1 }).emit
      (.mctp 1 (0xF0 :: (recBytes e none).map (·.toNat)))
  | none => s

/-! ### The ledger -/

/-- Records that the log holds: 1,023 sectors of 2,048 records; the checkpoint takes a sector. -/
def logCap : Nat := 1023 * 2048

def wearOf (erases : Nat) : Nat := (erases + 1023) / 1024

/-- One more sector is erased: 0x4075 at 90,000 erases of a sector, the log stops at 95,000 (R419). -/
def eraseOne (s : State) : State :=
  let n := s.led.erases + 1
  let s1 : State := { s with led := { s.led with erases := n } }
  let s2 := s1.setFld pgMgmt 0 0x140 0 17 (Nat.min (wearOf n) 0x1FFFF)
  let s3 := if 95000 ≤ wearOf n then s2.setFld pgMgmt 0 0x140 17 1 1 else s2
  if wearOf s.led.erases < 90000 ∧ 90000 ≤ wearOf n then s3.err pgMgmt 2 0x4075 else s3

def logStopped (s : State) : Bool := s.fld pgMgmt 0 0x140 17 1 = 1

/-- The ledger path writes its next record; a stopped log refuses it as a discard. -/
def ledgerRecord (s : State) : State :=
  if ampUp s = false then s
  else match (s.path 1).next with
  | none => s
  | some (e, q) =>
    if logStopped s then s.modPath 1 fun _ => q.discard e s.now
    else
      let s1 := s.modPath 1 fun _ => q
      let s2 : State := { s1 with led := { s1.led with written := s1.led.written + 1, log := (e :: s1.led.log).take logCap } }
      if s.led.written % 2048 = 0 then eraseOne s2 else s2

/-- Words with fields that a checkpoint keeps (R418). -/
def ckptWords (s : State) : SMap W32 :=
  SMap.keep s.regs fun k _ => decide (k < 2 ^ 37) && match pageInfo (k / 2 ^ 20) with
    | some (kd, _) => match regAt kd (k % 2 ^ 12) with
      | some (d, _, _) => d.fields.any (·.keep)
      | none => false
    | none => false

def hour : Nat := 3600 * sec

/-- CORE_ECC_CE of every core. -/
def ceMarks (s : State) : SMap Nat :=
  s.cores.foldl (fun m e => SMap.set m 0 e.1 (s.regN (pgCore e.1) 0 0x210)) []

/-- How far each counter has gone since the last hourly entry. -/
def ceGrown (s : State) : SMap Nat :=
  s.cores.foldl (fun m e =>
    SMap.set m 0 e.1 ((s.regN (pgCore e.1) 0 0x210 + 2 ^ 32 - SMap.get s.led.ceHour 0 e.1) % 2 ^ 32)) []

/-- The ageing estimates of all tiles are due: the latest are replaced, and one value per 30 days is kept. -/
def keepAged (l : LedSt) (now : Nat) (m : SMap Nat) : LedSt :=
  let due := match l.ageLog with
    | [] => true
    | e :: _ => decide (e.1 + 720 * hour ≤ now) || decide (now < e.1)
  { l with agedAt := now, ageing := m, ageLog := if due then (now, m) :: l.ageLog else l.ageLog }

/-- Corrected words per core, hourly, 30 days of them and their totals; ageing estimates, daily (R418). -/
def ledgerHourly (s : State) : State :=
  let s1 : State := if s.led.ceHourAt + hour ≤ s.now then
      { s with led := { s.led with
          ceHourAt := s.now, ceHour := ceMarks s, ceLog := ((s.now, ceGrown s) :: s.led.ceLog).take 720
          ceTotal := (ceGrown s).foldl (fun m e => SMap.upd m 0 e.1 (· + e.2)) s.led.ceTotal } }
    else s
  if s1.led.agedAt + 24 * hour ≤ s1.now then
    { s1 with
      led := keepAged s1.led s1.now ((List.range tiles).map fun t => (t, Config.drift t (s1.free + t)))
      free := s1.free + tiles }
  else s1

def checkpoint (s : State) : State :=
  if ampUp s && decide (s.led.ckptAt + 60 * sec ≤ s.now) then
    let s1 := eraseOne (ledgerHourly s)
    { s1 with led := { s1.led with ckptAt := s1.now, onTime := s1.led.onTime + (s1.now - s1.led.ckptAt), ckpt := ckptWords s1 } }
  else s

/-- Byte `off` of a region: the log's records in the order of their numbers around it; a layout the spec does not give is a
free value. -/
def logByte (s : State) (off : Nat) : Byte :=
  let k := off / 32
  let n := s.led.written
  let back := (n + logCap - 1 - k) % logCap
  if k < logCap ∧ back < s.led.log.length then
    match s.led.log[back]? with
    | some e => (recBytes e none).getD (off % 32) 0xFF#8
    | none => 0xFF#8
  else Config.ledgerByte 0 s.led.erases off

/-- Byte of the crash log: 64 records of 64 KiB in rotation. -/
def crashByte (s : State) (off : Nat) : Byte :=
  let k := off / 65536
  let n := s.mg.crashN
  let back := (n + 63 - k) % 64
  Config.crashByte (if back < s.mg.crash.length then n - back else 0) (off % 65536)

def ledgerByte (s : State) (region off : Nat) : Byte :=
  if region = 0 then logByte s off
  else if region = 3 then crashByte s off
  else Config.ledgerByte region (s.led.ckptAt + s.led.faultList.length + s.led.training.length) off

/-- R420: 2 KiB of the selected region into the window, then done; not while an upload holds the window. -/
def windowCopy (s : State) : State :=
  if uploadOpen s then s
  else
    let sel := s.regN pgEarly 0 0x200
    let base := bitsOf sel 4 15 * 2048
    let word (i : Nat) : Nat := leNat ((List.range 4).map fun b => ledgerByte s (bitsOf sel 0 3) (base + 4 * i + b))
    ((List.range 512).foldl (fun t i => t.setRegN pgEarly 0 (0x800 + 4 * i) (word i)) s).setFld pgEarly 0 0x200 31 1 1

def crashRead (off len : Nat) (s : State) : State :=
  if s.mg.amp = .off then s
  else if 64 < len ∨ 2 ^ 22 < off + len then s.emit (.mctp 0x7E [0])
  else s.emit (.mctp 0x7E (1 :: (List.range len).map fun i => (crashByte s (off + i)).toNat))

end Sys2Proof.Machine
end

