-- ==== Sys2Proof/Machine/SecOps.lean ====
section
/-! DEFINITION. SPDM (17 R405-R406), key slots and their commands (17 R407-R408, 11 R288-R289), IDE keys (02 R25). The
bytes of SPDM messages and what their cryptography finds are not computed here: a command says what a message asks and
whether it verifies (notes/assumptions/56.md). -/

namespace Sys2Proof.Machine

/-! ### SPDM -/

/-- Response codes of SPDM 1.4 (notes/assumptions/56.md). -/
def spVersion : Nat := 0x04
def spCaps : Nat := 0x61
def spAlgs : Nat := 0x63
def spDigests : Nat := 0x01
def spCert : Nat := 0x02
def spChallenge : Nat := 0x03
def spMeas : Nat := 0x60
def spKeyEx : Nat := 0x64
def spFinish : Nat := 0x65
def spHeartbeat : Nat := 0x68
def spKeyUpdate : Nat := 0x69
def spEnd : Nat := 0x6C
def spChunkSend : Nat := 0x05
def spChunkGet : Nat := 0x06
def spVendor : Nat := 0x7E
def spError : Nat := 0x7F

/-- Error codes: invalid request, invalid session, unexpected request, decrypt error, session limit. -/
def erInvalid : Nat := 0x01
def erSession : Nat := 0x02
def erUnexpected : Nat := 0x04
def erDecrypt : Nat := 0x06
def erLimit : Nat := 0x0A

def say (tr code : Nat) (data : List Nat) (s : State) : State := s.emit (.spdm tr code data)
def fail (tr er : Nat) (s : State) : State := say tr spError [er] s

def conn (s : State) (tr : Nat) : SpConn := SMap.get s.mg.conns {} tr
def modConn (tr : Nat) (f : SpConn → SpConn) (s : State) : State := s.modMg fun m => { m with conns := SMap.upd m.conns {} tr f }

/-- A signed or generated answer: its bytes are free values. -/
def signed (tr code : Nat) (data : List Nat) (s : State) : State :=
  (say tr code (data ++ [Config.spdmData code s.free]) s).draw

/-- The management firmware answers SPDM only while it runs. -/
def spdm (f : State → State) (s : State) : State := if ampUp s then f s else s

/-- A request that needs negotiated algorithms. -/
def negotiated (tr : Nat) (f : State → State) (s : State) : State :=
  if (conn s tr).phase = 3 then f s else fail tr erUnexpected s

def getVersion (tr : Nat) (s : State) : State := say tr spVersion [0x14] (modConn tr (fun _ => { phase := 1 }) s)
def getCapabilities (tr : Nat) (s : State) : State :=
  if (conn s tr).phase = 1 then say tr spCaps [] (modConn tr (fun c => { c with phase := 2 }) s) else fail tr erUnexpected s
/-- `ok`: the requester offers the supported algorithms. -/
def negotiate (tr : Nat) (ok : Bool) (s : State) : State :=
  if (conn s tr).phase ≠ 2 then fail tr erUnexpected s
  else if ok then say tr spAlgs [] (modConn tr (fun c => { c with phase := 3 }) s) else fail tr erInvalid s

/-- Certificate slot 0 only. -/
def slot0 (tr slot : Nat) (f : State → State) (s : State) : State := if slot = 0 then f s else fail tr erInvalid s

def getCertificate (tr slot off len : Nat) (s : State) : State :=
  negotiated tr (slot0 tr slot fun t => say tr spCert ((List.range len).map fun i => (Config.certByte (off + i)).toNat) t) s

/-- Measurement `i`, or all six for 0xFF, 0 their number; with a signature where asked (R406). -/
def getMeasurements (tr ix : Nat) (sign : Bool) (s : State) : State :=
  negotiated tr (fun t =>
    let one (i : Nat) : List Nat := [i, (measurement t i).toNat]
    if ix = 0 then say tr spMeas [6] t
    else if ix = 0xFF ∨ (1 ≤ ix ∧ ix ≤ 6) then
      let data := if ix = 0xFF then ([1, 2, 3, 4, 5, 6].map one).flatten else one ix
      if sign then signed tr spMeas data t else say tr spMeas data t
    else fail tr erInvalid t) s

def sessOf (s : State) (i : Nat) : Option SpSess := s.mg.sess.find? fun x => x.id = i
def modSp (i : Nat) (f : SpSess → SpSess) (s : State) : State :=
  s.modMg fun m => { m with sess := m.sess.map fun x => if x.id = i then f x else x }
def dropSp (i : Nat) (s : State) : State := s.modMg fun m => { m with sess := m.sess.filter fun x => x.id ≠ i }

def freeSess (s : State) : Nat := ([1, 2, 3, 4].find? fun i => (sessOf s i).isNone).getD 0

/-- KEY_EXCHANGE: up to two sessions on a transport (R405); `mutual` asks for mutual authentication. -/
def keyExchange (tr slot : Nat) (both : Bool) (s : State) : State :=
  negotiated tr (slot0 tr slot fun t =>
    if 2 ≤ (t.mg.sess.filter fun x => x.tr = tr).length then fail tr erLimit t
    else
      let i := freeSess t
      signed tr spKeyEx [i] (t.modMg fun m => { m with sess := m.sess ++ [{ id := i, tr := tr, wantBoth := both }] })) s

/-- FINISH: `ok` that what the requester signed verifies, `root` the SHAKE256 of its chain's root key; a failure raises
0x7031. -/
def finish (i : Nat) (ok : Bool) (root : BitVec 256) (s : State) : State :=
  match sessOf s i with
  | none => fail 0 erSession s
  | some x =>
    if x.est then fail x.tr erUnexpected s
    else if ok then say x.tr spFinish [] (modSp i (fun y => { y with est := true, both := y.wantBoth, root := if y.wantBoth then root else 0 }) s)
    else fail x.tr erDecrypt ((dropSp i s).err pgSec 1 0x7031 0 (pack [(0, i)]))

/-- A message inside an established session. -/
def inSess (i : Nat) (f : SpSess → State → State) (s : State) : State :=
  match sessOf s i with
  | some x => if x.est then f x s else fail x.tr erUnexpected s
  | none => fail 0 erSession s

def chunkSend (tr handle seq : Nat) (data : List Byte) (last : Bool) (s : State) : State :=
  negotiated tr (fun t =>
    let take (got : List Byte) : State :=
      say tr spChunkSend [handle, seq] (modConn tr (fun c => { c with chunkIn := if last then none else some (handle, seq + 1, got) }) t)
    match (conn t tr).chunkIn with
    | none => if seq = 0 then take data else fail tr erInvalid t
    | some (h, n, got) => if h = handle ∧ n = seq then take (got ++ data)
      else fail tr erInvalid (modConn tr (fun c => { c with chunkIn := none }) t)) s

/-- CHUNK_GET: chunk `seq` of the large response of that handle, in order; its bytes are free values. -/
def chunkGet (tr handle seq : Nat) (s : State) : State :=
  negotiated tr (fun t =>
    match (conn t tr).chunkOut with
    | none => if seq = 0 then signed tr spChunkGet [handle, seq] (modConn tr (fun c => { c with chunkOut := some (handle, 1, 0) }) t)
              else fail tr erInvalid t
    | some (h, n, _) =>
      if h = handle ∧ n = seq then signed tr spChunkGet [handle, seq] (modConn tr (fun c => { c with chunkOut := some (h, n + 1, 0) }) t)
      else if seq = 0 then signed tr spChunkGet [handle, seq] (modConn tr (fun c => { c with chunkOut := some (handle, 1, 0) }) t)
      else fail tr erInvalid t) s

/-! ### Key commands (R407, R408) -/

/-- Statuses: 0 SUCCESS, 1 SLOT_BUSY, 2 BAD_SLOT, 3 NOT_AUTHORISED, 4 ABORTED (notes/assumptions/56.md). -/
def keySays (x : SpSess) (st : Nat) (s : State) : State := say x.tr spVendor [st] s

/-- The operator's authority: a session with mutual authentication whose root is the operator's. -/
def operatorOk (s : State) (x : SpSess) : Bool := x.both && decide (s.mg.operator = some x.root)

def notAuthorised (x : SpSess) (kind slot : Nat) (s : State) : State :=
  (keySays x 3 s).err pgSec 2 0x7032 (slot % 2 ^ 12 + kind % 4 * 2 ^ 12) (pack [(0, slot), (2, kind)])

def setOperator (i : Nat) (root : BitVec 256) (s : State) : State :=
  inSess i (fun x t =>
    if operatorOk t x || (x.both && t.mg.operator.isNone) then keySays x 0 (t.modMg fun m => { m with operator := some root })
    else notAuthorised x 0 0 t) s

def slotExists (kind slot : Nat) : Bool := (decide (kind = 1) && decide (slot < 4096)) || (decide (kind = 2) && decide (slot < 64))

def keyLoad (i kind slot : Nat) (key : BitVec 512) (s : State) : State :=
  inSess i (fun x t =>
    if !operatorOk t x then notAuthorised x kind slot t
    else if t.mg.tamper then keySays x 4 t
    else if !slotExists kind slot then keySays x 2 t
    else
      let k := keySlot t kind slot
      if k.key.isSome then keySays x 1 t
      else keySays x 0 (setKeySlot kind slot { key := some key, gen := nextGen k.gen } t)) s

/-- What the Steward does for a session of a cleared tenant (11 R289): requests end with DATA_LOSS, nothing in T1 or on the
wafer is kept. -/
def clearSess (s : State) (i : Nat) : State :=
  let s1 := cancelAll i cDataLoss false s
  let s2 := (dropObj i s1).modSess i fun v => { v with closing := true, spillPend := false }
  let s3 := ((reqsOf s2 i).filter fun r => r.2.inflight = 0).foldl (fun t r => endRequest r.1 t) s2
  if sessOpen s3 i && (reqsOf s3 i).isEmpty then closeSess i s3 else s3

/-- R289: the tenant's sessions and its prefix handles. -/
def tenantCleared (tenant : Nat) (s : State) : State :=
  let s1 := s.emit (.notice agAmp agStw 0 [tenant])
  let s2 := ((s1.serv.sess.filter fun e => e.2.tenant = tenant && decide (e.2.st ≠ .closed)).map (·.1)).foldl clearSess s1
  (s2.serv.handles.filter fun h => h.2.live && decide (h.2.tenant = tenant)).foldl (fun t h => releaseHandle h.1 t) s2

/-- Empty one slot, its generation rising; what a tenant's clear brings follows. -/
def clearSlotKey (kind slot : Nat) (s : State) : State :=
  let k := keySlot s kind slot
  let s1 := setKeySlot kind slot { key := none, gen := nextGen k.gen } s
  if kind = 1 ∧ k.key.isSome = true then tenantCleared slot s1 else s1

def keyClear (i kind slot : Nat) (s : State) : State :=
  inSess i (fun x t =>
    if !operatorOk t x then notAuthorised x kind slot t
    else if !slotExists kind slot then keySays x 2 t
    else if (keySlot t kind slot).key.isNone then keySays x 0 t
    else keySays x 0 (clearSlotKey kind slot t)) s

/-- ZEROISE: every tenant and model-owner slot, empty ones too (R407, R408). -/
def zeroise (s : State) : State :=
  let s1 := (List.range 4096).foldl (fun t n => clearSlotKey 1 n t) s
  ((List.range 64).foldl (fun t n => clearSlotKey 2 n t) s1).err pgSec 3 0x7033

def zeroiseCmd (i : Nat) (s : State) : State :=
  inSess i (fun x t => if operatorOk t x then keySays x 0 (zeroise t) else notAuthorised x 0 0 t) s

/-- TAMPER_N, once at each assertion (19 R446). -/
def tamperOn (s : State) : State :=
  if s.mg.tamper then s else (zeroise (s.modMg fun m => { m with tamper := true })).err pgSec 4 0x7034

/-- SEC_ZEROISE: armed for 1 ms. -/
def armed (s : State) : Bool := match s.mg.armedAt with
  | some t => decide (s.now < t + ms)
  | none => false

def setArmed (a : Option Nat) (s : State) : State := s.modMg fun m => { m with armedAt := a }
def zeroiseRun (s : State) : State := if armed s then zeroise (setArmed none s) else setArmed none s
def armExpire (s : State) : State := if s.mg.armedAt.isSome && !armed s then setArmed none s else s

/-! ### IDE keys (02 R25) -/

/-- IDE_KM inside an established session on the DOE mailbox: 2 programs a stream's key, 4 starts it, 5 stops it; codes of
the acknowledgements are PCIe's (notes/assumptions/57.md). -/
def ideKm (i : Nat) (cm : Bool) (op : Nat) (key : BitVec 256) (s : State) : State :=
  inSess i (fun x t =>
    let n := if cm then 1 else 0
    let put (v : Option (BitVec 256)) (u : State) : State :=
      u.modHost fun h => if cm then { h with ideCm := v } else { h with ideIo := v }
    if x.tr ≠ 0 then fail x.tr erInvalid t
    else if op = 0 then say 0 spVendor [1] t
    else if op = 2 then say 0 spVendor [3] (t.modMg fun m => { m with ideProg := SMap.put m.ideProg n key })
    else if op = 4 then match SMap.find t.mg.ideProg n with
      | some k => say 0 spVendor [6] (put (some k) t)
      | none => fail 0 erUnexpected t
    else if op = 5 then say 0 spVendor [6] (put none t)
    else fail 0 erInvalid t) s

end Sys2Proof.Machine
end

