-- ==== Sys2Proof/Machine/FamMgmt.lean ====
section
/-! DEFINITION. The commands of the management plane (17): sideband, time, updates, SPDM and keys, the management bus, events,
the ledger, replay. -/

namespace Sys2Proof.Machine

/-! ### Sideband ring (R396, R397, R399) -/

def nodeOk (n : Nat) : Bool := decide (n < nodes)
def sbOk (src dst idx : Nat) : Bool := nodeOk src && (nodeOk dst || decide (dst = 0xFF)) && decide (idx < 4096)

def execSbRead (src dst idx : Nat) (crcOk : Byte) (s : State) : Res := act (sbOk src dst idx) (sbRead src dst idx crcOk) s
def execSbWrite (src dst idx : Nat) (data : W32) (crcOk : Byte) (s : State) : Res :=
  act (sbOk src dst idx) (sbWrite src dst idx data crcOk) s
def execSbResponse (src idx : Nat) (data : W32) (crcOk : Byte) (s : State) : Res :=
  act (nodeOk src && decide (idx < 4096)) (sbResponse src idx data crcOk) s
def execSbClockGate (crcOk : Byte) (s : State) : Res := run (sbGate crcOk) s
def execSbTimeSync (node hops value : Nat) (crcOk : Byte) (s : State) : Res :=
  act (nodeOk node && decide (hops ≤ 83)) (timeSync node hops value crcOk) s
def execSbAlarm (src idx : Nat) (data : W32) (crcOk : Byte) (s : State) : Res :=
  act (nodeOk src && decide (idx < 4096)) (sbAlarm src idx data crcOk) s
def execTimeSyncTimer (s : State) : Res := run syncTimer s
def execSbRetryTimer (node idx : Nat) (s : State) : Res := act (nodeOk node) (sbRetry node idx) s

/-! ### Calendar, AMP restart, updates (R400, R404) -/

/-- AMP_CAL_OFFSET written: cal_valid. -/
def calWritten (s : State) : State := s.setFld pgMgmt 0 0x118 0 1 1
def restartCmd (s : State) : State := when (decide (s.mg.amp ≠ .off)) ampRestart s

def execCalOffsetWrite (ag : Nat) (v : BitVec 64) (s : State) : Res :=
  act (agentOk ag) (regStore ag pgMgmt 0x110 v.toNat calWritten) s

def execAmpRestart (ag : Nat) (s : State) : Res := act (agentOk ag) (regCmd ag pgMgmt 0x104 1 restartCmd) s

def execUpdate (off len : Nat) (g : Pkg) (s : State) : Res := run (update off len g) s
def execUpdateStart (len : Nat) (s : State) : Res := run (when (decide (s.mg.amp ≠ .off)) (updateStart len)) s
def execUpdateBlock (ix : Nat) (g : Pkg) (s : State) : Res := run (when (decide (s.mg.amp ≠ .off)) (updateBlock ix g)) s
def execUpdateTransferTimeout (s : State) : Res := run uploadTimeout s

/-- PLDM for Firmware Update: completion codes 0 accepted, 0x80 refused, 0x84 an update is running (notes/assumptions/58.md). -/
def pldmUpdate (len : Nat) (g : Pkg) (s : State) : State :=
  if updBusy s then s.emit (.mctp 1 [5, 0x84])
  else if len = 0 ∨ slotBytes24 < len then s.emit (.mctp 1 [5, 0x80])
  else writePackage g (s.emit (.mctp 1 [5, 0]))

def execPldmFwUpdate (len : Nat) (g : Pkg) (s : State) : Res :=
  run (when (ampUp s || decide (s.mg.amp = .recovery)) (pldmUpdate len g)) s

/-! ### SPDM (R405, R406) -/

def trOk (tr : Nat) : Bool := decide (tr < 2)

def execGetVersion (tr : Nat) (s : State) : Res := act (trOk tr) (spdm (getVersion tr)) s
def execGetCapabilities (tr : Nat) (s : State) : Res := act (trOk tr) (spdm (getCapabilities tr)) s
def execNegotiateAlgorithms (tr : Nat) (ok : Bool) (s : State) : Res := act (trOk tr) (spdm (negotiate tr ok)) s
def execGetDigests (tr : Nat) (s : State) : Res := act (trOk tr) (spdm (negotiated tr (signed tr spDigests [1]))) s
def execGetCertificate (tr slot off len : Nat) (s : State) : Res := act (trOk tr) (spdm (getCertificate tr slot off len)) s
def execChallenge (tr slot : Nat) (s : State) : Res :=
  act (trOk tr) (spdm (negotiated tr (slot0 tr slot (signed tr spChallenge [0])))) s
def execGetMeasurements (tr ix : Nat) (sign : Bool) (s : State) : Res := act (trOk tr) (spdm (getMeasurements tr ix sign)) s
def execKeyExchange (tr slot : Nat) (both : Bool) (s : State) : Res := act (trOk tr) (spdm (keyExchange tr slot both)) s
def execFinish (sess : Nat) (ok : Bool) (root : BitVec 256) (s : State) : Res := run (spdm (finish sess ok root)) s
def execHeartbeat (sess : Nat) (s : State) : Res := run (spdm (inSess sess fun x t => say x.tr spHeartbeat [] t)) s
def execKeyUpdate (sess : Nat) (s : State) : Res :=
  run (spdm (inSess sess fun x t => say x.tr spKeyUpdate [] (modSp sess (fun y => { y with updates := y.updates + 1 }) t))) s
def execEndSession (sess : Nat) (s : State) : Res :=
  run (spdm (inSess sess fun x t => say x.tr spEnd [] (dropSp sess t))) s
def execChunkSend (tr handle seq : Nat) (data : List Byte) (last : Bool) (s : State) : Res :=
  act (trOk tr) (spdm (chunkSend tr handle seq data last)) s
def execChunkGet (tr handle seq : Nat) (s : State) : Res := act (trOk tr) (spdm (chunkGet tr handle seq)) s

/-! ### Keys (R407, R408; 02 R25) -/

def execSetOperator (sess : Nat) (root : BitVec 256) (s : State) : Res := run (spdm (setOperator sess root)) s
def execKeyLoad (sess kind slot : Nat) (key : BitVec 512) (s : State) : Res := run (spdm (keyLoad sess kind slot key)) s
def execKeyClear (sess kind slot : Nat) (s : State) : Res := run (spdm (keyClear sess kind slot)) s
def execZeroise (sess : Nat) (s : State) : Res := run (spdm (zeroiseCmd sess)) s
def execIdeKm (sess : Nat) (cm : Bool) (op : Nat) (key : BitVec 256) (s : State) : Res := run (spdm (ideKm sess cm op key)) s

/-- VAON's work: it needs the auxiliary input alone. -/
def execTamperAssert (s : State) : Res := run (when (decide (s.mg.amp ≠ .off)) fun t => alarmPin (tamperOn t)) s
def execTamperRelease (s : State) : Res := run (fun t => alarmPin (t.modMg fun m => { m with tamper := false })) s

def execZeroiseArm (ag : Nat) (s : State) : Res :=
  act (agentOk ag) (regCmd ag pgSec 0x144 0x5A5A fun t => setArmed (some t.now) t) s
def execZeroiseRun (ag : Nat) (s : State) : Res := act (agentOk ag) (regCmd ag pgSec 0x144 0xA5A5 zeroiseRun) s
/-- Any other code. -/
def execZeroiseDisarm (ag v : Nat) (s : State) : Res :=
  act (agentOk ag && decide (v < 2 ^ 16) && decide (v ≠ 0x5A5A) && decide (v ≠ 0xA5A5)) (regCmd ag pgSec 0x144 v (setArmed none)) s
def execZeroiseArmExpire (s : State) : Res := run armExpire s

def execMeasSelect (ag ix : Nat) (s : State) : Res :=
  act (agentOk ag && decide (ix < 8)) (regStore ag pgSec 0x110 ix measLoad) s

/-! ### The management bus (R409, R410) -/

/-- MCTP control as DMTF's DSP0236 numbers it: 1 set the endpoint ID, 2 get it, 4 version, 5 message types; another is answered
as unsupported, completion code 5 (notes/assumptions/58.md). -/
def mctpControl (cmd arg : Nat) (s : State) : State :=
  if cmd = 1 then (s.modMg fun m => { m with eid := arg % 256 }).emit (.mctp 0 [1, 0, arg % 256])
  else if cmd = 2 then s.emit (.mctp 0 [2, 0, s.mg.eid])
  else if cmd = 4 then s.emit (.mctp 0 [4, 0, 1])
  else if cmd = 5 then s.emit (.mctp 0 [5, 0, 0, 1, 5, 6, 0x7E])
  else s.emit (.mctp 0 [cmd, 5])

def execMctpControl (cmd arg : Nat) (s : State) : Res := run (when (decide (s.mg.amp ≠ .off)) (mctpControl cmd arg)) s

def execPldmPollEvent (s : State) : Res :=
  run (when (ampUp s) fun t =>
    let u := mbxPolled t
    if (u.path 0).waiting = 0 then u.emit (.mctp 1 []) else bmcNext u) s

/-- Sensors: 0 inlet, 1 outlet, 2 flow, 3 differential pressure, 4 module power, 5 + t the hottest protective reading of
tile t, 77 the coolant state; their numbers are the model's (notes/assumptions/58.md). -/
def sensor (s : State) (id : Nat) : Option Nat :=
  if id = 0 then some (s.fld pgThmG 0 0x100 0 11)
  else if id = 1 then some (s.fld pgThmG 0 0x100 16 11)
  else if id = 2 then some (s.fld pgThmG 0 0x104 0 12)
  else if id = 3 then some (s.fld pgThmG 0 0x104 12 12)
  else if id = 4 then some (s.fld pgPwrG 0 0x10C 0 16)
  else if id < 77 then some (s.fld (pgThmT (id - 5)) 0 0x100 4 8)
  else if id = 77 then some (coolState s)
  else none

/-- A sensor's reading, or a byte of the PDR repository. -/
def sensorRead (pdr : Bool) (id : Nat) (s : State) : State :=
  if pdr then s.emit (.mctp 1 [2, 0, (Config.pdrByte id).toNat])
  else match sensor s id with
  | some v => s.emit (.mctp 1 [2, 0, v])
  | none => s.emit (.mctp 1 [2, 0x80])

def execPldmSensorRead (pdr : Bool) (id : Nat) (s : State) : Res := run (when (ampUp s) (sensorRead pdr id)) s
def execPldmFruRead (off len : Nat) (s : State) : Res :=
  run (when (ampUp s) fun t => t.emit (.mctp 1 (4 :: 0 :: (List.range len).map fun i => (Config.fruByte (off + i)).toNat))) s
/-- Up to 64 bytes; a longer one, or one beyond the region, gets an answer without data. -/
def execCrashRead (off len : Nat) (s : State) : Res := run (crashRead off len) s

/-! ### Events and the ledger (R413-R420) -/

/-- Paths: 0 the BMC's, 1 the ledger's, 2 + r event ring r's. -/
def pathOk (p : Nat) : Bool := decide (p < 2 + 2 ^ 20)

def execEvtWindowClose (path : Nat) (s : State) : Res := act (pathOk path) (evtWinClose path) s
def execEvtLost (path : Nat) (s : State) : Res := act (pathOk path) (when (ampUp s) (evtLost path)) s
def execEventRingPass (s : State) : Res := run ringPass s
def execBmcEventSend (s : State) : Res := run (when (ampUp s && bmcAsync s) bmcNext) s
def execLedgerRecordWrite (s : State) : Res := run ledgerRecord s
def execLedgerCheckpoint (s : State) : Res := run checkpoint s
def execLedgerWindowCopy (ag region off : Nat) (s : State) : Res :=
  act (agentOk ag && decide (region < 8) && decide (off < 2 ^ 15)) (regStore ag pgEarly 0x200 (region + off * 2 ^ 4) windowCopy) s

/-! ### Replay (R423-R426) -/

def execReplayStart (ag : Nat) (s : State) : Res := act (agentOk ag) (regCmd ag pgReplay 0x11C 1 replayStart) s
def execReplayAbort (ag : Nat) (s : State) : Res := act (agentOk ag) (regCmd ag pgReplay 0x11C 2 replayAbort) s
def execReplayDone (s : State) : Res := run replayDone s

end Sys2Proof.Machine
end

