-- ==== Sys2Proof/Machine/FamServe.lean ====
section
/-! DEFINITION. The commands of the serving engine (03): rings and their registers, fetches and submissions, admission
and the end of requests, timers, tenants, queries; and the movement of spilled sessions (11 R291-R297). -/

namespace Sys2Proof.Machine

/-! ### Ring registers (R100) -/

/-- SVC_RING_STAT: busy, state, err, index. -/
def ringStat (busy open_ : Bool) (err ix : Nat) (s : State) : State :=
  s.setRegN pgServ 0 0x118 ((if busy then 1 else 0) + (if open_ then 2 else 0) + err * 16 + ix * 256)

def ringSel (s : State) : Nat := s.fld pgServ 0 0x110 0 20

def ringDescRegs (s : State) : BitVec 256 :=
  BitVec.ofNat 256 ((List.range 8).foldl (fun a k => a + s.regN pgServ 0 (0x120 + 4 * k) * 2 ^ (32 * k)) 0)

/-- SVC_RING_CMD op 1: the descriptor in SVC_RING_DESC0-7 is checked and the ring opened (R61). -/
def ringOpenAct (s : State) : State :=
  let d := ringDescRegs s
  let r := ringSel s
  let e := descErr s r d false
  if e = 0 then ringStat false true 0 0 (openRing r d none s.now s)
  else ringStat false (s.ring r).isSome e 0 s

/-- SVC_RING_CMD op 2: the close starts; it takes effect with RING_CLOSE_DONE (R68). -/
def ringCloseAct (s : State) : State :=
  match s.openRing? (ringSel s) with
  | none => ringStat false false 6 0 s
  | some _ => ringStat true true 0 0 (s.modRing (ringSel s) fun g => { g with closing := true })

/-- SVC_RING_CMD op 3. -/
def ringReadAct (s : State) : State :=
  match s.openRing? (ringSel s) with
  | none => ringStat false false 6 0 s
  | some g =>
    let ix := if dKind g.desc = 0 then g.cons else g.prod
    let s1 := (List.range 8).foldl (fun t k => t.setRegN pgServ 0 (0x120 + 4 * k) (dBits g.desc (32 * k) 32)) s
    ringStat false true 0 ix s1

def execRingOpen (ag : Nat) (s : State) : Res := act (agentOk ag) (regCmd ag pgServ 0x114 1 ringOpenAct) s
def execRingClose (ag : Nat) (s : State) : Res := act (agentOk ag) (regCmd ag pgServ 0x114 2 ringCloseAct) s
def execRingRead (ag : Nat) (s : State) : Res := act (agentOk ag) (regCmd ag pgServ 0x114 3 ringReadAct) s

/-- RING_CLOSE_DONE (R68). -/
def execRingCloseDone (ring : Nat) (s : State) : Res :=
  run (fun t => match t.openRing? ring with
    | some g => if g.closing then ringStat false false 0 0 (closeRing ring t) else t
    | none => t) s

/-! ### Fetching (R66) -/

/-- Entries of the next read: up to 16, in contiguous memory. -/
def fetchLen (g : Ring) : Nat := Nat.min 16 (Nat.min g.used (ringSize g.desc - g.cons % ringSize g.desc))

def execSubmissionFetch (ring : Nat) (s : State) : Res :=
  run (when (subReady s ring) fun t => match t.ring ring with
    | none => t
    | some g =>
      let t1 := t.modRing ring fun x => { x with fetch := fetchLen g }
      if dLoc g.desc = 1 then t1 else cacheRead (g.addr g.cons) (128 * fetchLen g) t1) s

/-- Cut a byte string into `n` entries of 128 bytes. -/
def cutEntries : Nat → List Byte → List (List Byte)
  | 0, _ => []
  | n + 1, b => b.take 128 :: cutEntries n (b.drop 128)

/-- FETCH_READ_DONE: the entries read are processed in index order; `data` are the bytes of host memory, a ring in the
HDM range is read from there. -/
def execFetchReadDone (ring : Nat) (data : List Byte) (s : State) : Res :=
  run (fun t =>
    let ring := readKey t ring
    match t.ring ring with
    | none => t
    | some g =>
      if 0 < g.fetch ∧ g.held = [] then
        let b := if dLoc g.desc = 1 then Mem.read t.mem.t1 (g.addr g.cons) (128 * g.fetch)
          else cacheBytes t (g.addr g.cons) (padTo (128 * g.fetch) data)
        let u := if dLoc g.desc = 1 then t else cacheFill (g.addr g.cons) data t
        processSubs ring (cutEntries g.fetch b) (u.modRing ring fun x => { x with last := t.now })
      else t) s

/-- FETCH_READ_FAIL: the ring closes at the failing entry (R66). -/
def execFetchReadFail (ring : Nat) (s : State) : Res :=
  run (fun t =>
    let k := readKey t ring
    match t.ring k with
    | none => t
    | some g =>
      if 0 < g.fetch ∧ g.held = [] then
        (t.delRing k).err pgServ 0 0x400C ring (pack [(4, ring)]) false
          (some (if dAuxValid g.desc then some (dAux g.desc) else none))
      else t) s

/-- TOKEN_BUF_READ_DONE: the waiting submission is judged with its tokens, then the entries behind it. -/
def execTokenBufReadDone (ring : Nat) (toks : List W32) (ok : Bool) (s : State) : Res :=
  run (fun t =>
    let ring := readKey t ring
    match t.ring ring with
    | none => t
    | some g => match g.held with
      | [] => t
      | e :: rest =>
        let n := eCount e
        let tk := if dLoc g.desc = 1
          then (List.range n).map fun i => BitVec.ofNat 32 (leNat (Mem.read t.mem.t1 (eBuf e + 4 * i) 4))
          else (List.range n).map fun i => toks.getD i 0
        processSubs ring rest (finishSub ring e tk ok (t.modRing ring fun x => { x with held := [] }))) s

def execGenerate (ring : Nat) (e : List Byte) (s : State) : Res := run (submitOne opGenerate ring e) s
def execCancel (ring : Nat) (e : List Byte) (s : State) : Res := run (submitOne opCancel ring e) s
def execSessionOpen (ring : Nat) (e : List Byte) (s : State) : Res := run (submitOne opOpen ring e) s
def execSessionClose (ring : Nat) (e : List Byte) (s : State) : Res := run (submitOne opClose ring e) s
def execSessionSpill (ring : Nat) (e : List Byte) (s : State) : Res := run (submitOne opSpill ring e) s
def execSessionConfig (ring : Nat) (e : List Byte) (s : State) : Res := run (submitOne opConfig ring e) s
def execPrefixRegister (ring : Nat) (e : List Byte) (s : State) : Res := run (submitOne opRegister ring e) s
def execPrefixRelease (ring : Nat) (e : List Byte) (s : State) : Res := run (submitOne opRelease ring e) s
def execRollback (ring : Nat) (e : List Byte) (s : State) : Res := run (submitOne opRollback ring e) s

/-! ### Admission, restore, end -/

def execAdmission (req : Nat) (badWord : Option BadWord) (s : State) : Res := run (admitReq req badWord) s

/-- RESTORE_DONE (11 R294): `lost` numbers the records that could not be read. -/
def execRestoreDone (req : Nat) (lost : List Nat) (s : State) : Res :=
  run (fun t => match t.req req with
    | some r => if r.rst then finishRestore req lost t else t
    | none => t) s

/-- REQUEST_END (R85): an ENDING request at rest ends. -/
def execRequestEnd (req : Nat) (s : State) : Res :=
  run (fun t => match t.req req with
    | some r => if r.st = .ending ∧ r.atRest t = true then endRequest req t else t
    | none => t) s

/-- ENTRY_WRITE_FAIL (R463): the ring closes at the entry; a token ring's request ends CANCELLED without an entry. The
write that fails is the last one that the device has made to the ring, or, with `next`, the one that it makes next, an
entry or an index: that one then closes the ring (`pushEntry`, `endBatch`). -/
def execEntryWriteFail (w : FailedWrite) (s : State) : Res :=
  run (fun t => match t.openRing? w.ring with
    | none => t
    | some g =>
      if w.next then t.modRing w.ring fun x => { x with failNext := true }
      else ringFail w.ring (if dKind g.desc = 0 then g.cons else (g.prod + idx24 - 1) % idx24) t) s

/-- COALESCE_TIMER (R65): never for a batch whose index write-back has not been made; the end of such a batch looks at
the time itself (`vectorDue`). -/
def execCoalesceTimer (ring : Nat) (s : State) : Res :=
  run (fun t => match t.ring ring with
    | none => t
    | some g => match g.first with
      | some f => if g.batch = false ∧ dCoUs g.desc ≠ 0 ∧ f + dCoUs g.desc * us ≤ t.now then ringVector ring t else t
      | none => t) s

/-- DEADLINE_EXPIRE (R92, R85): LATE or DEADLINE_DROPPED; steps in flight finish under R91. To a request that is ENDING already
the condition applies as well (R76, R77). -/
def execDeadlineExpire (req : Nat) (s : State) : Res :=
  run (fun t => match t.req req with
    | some r => if late t r = true then toEnding req (if bitAt r.flags 0 then cDrop else cLate) false t else t
    | none => t) s

/-! ### Tenants and queries (R88, R100, R101) -/

def tenSel (s : State) : Nat := s.fld pgServ 0 0x140 0 12

/-- SVC_TEN_CMD op 1: refilled first, the level clipped to the new burst, set to it when the tenant is enabled. -/
def tenantWriteAct (s : State) : State :=
  let i := tenSel s
  let t := (s.tenant i).refill s.now
  let c := s.regN pgServ 0 0x154
  let t1 : Tenant := { t with
    rate := s.regN pgServ 0 0x14C, burst := s.fld pgServ 0 0x150 0 23, weight := bitsOf c 0 16, prio := bitsOf c 16 2,
    enable := bitAt c 18, group := bitsOf c 20 8 }
  let lv := if t1.enable && !t.enable then burstLevel t1 else min t.level (burstLevel t1)
  s.setTenant i { t1 with level := lv }

/-- SVC_TEN_CMD op 2. -/
def tenantReadAct (s : State) : State :=
  let t := s.tenant (tenSel s)
  let s1 := (s.setRegN pgServ 0 0x14C t.rate).setRegN pgServ 0 0x150 t.burst
  let s2 := s1.setRegN pgServ 0 0x154 (t.weight + t.prio * 2 ^ 16 + (if t.enable then 2 ^ 18 else 0) + t.group * 2 ^ 20)
  s2.setReg pgServ 0 0x158 (levelWord t)

def execTenantWrite (ag : Nat) (s : State) : Res := act (agentOk ag) (regCmd ag pgServ 0x144 1 tenantWriteAct) s
def execTenantRead (ag : Nat) (s : State) : Res := act (agentOk ag) (regCmd ag pgServ 0x144 2 tenantReadAct) s

/-- Deferred time so far, in units of 100 µs. -/
def deferred100 (s : State) (r : Req) : Nat :=
  Nat.min 0xFFFF ((r.deferred + (match r.deferSince with
    | some t => deferClock s r - t
    | none => 0)) / 100000)

/-- The four words of a query (R101). -/
def queryWords (s : State) (kind id : Nat) : List Nat :=
  if kind = 0 then
    match s.req id with
    | none => [0, 0, 0, 0]
    | some r =>
      let d := deferred100 s r
      -- BUDGET_DEFERRED applies to a request that completed (R76): to an ENDING one that nothing else ends
      let c := (if r.st = .ending ∧ d ≠ 0 ∧ r.completed = true then r.setCond cBudget else r).cond
      [r.session + r.st.code * 2 ^ 16, r.delivered,
       d + c % 2 ^ 16 * 2 ^ 16, r.ring]
  else
    let v := s.sess id
    let a := activeReq s id
    [v.st.code + v.part * 2 ^ 4 + v.tenant * 2 ^ 8 + v.policy * 2 ^ 20 + v.prio * 2 ^ 22, v.kvLen, v.log.length,
     match a with
     | some (rid, _) => rid + 2 ^ 16
     | none => 0]

def queryAct (s : State) : State :=
  let w := queryWords s (s.fld pgServ 0 0x160 16 1) (s.fld pgServ 0 0x160 0 16)
  let s1 := (w.zipIdx).foldl (fun t e => t.setRegN pgServ 0 (0x164 + 4 * e.2) e.1) s
  s1.setFld pgServ 0 0x160 31 1 1

/-- QUERY: a write of SVC_QRY_SEL. -/
def execQuery (ag : Nat) (v : W32) (s : State) : Res := act (agentOk ag) (regStore ag pgServ 0x160 v.toNat queryAct) s

/-! ### Spilled sessions (R81, 11 R291, R296, R297) -/

def expired (s : State) (o : SpillObj) : Bool :=
  match o.expiry with
  | some t => decide (t ≤ s.now)
  | none => false

def execT1TtlExpire (sess : Nat) (s : State) : Res :=
  run (fun t => match (t.sess sess).obj with
    | some o => if (t.sess sess).st = .t1 ∧ o.moving = false ∧ expired t o = true
        then t1Expire sess (t.bump pgMap 0 0x18C) else t
    | none => t) s

def execT2TtlExpire (sess : Nat) (s : State) : Res :=
  run (fun t => match (t.sess sess).obj with
    | some o => if (t.sess sess).st = .t2 ∧ expired t o = true then releaseSess sess true (t.bump pgMap 0 0x18C) else t
    | none => t) s

/-- The page of a spill record, while its chain holds it. -/
def recPage (s : State) (p i : Nat) (r : SpillRec) : Option Nat := ((s.pool p).chain i r.chain).pages[r.idx]?

/-- DMA channels 6 and 7 read the slots of a page as its record takes them (11 R291 item 3). -/
def spillRead (s : State) (p i : Nat) (r : SpillRec) : SpillRec := match recPage s p i r with
  | some pg => { r with bytes := pageRecord s p pg r.fill r.trailer }
  | none => r

/-- The beats of these reads at the holder's ports. -/
def spillBeats (p i : Nat) (s : State) (r : SpillRec) : State := match recPage s p i r with
  | some pg => (slotParts (s.pool p).fmt r.fill ++ (if r.trailer then [(0x3F00, 256)] else [])).foldl (fun t (x : Nat × Nat) =>
      pageReads p pg x.1 x.2 t) s
  | none => s

/-- SPILL_DONE (11 R291 item 4): wafer pages released, SPILLED_T1 or, written to the window, SPILLED_T2. -/
def spillFinish (i : Nat) (s : State) : State :=
  let v := s.sess i
  match v.obj with
  | none => s
  | some o =>
    -- a page that the tag check bars gives no record: it is lost, as its core reports (06 R167, R168)
    let bad := tagBadPage s v.part i
    let first := (bad.bind (SMap.find (s.pool v.part).pages)).map (·.firstPos)
    let s := match bad with
      | some pg => tagMismatch v.part pg 0 s
      | none => s
    let o : SpillObj := { o with kvLen := Nat.min o.kvLen (first.getD o.kvLen), recs := o.recs.map (spillRead s v.part i) }
    let s0 := o.recs.foldl (spillBeats v.part i) s
    let s1 := freeChains v.part i s0
    -- a record that an empty slot refuses is not written (11 R288)
    let s2 := if !holdsAny s v.part i then s1
      else if o.tier = 1 then (extWrite (spillAcc s i) (.spill i) o.head.length (o.recs.map (·.bytes)).flatten s1).2.bump pgMap 0 0x180
      else t2Write v.tenant o s1
    s2.modSess i fun w => { w with
      st := if o.tier = 1 then .t1 else .t2
      kvLen := Nat.min v.kvLen o.kvLen
      evicted := w.evicted || decide (o.kvLen < v.kvLen)
      recompTo := if o.kvLen < v.kvLen then Nat.max w.recompTo v.kvLen else w.recompTo
      obj := some { o with entered := s.now, expiry := if o.tier = 1 then ttl1 s else ttl2 s } }

def execSpillDone (sess : Nat) (s : State) : Res :=
  run (when ((s.sess sess).st = .spilling) (spillFinish sess)) s

/-- T2_MOVE_DONE (11 R296): the T1 extents are freed; the T2 time to live starts. -/
def execT2MoveDone (sess : Nat) (s : State) : Res :=
  run (fun t => match (t.sess sess).obj with
    | some o => if (t.sess sess).st = .t1 ∧ o.moving = true then moveDone sess t else t
    | none => t) s

/-- T2_TRANSFER_FAIL (11 R297): a move or a spill loses the object in both tiers; a restore loses the records not yet
read. -/
def t2Fail (sess : Nat) (unread : List Nat) (s : State) : State :=
  match (s.sess sess).obj with
  | none => s
  | some o =>
    let er (t : State) : State := t.err pgMap 0 0x2046 sess (pack [(0, sess)])
    if ((s.sess sess).st = .t1 ∧ o.moving = true) ∨ ((s.sess sess).st = .spilling ∧ o.tier = 2) then
      er (releaseSess sess true s)
    else match (reqsOf s sess).find? fun e => e.2.rst with
      | some (rid, _) => if o.tier = 2 then er (finishRestore rid unread s) else s
      | none => s

def execT2TransferFail (sess : Nat) (unread : List Nat) (s : State) : Res := run (t2Fail sess unread) s

end Sys2Proof.Machine
end

