-- ==== Sys2Proof/Machine/FamWe.lean ====
section
/-! DEFINITION. The commands of loads, epochs and adapters (12). -/

namespace Sys2Proof.Machine

/-- A write of SVC_LD_CMD: op in [2:0], partition in [6:3]. -/
def ldCmd (ag op p : Nat) (f : State → State) (s : State) : State := regCmd ag pgEpoch 0x140 (op + 8 * p) f s

def execLoadBase (ag part : Nat) (s : State) : Res := act (agentOk ag && partOk part) (ldCmd ag 1 part (loadStart 1 part)) s
def execLoadEpoch (ag part : Nat) (s : State) : Res := act (agentOk ag && partOk part) (ldCmd ag 2 part (loadStart 2 part)) s
def execLoadAdapter (ag part : Nat) (s : State) : Res := act (agentOk ag && partOk part) (ldCmd ag 3 part (loadStart 3 part)) s
def execAdapterRemove (ag part : Nat) (s : State) : Res := act (agentOk ag && partOk part) (ldCmd ag 4 part (adapterRemove part)) s

/-- Op 5: the next segment is where SVC_LD_ADDR and SVC_LD_LEN say; need_seg clears. -/
def nextSegment (s : State) : State :=
  match loadOf s with
  | none => s
  | some l =>
    let seg := if l.done < l.length then some (s.reg64 pgEpoch 0 0x148, s.reg64 pgEpoch 0 0x150) else none
    (s.modWe fun w => { w with load := some { l with needSince := none, seg := seg } }).setFld pgEpoch 0 0x160 2 1 0

def execLoadNextSegment (ag : Nat) (s : State) : Res := act (agentOk ag) (ldCmd ag 5 0 nextSegment) s
def execLoadAbort (ag : Nat) (s : State) : Res := act (agentOk ag) (ldCmd ag 6 0 (abortLoad none)) s

/-- Codes that a segment's content can fail with: the loader's own reading of flows and trees, MX options, memory errors,
span modules, a write refused under an empty slot, sizes. -/
def contentCodes : List Nat := [0x4063, 0x4064, 0x4065, 0x406C, 0x406A, 0x406B]

/-- The code that a segment's sections fail with: a patch table refused, a section that crosses the boundary. -/
def segmentCode (img : List Byte) (done : Nat) : Nat :=
  let secs := secsOf img
  firstCode [
    (0x4063, patchTablesBad img done),
    (0x406A, secs.any fun c => decide (c.off < done) && decide (done < c.off + c.len))]

/-- The loader has read the whole of a segment: its bytes join the image and need_seg sets; the wait for another segment is timed
while more is to come (R305). A plain data unit that cannot be read is an uncorrectable word to the loader. -/
def segmentConsumed (err : Nat) (s : State) : State :=
  match loadOf s with
  | none => s
  | some l => match l.seg with
    | none => s
    | some (a, n) =>
      if contentCodes.contains err then loadStop l err s
      else
        match t1Read { req := 4 } a (if hdmBytes s < a + n then 0 else Nat.min n (l.length - l.done)) [] s with
        | (.error _, t) => loadStop l 0x406A t
        | (.ok b, t) =>
          let img := l.image ++ b
          let l1 : Load := { l with image := img, done := img.length, seg := none }
          let code := if hdmBytes s < a + n then 0x406A else segmentCode img l1.done
          if code ≠ 0 then loadStop l code t
          else
            let since := if l1.done < l1.length then some s.now else none
            (t.modWe fun w => { w with load := some { l1 with needSince := since } }).setFld pgEpoch 0 0x160 2 1 1

def execLoadSegmentConsumed (err : Nat) (s : State) : Res := run (segmentConsumed err) s

def segTimeout (s : State) : State :=
  match loadOf s with
  | none => s
  | some l => match l.needSince with
    | some t => if t + s.fld pgEpoch 0 0x164 0 16 * sec < s.now then loadStop l 0x406A s else s
    | none => s

def execLoadSegTimeout (s : State) : Res := run segTimeout s
def execLoadDone (p : Placement) (s : State) : Res := run (loadDoneCmd p) s
def execAdapterNewest (part slot : Nat) (s : State) : Res := act (partOk part && decide (slot < 1024)) (adapterNewest part slot) s
def execEpochRetainExpire (part : Nat) (s : State) : Res := act (partOk part) (retainExpire part) s
def execEpochFree (part : Nat) (s : State) : Res := act (partOk part) (epochFree part) s
def execAdapterQuery (ag : Nat) (v : W32) (s : State) : Res := act (agentOk ag) (regStore ag pgEpoch 0x170 v.toNat adapterStat) s

end Sys2Proof.Machine
end

