-- ==== Sys2Proof/Machine/FamXfer.lean ====
section
/-! DEFINITION. The completion of queue transfers (07 R199, R200, 11 R285, R287, R288, 13 R335). -/

namespace Sys2Proof.Machine

/-- The oldest transfer of a queue that has not completed: its place. -/
def nextXfer (c : Core) (q : Nat) : Option (Nat × QXfer) :=
  ((SMap.get c.qs [] q).zipIdx.find? fun e => !e.1.done).map fun e => (e.2, e.1)

def markDone (site q k : Nat) (s : State) : State :=
  s.modCore site fun c => { c with qs := SMap.upd c.qs [] q fun l => l.modify k fun x => { x with done := true } }

/-- The access of a core window (11 R288): owner, slot; requester 1. -/
def winAccess (w : FWin) : Access :=
  if w.kind = 0 then { owner := 2, slot := w.key % 64, req := 1 } else { owner := 1, slot := w.key, req := 1 }

/-- A read that fails: no element is written, the core enters FAULTED with the code (R285). -/
def xferFault (site q k code : Nat) (s : State) : State :=
  haltCore site ((markDone site q k s).modCore site fun c => { c with fcode := code })

/-- An access of a core to host memory under an empty slot, reported at controller 0 (notes/assumptions/31.md). -/
def hostKeyErr (far : Nat) (s : State) : State := emcErr (far % 2048) 1 0x7020 s

def loadDone (site q k : Nat) (x : QXfer) (w : FWin) (data : List Byte) (errs : List SymErr) (s : State) : State :=
  let a := winAccess w
  let n := rBytes x.desc
  let put (b : List Byte) (t : State) : State :=
    markDone site q k (countOperand site (rElems x.desc) (t.modCore site fun c => c.writeRegion x.desc b))
  if w.host then
    if (keySlot s a.owner a.slot).key = none then xferFault site q k 0x7020 (hostKeyErr x.far s)
    else put (hostCipher s a.owner a.slot true x.far (padTo n data)) s
  else match t1Read a x.far n errs s with
    | (.error c, t) => xferFault site q k c t
    | (.ok b, t) => put b t

def storeDone (site q k : Nat) (x : QXfer) (w : FWin) (s : State) : State :=
  let a := winAccess w
  let b := (s.core site).readRegion x.desc
  if w.host then
    if (keySlot s a.owner a.slot).key = none then markDone site q k (hostKeyErr x.far s)
    else markDone site q k (countOperand site (rElems x.desc) (s.emit (.hostWrite x.far (hostCipher s a.owner a.slot false x.far b))))
  else
    -- lines of the HDM range that the host may hold are snooped first; the transfer completes after the answers (02 R23)
    let held := heldLines s x.far b.length
    if held.isEmpty then markDone site q k (countOperand site (rElems x.desc) (t1Write a x.far b s).2)
    else held.foldl (fun t l => t.emit (.bisnp l)) s

/-- QUEUE_TRANSFER_DONE: the oldest transfer of the queue that is not complete completes; `data` is what host memory
returns, `errs` the wrong symbols of the words read. A remote store completes when every packet is answered; one of T1
only where a live route leads to each channel (11 R279). -/
def xferDone (site q : Nat) (data : List Byte) (errs : List SymErr) (s : State) : State :=
  match nextXfer (s.core site) q with
  | none => s
  | some (k, x) =>
    match farWin s site x.far (rBytes x.desc) x.store with
    | none => markDone site q k s
    | some w =>
      if w.remote then (if x.tags = [] then markDone site q k s else s)
      else if !w.host && !t1Route s site x.far (rBytes x.desc) x.store then s
      else if x.store then storeDone site q k x w s
      else loadDone site q k x w data errs s

def execQueueTransferDone (site q : Nat) (data : List Byte) (errs : List SymErr) (s : State) : Res :=
  act (decide (site < sites) && decide (q < 24)) (when (s.core site).on (xferDone site q data errs)) s

end Sys2Proof.Machine
end

