-- ==== Sys2Proof/Machine/WriteOps.lean ====
section
/-! DEFINITION. Register writes of any page and width: what a permitted write does, what a discarded one records (00 R6,
R11, 02 R40-R48, 20 R455-R456). -/

namespace Sys2Proof.Machine

/-! ### What a permitted write does -/

/-- Fields named "clear", whose W1C write clears more than its bit (02, 09, 11, 14). -/
def clearHook (pg off : Nat) (v : W32) (s : State) : State :=
  if v.getLsbD 31 then
    match kindOf pg with
    | .glob => if off = 0x118 then s.setReg pg 0 0x118 0 else s
    | .core => if off = 0x310 then s.setReg pg 0 0x310 0 else s
    | .emc => if off = 0x10C then s.setReg pg 0 0x10C 0 else s
    | .pwrT => if off = 0x118 then (s.setRegN pg 0 0x118 0xFF03FF).setReg64 pg 0 0x120 0 else s
    | _ => s
  else s

/-- Selectors whose write takes a snapshot (15 THM_SITE_SEL). -/
def selectHook (pg off : Nat) (s : State) : State :=
  if kindOf pg = .thmT ∧ off = 0x140 then thmSnap (numOf pg) s else s

/-- The write of SVC_RING_CMD, by its op. -/
def ringCmdAct (op : Nat) (s : State) : State :=
  if op = 1 then ringOpenAct s else if op = 2 then ringCloseAct s else if op = 3 then ringReadAct s else s

def tenCmdAct (op : Nat) (s : State) : State :=
  if op = 1 then tenantWriteAct s else if op = 2 then tenantReadAct s else s

def winCmdAct (op : Nat) (s : State) : State :=
  if op = 1 then winOpen s else if op = 2 then winClose s else if op = 3 then winRead s else s

/-- SCHED_CTRL: each bit written as 1 acts. -/
def schedCtrlAct (p v : Nat) (s : State) : State :=
  let s1 := if bitAt v 0 then schedPause p s else s
  let s2 := if bitAt v 1 then clearHolder p 0 s1 else s1
  if bitAt v 2 then postCause p 5 s2 else s2

/-- SVC_LD_CMD, by its op and partition. -/
def ldCmdAct (v : Nat) (s : State) : State :=
  let op := bitsOf v 0 3
  let p := bitsOf v 3 4
  if op = 0 then s
  else if op ≤ 3 then loadStart op p s
  else if op = 4 then adapterRemove p s
  else if op = 5 then nextSegment s
  else if op = 6 then abortLoad none s
  else s

/-- MLK_CTRL of a port: enable as it is written, then a retrain. -/
def portCtrlAct (p v : Nat) (s : State) : State :=
  let s1 := portEnable p (bitAt v 0) s
  if bitAt v 1 then retrainCmd p s1 else s1

/-- SEC_ZEROISE: 0x5A5A arms, 0xA5A5 runs, any other value disarms. -/
def zeroiseAct (v : Nat) (s : State) : State :=
  if v = 0x5A5A then setArmed (some s.now) s else if v = 0xA5A5 then zeroiseRun s else setArmed none s

/-- What a stored write starts: the field's action, a query, a clear, a snapshot (00 R11, the registers' chapters). Fields
of one register act in the order of their bits. -/
def writeAct (ag : Nat) (w : RegWrite) (s : State) : State :=
  let v := w.v
  match w.k with
  | .glob =>
    if w.off = 0x140 then (if v % 4 = 0 then s else alarmPin (resetRequest ag (v % 4) s))
    else clearHook w.pg w.off (BitVec.ofNat 32 v) s
  | .serv =>
    if w.off = 0x114 then ringCmdAct (v % 4) s
    else if w.off = 0x144 then tenCmdAct (v % 4) s
    else if w.off = 0x160 then queryAct s
    else s
  | .sched => if w.off = 0x120 then schedCtrlAct w.n v s else s
  | .kv => if w.off = 0x130 then pageQueryAct s else s
  | .epoch => if w.off = 0x140 then ldCmdAct v s else if w.off = 0x170 then adapterStat s else s
  | .core =>
    if w.off = 0x308 then debugRun w.n s
    else if w.off = 0x314 then (if bitAt v 1 then spadClear w.n s else s) else clearHook w.pg w.off (BitVec.ofNat 32 v) s
  | .fab => if w.off = 0x124 then (if v % 4 = 1 then tabRead w.n s else if v % 4 = 2 then tabWrite ag w.n s else s) else s
  | .port => if w.off = 0x104 then portCtrlAct w.n v s else s
  | .group => if w.off = 0x124 then winCmdAct (v % 4) s else s
  | .thmT => if w.off = 0x160 then (if bitAt v 0 then recalWrite w.n s else s) else selectHook w.pg w.off s
  | .tile => if w.off = 0x100 then tileReset ag w.n (v % 1024) s else s
  | .mgmt =>
    if w.off = 0x104 then (if bitAt v 0 then restartCmd s else s)
    else if w.off = 0x110 then calWritten s
    else s
  | .sec => if w.off = 0x144 then zeroiseAct (v % 2 ^ 16) s else if w.off = 0x110 then measLoad s else s
  | .early => if w.off = 0x200 then windowCopy s else s
  | .replay =>
    if w.off = 0x11C then
      let s1 := if bitAt v 0 then replayStart s else s
      if bitAt v 1 then replayAbort s1 else s1
    else s
  | .map => if w.off = 0x130 then keyStat s else s
  | _ => clearHook w.pg w.off (BitVec.ofNat 32 v) s

/-- A permitted write: its fields are stored, then they act. The doorbell registers of the host and the T2 window's
enable are written by the operation that knows what their change means. -/
def writeEffect (ag : Nat) (w : RegWrite) (s : State) : State :=
  if w.pg = pgHostDb ∧ w.off = 0x100 then hostBellClear (BitVec.ofNat 32 w.v) s
  else if w.pg = pgHostDb ∧ w.off = 0x104 then hostBellMaskSet (BitVec.ofNat 32 w.v) s
  else if w.k = .map ∧ w.off = 0x11C then (if bitAt w.v 0 then t2Enable s else t2Disable s)
  else writeAct ag w (w.store s)

/-! ### Words -/

/-- The window of AMP_LDG_SEL takes writes of the host while an upload through it is open (17 R404). -/
def windowOpen (s : State) (ag : Nat) : Bool :=
  match s.mg.upload with
  | some u => decide (ag = agHost) && decide (s.now < u.last + 10 * sec)
  | none => false

/-- A write of the window that R43 bars. -/
def windowRefused (s : State) (ag off : Nat) (v : W32) : Bool :=
  windowOpen s ag && decide (v ≠ s.reg pgEarly 0 off) && barred s ag pgEarly

def windowWrite (ag off : Nat) (v : W32) (s : State) : State :=
  if windowRefused s ag off v then s.reject pgEarly off Cls.l.code 3
  else if windowOpen s ag then s.setReg pgEarly 0 off v else s

def isWindow (pg off : Nat) : Bool := decide (pg = pgEarly) && decide (0x800 ≤ off)

/-- FAB_TSTAT.err: the last table command was discarded, one that names op 3 too (10 R272). -/
def tabErr (pg off : Nat) (s : State) : State :=
  if kindOf pg = .fab ∧ off = 0x124 then s.setFld pg 0 0x128 1 1 1 else s

/-- An aligned 4-byte write to a block page: discarded whole with one CFG_REJECT record, or its effect (00 R6, 02 R40). -/
def writeWord (ag pg off : Nat) (v : W32) (s : State) : State :=
  if off = 8 then blkCtrl ag pg v.toNat s
  else if off < 0x100 then hdrWrite ag pg off v s
  else if isWindow pg off then windowWrite ag off v s
  else match wordWrite ag pg off v s with
    | (none, t) => t
    | (some w, t) => match w.refusal t ag with
      | some e => tabErr pg off (t.reject pg e.1 e.2.1 e.2.2)
      | none => writeEffect ag w t

/-- An aligned 4-byte write anywhere. -/
def writeAt (ag bar off : Nat) (v : W32) (s : State) : State :=
  if isMbx bar off then mbxWrite ag ((off - 0x2000) / 0x100) (off % 0x100) v s
  else match accessPage bar off with
    | some _ => writeWord ag (pageOfAccess bar off) (off % 4096) v s
    | none => if isMsixTab bar off then msixWrite (off - 0x8000) 4 (v.zeroExtend 64) s else s

/-! ### Two registers in one write -/

/-- Actions that their chapter discards in a state (10 R272, 15 R373, 18 R437, R445). -/
def actRefused (ag : Nat) (w : RegWrite) (s : State) : Bool :=
  match w.k with
  | .thmT => decide (w.off = 0x160) && bitAt w.v 0 && recalRefused w.n s
  | .glob => decide (w.off = 0x140) && decide (w.v % 4 ≠ 0) && resetRefused ag s
  | .tile => decide (w.off = 0x100) && decide (w.v % 1024 ≠ 0) && !tileResetOk ag w.n (w.v % 1024) s
  | .fab => decide (w.off = 0x124) &&
      ((decide (w.v % 4 = 1) && (tabSel s w.n).isNone) || (decide (w.v % 4 = 2) && tabWriteRefused ag w.n s))
  | _ => false

/-- Whether an aligned 4-byte write to a block page is discarded. -/
def wordRefused (ag pg off : Nat) (v : W32) (s : State) : Bool :=
  if off = 8 then ctrlRefused s ag pg v.toNat
  else if off < 0x100 then decide (off = 0x014) && maskRefused s ag pg v
  else if isWindow pg off then windowRefused s ag off v
  else (wordWrite ag pg off v s).1.any fun w => (w.refusal s ag).isSome || actRefused ag w s

def refusedAt (ag bar off : Nat) (v : W32) (s : State) : Bool :=
  if isMbx bar off then mbxRefused ag ((off - 0x2000) / 0x100) (off % 0x100) v s
  else (accessPage bar off).isSome && wordRefused ag (pageOfAccess bar off) (off % 4096) v s

/-- The low word of a 64-bit register: only staged (R46). -/
def isStaged (bar off : Nat) (s : State) : Bool :=
  (accessPage bar off).isSome && !isMbx bar off && decide (0x100 ≤ off % 4096) &&
    (regWriteOf s (pageOfAccess bar off) (off % 4096) 0).any fun w => w.d.wide && decide (w.off = off % 4096)

/-- The page whose CFG_REJECT records a write of a bad width: for a mailbox the mailbox block page (R48). -/
def rejectPage (bar off : Nat) : Option Nat :=
  if isMbx bar off then some pgMbx else (accessPage bar off).map fun _ => pageOfAccess bar off

/-- A pair whose high half is discarded: of the state `u` that the two halves would leave only the record stays, CFG_REJECT with
its ERR_STAT bit, and FAB_TSTAT of a fabric page (00 R6, 10 R272). -/
def keepRecord (pg : Nat) (u s : State) : State :=
  let t := s.modBlk pg fun b => { b with cfgRej := (u.blk pg).cfgRej, errStat := b.errStat ||| ((u.blk pg).errStat &&& 0x80000000#32) }
  if kindOf pg = .fab then t.setReg pg 0 0x128 (u.reg pg 0 0x128) else t

/-- An aligned 8-byte write: low word, then high word (R46). Over two 32-bit registers it is one access: the high half is judged
as the low half leaves the device, and where either is discarded the whole write is, with one record, that of the lower half
that is discarded (00 R6, 02 R40; notes/assumptions/69.md). -/
def writePair (ag bar off : Nat) (lo hi : W32) (s : State) : State :=
  let t := writeAt ag bar off lo s
  if isStaged bar off s then writeAt ag bar (off + 4) hi t
  else if refusedAt ag bar off lo s then t
  else
    let u := writeAt ag bar (off + 4) hi t
    if refusedAt ag bar (off + 4) hi t then (match rejectPage bar off with
      | some pg => keepRecord pg u s
      | none => s)
    else u

/-- A register write of `n` bytes (R40, R46, R48). A write of 1 or 2 bytes, or an unaligned one, is recorded with reason 2 at
a reserved offset of a page too: R48 and ground 1 of R40 judge width and alignment for the whole access before any field,
so before 00 R9 could ignore it (DESIGN CHOICE, notes/assumptions/69.md). -/
def writeCmd (ag bar off n : Nat) (v : W64) (s : State) : State :=
  if !regionLive s ag bar off then (if ag = agHost then dropEarly s else s)
  else if bar = 2 then doorbellWrite off n v s
  else if isMsixTab bar off then msixWrite (off - 0x8000) n v s
  else if n = 4 ∧ off % 4 = 0 then writeAt ag bar off (v.truncate 32) s
  else if n = 8 ∧ off % 8 = 0 then writePair ag bar off (v.truncate 32) ((v >>> 32).truncate 32) s
  else match rejectPage bar off with
    | some pg => s.reject pg off 3 2
    | none => s

end Sys2Proof.Machine
end

