-- ==== Sys2Proof/Machine/FamReg.lean ====
section
/-! DEFINITION. The commands that write a register of any page (02 R40, R46, R48, 20 R456). -/

namespace Sys2Proof.Machine

def execRegisterWrite (ag bar off n : Nat) (v : W64) (s : State) : Res :=
  act (agentOk ag && barOk bar (off + n - 1) && widthOk n) (writeCmd ag bar off n v) s
/-- A 4-byte write of the low word of a 64-bit register (R46). -/
def execReg64LowWrite (ag bar off : Nat) (v : W32) (s : State) : Res :=
  act (agentOk ag && barOk bar (off + 3)) (writeCmd ag bar off 4 (v.zeroExtend 64)) s
/-- A 4-byte write of the high word (R46). -/
def execReg64HighWrite (ag bar off : Nat) (v : W32) (s : State) : Res :=
  act (agentOk ag && barOk bar (off + 3)) (writeCmd ag bar off 4 (v.zeroExtend 64)) s

/-- The node answers for a page whose island is off (20 R456). -/
def execSidebandPageAccess (ag off : Nat) (write : Bool) (v : W32) (s : State) : Res :=
  act (agentOk ag && barOk 0 off && decide (off % 4 = 0)) (when (nodeServed s (pageOfAccess 0 off)) fun t =>
    if write then writeCmd ag 0 off 4 (v.zeroExtend 64) t else readCmd ag 0 off 4 t) s

end Sys2Proof.Machine
end

