-- ==== Sys2Proof/Machine/FamScalar.lean ====
section
/-! DEFINITION. Scalar arithmetic, scalar memory, control and system instructions of a core (07 R186-R189). -/

namespace Sys2Proof.Machine

/-- A scalar result: g[d] := f of operand a, operand b and the register's old value. -/
def scalarOp (site op : Nat) (w : BitVec 56) (ecc : Ecc) (f : W64 → W64 → W64 → W64) (s : State) : Res :=
  simple site op w ecc [] (fun i c => c.setG (fD i) (f (c.greg (fA i)) (opB c i) (c.greg (fD i)))) s

def execIAdd (site : Nat) (w : BitVec 56) (ecc : Ecc) (s : State) : Res := scalarOp site 0x00 w ecc (fun a b _ => a + b) s
def execISub (site : Nat) (w : BitVec 56) (ecc : Ecc) (s : State) : Res := scalarOp site 0x01 w ecc (fun a b _ => a - b) s
def execIAnd (site : Nat) (w : BitVec 56) (ecc : Ecc) (s : State) : Res := scalarOp site 0x02 w ecc (fun a b _ => a &&& b) s
def execIOr (site : Nat) (w : BitVec 56) (ecc : Ecc) (s : State) : Res := scalarOp site 0x03 w ecc (fun a b _ => a ||| b) s
def execIXor (site : Nat) (w : BitVec 56) (ecc : Ecc) (s : State) : Res := scalarOp site 0x04 w ecc (fun a b _ => a ^^^ b) s
def execIShl (site : Nat) (w : BitVec 56) (ecc : Ecc) (s : State) : Res :=
  scalarOp site 0x05 w ecc (shiftBy 0x05 fun a n => a <<< n) s
def execIShr (site : Nat) (w : BitVec 56) (ecc : Ecc) (s : State) : Res :=
  scalarOp site 0x06 w ecc (shiftBy 0x06 fun a n => a >>> n) s
def execISra (site : Nat) (w : BitVec 56) (ecc : Ecc) (s : State) : Res :=
  scalarOp site 0x07 w ecc (shiftBy 0x07 fun a n => a.sshiftRight n) s
def execIMul (site : Nat) (w : BitVec 56) (ecc : Ecc) (s : State) : Res := scalarOp site 0x08 w ecc (fun a b _ => a * b) s
/-- The high half of the signed product. -/
def execIMulh (site : Nat) (w : BitVec 56) (ecc : Ecc) (s : State) : Res :=
  scalarOp site 0x09 w ecc (fun a b _ => BitVec.ofInt 64 (a.toInt * b.toInt / 2 ^ 64)) s
def execIMulhu (site : Nat) (w : BitVec 56) (ecc : Ecc) (s : State) : Res :=
  scalarOp site 0x0A w ecc (fun a b _ => BitVec.ofNat 64 (a.toNat * b.toNat / 2 ^ 64)) s
/-- Division by zero gives a value the spec does not state (notes/assumptions/4.md). -/
def execIDivu (site : Nat) (w : BitVec 56) (ecc : Ecc) (s : State) : Res :=
  scalarOp site 0x0B w ecc (fun a b d => if b = 0 then Config.scalar 0x0B a b d else a / b) s
def execIRemu (site : Nat) (w : BitVec 56) (ecc : Ecc) (s : State) : Res :=
  scalarOp site 0x0C w ecc (fun a b d => if b = 0 then Config.scalar 0x0C a b d else a % b) s
def execISlt (site : Nat) (w : BitVec 56) (ecc : Ecc) (s : State) : Res :=
  scalarOp site 0x0D w ecc (fun a b _ => boolW (a.slt b)) s
def execISltu (site : Nat) (w : BitVec 56) (ecc : Ecc) (s : State) : Res :=
  scalarOp site 0x0E w ecc (fun a b _ => boolW (a.ult b)) s
def execIMin (site : Nat) (w : BitVec 56) (ecc : Ecc) (s : State) : Res :=
  scalarOp site 0x0F w ecc (fun a b _ => if b.slt a then b else a) s
def execIMax (site : Nat) (w : BitVec 56) (ecc : Ecc) (s : State) : Res :=
  scalarOp site 0x10 w ecc (fun a b _ => if a.slt b then b else a) s
def execIMinu (site : Nat) (w : BitVec 56) (ecc : Ecc) (s : State) : Res :=
  scalarOp site 0x11 w ecc (fun a b _ => if b.ult a then b else a) s
def execIMaxu (site : Nat) (w : BitVec 56) (ecc : Ecc) (s : State) : Res :=
  scalarOp site 0x12 w ecc (fun a b _ => if a.ult b then b else a) s

/-- One-operand instructions take source a; MOV with bit i takes the immediate (notes/assumptions/24.md). -/
def execIClz (site : Nat) (w : BitVec 56) (ecc : Ecc) (s : State) : Res :=
  scalarOp site 0x13 w ecc (fun a _ _ => BitVec.ofNat 64 (clz64 a)) s
def execIPopc (site : Nat) (w : BitVec 56) (ecc : Ecc) (s : State) : Res :=
  scalarOp site 0x14 w ecc (fun a _ _ => BitVec.ofNat 64 (popc64 a)) s
def execIMov (site : Nat) (w : BitVec 56) (ecc : Ecc) (s : State) : Res :=
  simple site 0x15 w ecc [] (fun i c => c.setG (fD i) (if fI i then fImmS i else c.greg (fA i))) s
/-- MOVHI and SEL: the spec names them and gives no operand roles; the value is free (notes/assumptions/4.md). -/
def execIMovhi (site : Nat) (w : BitVec 56) (ecc : Ecc) (s : State) : Res := scalarOp site 0x16 w ecc (Config.scalar 0x16) s
def execISel (site : Nat) (w : BitVec 56) (ecc : Ecc) (s : State) : Res := scalarOp site 0x17 w ecc (Config.scalar 0x17) s

/-! ### Scalar memory (R187, R196, 09 R240) -/

/-- The byte address g[a] + imm. -/
def byteAddr (c : Core) (i : Nat) : Nat := (c.greg (fA i) + fImmS i).toNat
def spadBytes : Nat := 24 * 1024 * 1024

/-- A load of `n` bytes: g[d] := the little-endian value, zero-extended. -/
def scalarLoad (site op n : Nat) (w : BitVec 56) (ecc : Ecc) (s : State) : Res :=
  insnAct site op w (fun i t =>
    let a := byteAddr (t.core site) i
    issueWith site i ecc [⟨decide (spadBytes < a + n), 0x1002, none, 0⟩] [((a / 32, (a + n - 1) / 32), false)] (fun u =>
      let x := leNat (Mem.read (u.core site).spad a n)
      retire site ((u.core site).pc + 8)
        (countOperand site (byteElems a n) (u.modCore site fun c => c.setG (fD i) (BitVec.ofNat 64 x)))) t) s

def execILd8u (site : Nat) (w : BitVec 56) (ecc : Ecc) (s : State) : Res := scalarLoad site 0x20 1 w ecc s
def execILd16u (site : Nat) (w : BitVec 56) (ecc : Ecc) (s : State) : Res := scalarLoad site 0x21 2 w ecc s
def execILd32u (site : Nat) (w : BitVec 56) (ecc : Ecc) (s : State) : Res := scalarLoad site 0x22 4 w ecc s
def execILd64 (site : Nat) (w : BitVec 56) (ecc : Ecc) (s : State) : Res := scalarLoad site 0x23 8 w ecc s

/-- A store of the low `n` bytes of operand b: a read-modify-write of its elements. -/
def scalarStore (site op n : Nat) (w : BitVec 56) (ecc : Ecc) (s : State) : Res :=
  insnAct site op w (fun i t =>
    let a := byteAddr (t.core site) i
    let r := (a / 32, (a + n - 1) / 32)
    issueWith site i ecc
      [⟨decide (spadBytes < a + n), 0x1002, none, 0⟩,
       ⟨(byteElems a n).any fun e => wregRow t site (e / 64), 0x1008, some r, 0⟩] [(r, true)] (fun u =>
      retire site ((u.core site).pc + 8) (storeBeats site a n
        (u.modCore site fun c => { c with spad := Mem.write c.spad a (leBytes n (opB c i).toNat) }))) t) s

def execISt8 (site : Nat) (w : BitVec 56) (ecc : Ecc) (s : State) : Res := scalarStore site 0x24 1 w ecc s
def execISt16 (site : Nat) (w : BitVec 56) (ecc : Ecc) (s : State) : Res := scalarStore site 0x25 2 w ecc s
def execISt32 (site : Nat) (w : BitVec 56) (ecc : Ecc) (s : State) : Res := scalarStore site 0x26 4 w ecc s
def execISt64 (site : Nat) (w : BitVec 56) (ecc : Ecc) (s : State) : Res := scalarStore site 0x27 8 w ecc s

/-! ### Control (R187, R188) -/

/-- A branch: target, condition, link. A target that is no multiple of 8 is illegal (R188). -/
def branch (site op : Nat) (w : BitVec 56) (ecc : Ecc) (target : Core → Nat → Nat) (cond : W64 → W64 → Bool) (link : Bool)
    (s : State) : Res :=
  insnAct site op w (fun i t =>
    let c := t.core site
    let tg := target c i
    issueWith site i ecc [⟨decide (tg % 8 ≠ 0), 0x1002, none, 0⟩] [] (fun u =>
      let next := c.pc + 8
      let u1 := if link then u.modCore site fun d => d.setG (fD i) (BitVec.ofNat 64 (next % 2 ^ 25)) else u
      retire site (if cond (c.greg (fA i)) (opB c i) then tg else next) u1) t) s

def pcRel (c : Core) (i : Nat) : Nat := (BitVec.ofNat 64 c.pc + fImmS i).toNat

def execIBeq (site : Nat) (w : BitVec 56) (ecc : Ecc) (s : State) : Res := branch site 0x30 w ecc pcRel (fun a b => a == b) false s
def execIBne (site : Nat) (w : BitVec 56) (ecc : Ecc) (s : State) : Res := branch site 0x31 w ecc pcRel (fun a b => a != b) false s
def execIBlt (site : Nat) (w : BitVec 56) (ecc : Ecc) (s : State) : Res := branch site 0x32 w ecc pcRel (fun a b => a.slt b) false s
def execIBge (site : Nat) (w : BitVec 56) (ecc : Ecc) (s : State) : Res := branch site 0x33 w ecc pcRel (fun a b => !a.slt b) false s
def execIBltu (site : Nat) (w : BitVec 56) (ecc : Ecc) (s : State) : Res := branch site 0x34 w ecc pcRel (fun a b => a.ult b) false s
def execIBgeu (site : Nat) (w : BitVec 56) (ecc : Ecc) (s : State) : Res := branch site 0x35 w ecc pcRel (fun a b => !a.ult b) false s
def execIJal (site : Nat) (w : BitVec 56) (ecc : Ecc) (s : State) : Res := branch site 0x36 w ecc pcRel (fun _ _ => true) true s
/-- JALR has the target of its row of R187, as every instruction of the row (notes/assumptions/26.md). -/
def execIJalr (site : Nat) (w : BitVec 56) (ecc : Ecc) (s : State) : Res := branch site 0x37 w ecc pcRel (fun _ _ => true) true s

/-! ### System (R189) -/

/-- What SYSRD returns. The island's cycle count is a free value (notes/assumptions/4.md). -/
def sysValue (s : State) (site idx : Nat) : W64 :=
  let b := s.regN (pgCore site) 0 0x104
  match idx with
  | 0 => BitVec.ofNat 64 (bitsOf b 0 14)
  | 1 => BitVec.ofNat 64 (bitsOf b 16 4 + bitsOf b 20 8 * 2 ^ 8)
  | 2 => Config.fresh s.free
  | 3 => BitVec.ofNat 64 (s.nodeNow (siteTile site))
  | 4 => BitVec.ofNat 64 (s.reg64 (pgCore site) 0 0x130)
  | _ => if s.b0 then 1 else 0

def execISysrd (site : Nat) (w : BitVec 56) (ecc : Ecc) (s : State) : Res :=
  insnAct site 0x38 w (fun i t => issueWith site i ecc [⟨decide (5 < fImm i), 0x1002, none, 0⟩] [] (fun u =>
    let v := u.modCore site fun c => c.setG (fD i) (sysValue u site (fImm i))
    retire site ((u.core site).pc + 8) (if fImm i = 2 then v.draw else v)) t) s

def execISyswr (site : Nat) (w : BitVec 56) (ecc : Ecc) (s : State) : Res :=
  insnAct site 0x39 w (fun i t => issueWith site i ecc [⟨decide (fImm i ≠ 4), 0x1002, none, 0⟩] [] (fun u =>
    retire site ((u.core site).pc + 8) (clearOvf site ((u.core site).greg (fA i)) u)) t) s

/-- FENCE: in this model every tensor command has completed and no entry but queue-held ones is taken when the next
instruction issues (notes/assumptions/1.md), so it retires. -/
def execIFence (site : Nat) (w : BitVec 56) (ecc : Ecc) (s : State) : Res := simple site 0x3A w ecc [] (fun _ c => c) s
def execINop (site : Nat) (w : BitVec 56) (ecc : Ecc) (s : State) : Res := simple site 0x3B w ecc [] (fun _ c => c) s

end Sys2Proof.Machine
end

