-- ==== Sys2Proof/Machine/TensorOps.lean ====
section
/-! DEFINITION. The tensor array's commands: operand formats, the product, conversion on output, fused attention (07
R190-R194, 06 R169-R170, 08 R220-R226). -/

namespace Sys2Proof.Machine

/-! ### Fields and formats -/

/-- The accumulator tile: [25:18], or with acc_reg bits [7:0] of the register in [22:18] (R190). -/
def tileOf (c : Core) (i : Nat) : Nat := if bitAt i 52 then (c.greg (bitsOf i 18 5)).toNat % 256 else bitsOf i 18 8

def xFmt : Nat → Option TF
  | 0 => some (.el .e4m3) | 1 => some (.el .e5m2) | 2 => some (.el .e3m2) | 3 => some (.el .e2m3) | 4 => some (.blk .g4)
  | 5 => some (.el .bf16)
  | _ => none
def wFmt : Nat → Option TF
  | 0 => some (.blk .g4) | 1 => some (.blk .g3) | 2 => some (.blk .g2) | 3 => some (.blk .k4) | 4 => some (.el .e4m3)
  | 5 => some (.el .e5m2) | 6 => some (.el .e3m2) | 7 => some (.el .e2m3) | 8 => some (.el .bf16)
  | _ => none

/-- The first `n` blocks of a byte string. -/
def blocksOf (f : TF) : (n : Nat) → List Byte → List (List Fp × Fp)
  | 0, _ => []
  | n + 1, b => f.block (b.take f.bytes) :: blocksOf f n (b.drop f.bytes)

/-- Write a tile row, and set the flag where an element tells of it. -/
def putRow (site t r : Nat) (x : List (W32 × Bool)) (s : State) : State :=
  setOvf site t (x.any (·.2)) (s.modCore site fun c => c.setAccRow t r (x.map (·.1)))

/-- The elements of a region that a command of `n` bytes touches, and the last of them where it is touched in part. -/
def used (d : W64) (n : Nat) : List Nat := (rElems d).take ((n + 31) / 32)
def lastPart (d : W64) (n : Nat) : List Nat := if n % 32 = 0 then [] else (used d n).getLast?.toList

/-! ### TMM (R190, R220) -/

structure TmmArgs where
  dx : W64
  dw : W64
  tile : Nat
  add : Bool
  fx : Option TF
  fw : Option TF
  k16 : Nat
  m : Nat
  sc : W64
  deriving DecidableEq, Repr

def tmmArgs (c : Core) (i : Nat) : TmmArgs :=
  { dx := c.greg (fD i), dw := c.greg (fA i), tile := tileOf c i, add := bitAt i 26, fx := xFmt (bitsOf i 27 3),
    fw := wFmt (bitsOf i 30 4), k16 := bitsOf i 34 12, m := bitsOf i 46 6 + 1, sc := c.greg (bitsOf i 53 5) }

def tfBytes (f : Option TF) : Nat := match f with | some x => x.bytes | none => 0

def tmmChk (c : Core) (a : TmmArgs) : List Chk :=
  [⟨a.fx.isNone || a.fw.isNone || decide (a.k16 = 0) || decide (1024 < a.k16), 0x1002, none, 0⟩,
   ⟨decide (63 < a.tile), 0x1001, none, 0⟩,
   ⟨rBad a.dx || decide (32 * rCols a.dx < a.k16 * tfBytes a.fx) || decide (rRows a.dx < a.m), 0x1003, some (rRange a.dx), 0⟩,
   ⟨rBad a.dw || decide (rBytes a.dw < 64 * a.k16 * tfBytes a.fw), 0x1003, some (rRange a.dw), 0⟩,
   needEntries c 2 (rRange a.dx)]

/-- Rows 0 to m - 1 of the tile. -/
def tmmRun (site : Nat) (a : TmmArgs) (s : State) : State :=
  match a.fx, a.fw with
  | some fx, some fw =>
    let c := s.core site
    let wb := c.readRegion a.dw
    let cols := (List.range 64).map fun j => blocksOf fw a.k16 (wb.drop (j * a.k16 * fw.bytes))
    let bf := decide (fx = .el .bf16) || decide (fw = .el .bf16)
    let scale := rne ((f32 ((a.sc >>> 32).truncate 32)).mul (f32 (a.sc.truncate 32)))
    (List.range a.m).foldl (fun t r =>
      let xs := blocksOf fx a.k16 (Mem.read c.spad (rRowAt a.dx r) (a.k16 * fx.bytes))
      putRow site a.tile r (cols.zipIdx.map fun w =>
        tmmElem bf xs w.1 scale (if a.add then some (f32 (c.accW a.tile r w.2)) else none)) t) s
  | _, _ => s

/-- The elements of X that a TMM reads: of each of its m rows, those that hold K values. -/
def xElems (a : TmmArgs) : List Nat :=
  ((List.range a.m).map fun r => ((rElems a.dx).drop (r * rCols a.dx)).take ((a.k16 * tfBytes a.fx + 31) / 32)).flatten

/-! ### TOUT (R193, R224) -/

def outEF : Nat → Option EF
  | 0 => some .fp32 | 1 => some .bf16 | 2 => some .e4m3 | 3 => some .e5m2 | 6 => some .e3m2 | 7 => some .e2m3
  | _ => none
/-- Bytes of one converted row of 64 values. -/
def outRowBytes : Nat → Nat
  | 0 => 256 | 1 => 128 | 2 => 64 | 3 => 64 | 4 => 36 | 5 => 36 | _ => 48

/-- One row converted: `v` are the scaled values, `rnd e` the random bits of element e of the row. -/
def outRow (fmt : Nat) (v : List Fp) (rnd : Nat → Option Nat) : List Byte :=
  match outEF fmt with
  | some f => packCodes (if f = .fp32 then 32 else 1 + f.ew + f.mw) (outRowBytes fmt) (v.zipIdx.map fun e => f.conv e.1 (rnd e.2))
  | none =>
    let bl := (List.range 4).map fun b => encodeBlock ((v.drop (16 * b)).take 16) (decide (fmt = 5)) fun k => rnd (16 * b + k)
    if fmt = 4 then (bl.map fun x => packCodes 4 8 x.1 ++ leBytes 1 x.2).flatten
    else (bl.map fun x => packCodes 4 8 x.1).flatten ++ (bl.map fun x => leBytes 1 x.2).flatten

/-- The key of a core's stochastic-rounding generator (R226). -/
def srKey (s : State) (site : Nat) : W64 :=
  let b := s.regN (pgCore site) 0 0x104
  BitVec.ofNat 64 (bitsOf b 16 4 * 2 ^ 16 + bitsOf b 0 14)

def toutBytes (s : State) (site i : Nat) : List Byte :=
  let c := s.core site
  let t := tileOf c i
  let sc := f32 ((c.greg (fA i)).truncate 32)
  let ctr := BitVec.ofNat 64 (s.reg64 (pgCore site) 0 0x170)
  ((List.range (bitsOf i 33 6 + 1)).map fun r =>
    outRow (bitsOf i 27 4) ((c.accRow t r).map fun x => (rne ((f32 x).mul sc)).1)
      fun k => if bitAt i 31 then some (srElem (srKey s site) ctr (64 * r + k)) else none).flatten


/-- Bytes that a TOUT writes. -/
def toutLen (i : Nat) : Nat := (bitsOf i 33 6 + 1) * outRowBytes (bitsOf i 27 4)

def toutChk (s : State) (site i : Nat) : List Chk :=
  let c := s.core site
  let d := c.greg (fD i)
  let fmt := bitsOf i 27 4
  let n := toutLen i
  [⟨decide (7 < fmt) || (bitAt i 31 && !decide (2 ≤ fmt ∧ fmt ≤ 5)), 0x1002, none, 0⟩,
   ⟨decide (63 < tileOf c i), 0x1001, none, 0⟩,
   ⟨rBad d || decide (rBytes d < n), 0x1003, some (rRange d), 0⟩,
   ⟨(used d n).any fun e => wregRow s site (e / 64), 0x1008,
    some ((used d n).headD 0, (used d n).getLastD 0), 0⟩,
   needEntries c 1 (rRange d)]

def toutRun (site i : Nat) (s : State) : State :=
  let c := s.core site
  let t := tileOf c i
  let m := bitsOf i 33 6 + 1
  let s1 := s.modCore site fun d => d.writeRegion (c.greg (fD i)) (toutBytes s site i)
  let s2 := if bitAt i 32 then
      s1.modCore site fun d => (List.range m).foldl (fun e r => e.setAccRow t r (List.replicate 64 0)) d
    else s1
  if bitAt i 31 then
    s2.setReg64 (pgCore site) 0 0x170 ((s2.reg64 (pgCore site) 0 0x170 + 16 * m) % 2 ^ 64)
  else s2

/-! ### TLD (R193, R222) -/

def tldRun (site i : Nat) (s : State) : State :=
  let c := s.core site
  let b := c.readRegion (c.greg (fA i))
  let n := if bitAt i 27 then 2 else 4
  (List.range (bitsOf i 33 6 + 1)).foldl (fun t r =>
    putRow site (tileOf c i) r ((List.range 64).map fun k =>
      let x := leNat ((b.drop ((64 * r + k) * n)).take n)
      loadAcc (if bitAt i 27 then bfWide x else BitVec.ofNat 32 x)) t) s

/-- Bytes that a TLD reads. -/
def tldLen (i : Nat) : Nat := (bitsOf i 33 6 + 1) * (if bitAt i 27 then 128 else 256)

def tldChk (c : Core) (i : Nat) : List Chk :=
  let d := c.greg (fA i)
  [⟨decide (63 < tileOf c i), 0x1001, none, 0⟩,
   ⟨rBad d || decide (rBytes d < tldLen i), 0x1003, some (rRange d), 0⟩,
   needEntries c 1 (rRange d)]

/-! ### FATT (R194, 06 R169-R170) -/

structure FattArgs where
  dq : W64
  list : Nat
  pages : Nat
  heads : Nat
  fmt : Nat
  vis : Nat
  qpos : Nat
  mode : Nat
  qrows : Nat
  mask : Nat
  sc : W32
  tile : Nat
  base : Nat
  deriving DecidableEq, Repr

def fattArgs (s : State) (site i : Nat) : FattArgs :=
  let c := s.core site
  let b := c.readRegion (c.greg (fA i))
  let n (o k : Nat) : Nat := leNat ((b.drop o).take k)
  { dq := c.greg (fD i), list := n 0 4 % 2 ^ 20, pages := n 4 2, heads := n 6 1, fmt := n 7 1, vis := n 8 4, qpos := n 12 4,
    mode := n 16 1, qrows := n 18 2, mask := n 20 4 % 2 ^ 20, sc := BitVec.ofNat 32 (n 24 4), tile := bitsOf i 18 8,
    base := match boundAt s site with
      | some (p, k) => ((s.pool p).kvCore k).base
      | none => 0 }

def fattFrames (s : State) (site : Nat) : Nat :=
  match boundAt s site with
  | some (p, k) => ((s.pool p).kvCore k).frames
  | none => 0

/-- The four read ranges: query, parameters, page list, the KV frame region (R195). -/
def fattRanges (s : State) (site : Nat) (c : Core) (i : Nat) (a : FattArgs) : List (Nat × Nat) :=
  [rRange a.dq, rRange (c.greg (fA i)), (a.list, a.list + (a.pages * 8 + 31) / 32 - 1),
   (a.base / 32, a.base / 32 + 512 * fattFrames s site - 1)]

def fattChk (s : State) (site i : Nat) (a : FattArgs) : List Chk :=
  let c := s.core site
  let dp := c.greg (fA i)
  [⟨!rBad dp && decide (64 ≤ rBytes dp) && (decide (a.heads = 0) || decide (8 < a.heads) || decide (1 < a.fmt) ||
      decide (2 < a.mode) || decide (a.qrows = 0) || decide (64 < a.qrows)), 0x1002, none, 0⟩,
   ⟨decide (63 < a.tile + 2), 0x1001, none, 0⟩,
   ⟨!fusedSite site, 0x1030, none, 0⟩,
   ⟨rBad a.dq || decide (rBytes a.dq < 128 * a.qrows), 0x1003, some (rRange a.dq), 0⟩,
   ⟨rBad dp || decide (rBytes dp < 64), 0x1003, some (rRange dp), 0⟩,
   ⟨decide (12288 * 64 < a.list + (a.pages * 8 + 31) / 32), 0x1003, some (a.list, a.list + (a.pages * 8 + 31) / 32 - 1), 0⟩,
   needEntries c 4 (rRange a.dq)]

/-- What a FATT reads at the ports, an operand each (09 R242): parameters, query rows, ancestor masks in mode 2, the page list, and
the frames it names. -/
def fattReads (c : Core) (i : Nat) (a : FattArgs) : List (List Nat) :=
  [used (c.greg (fA i)) 64, used a.dq (128 * a.qrows)] ++ (if a.mode = 2 then [byteElems (32 * a.mask) (8 * a.qrows)] else []) ++
  (if a.pages = 0 then [] else [byteElems (32 * a.list) (8 * a.pages)]) ++
  (List.range a.pages).map fun e =>
    byteElems (a.base + 16384 * bitsOf (leNat (Mem.read c.spad (32 * a.list + 8 * e) 8)) 0 10) 16384

/-- A visible slot: its K blocks and its 128 V values. -/
structure Slot where
  k : List (List Fp × Fp)
  v : List Fp
  deriving DecidableEq, Repr

/-- The K or V of a page slot as blocks; K4 elements and scales joined in the 9-byte form (R217). -/
def slotBlocks (m : Mem) (base fmt j which : Nat) : List (List Fp × Fp) :=
  let rd (x : Nat × Nat) : List Byte := Mem.read m (base + x.1) x.2
  let r := slotRanges fmt j
  if fmt = 0 then
    let e := rd (r.getD which (0, 0))
    let sc := rd (r.getD (which + 2) (0, 0))
    (List.range 8).map fun b => (TF.blk .k4).block ((e.drop (8 * b)).take 8 ++ (sc.drop b).take 1)
  else blocksOf (.el .e4m3) 8 (rd (r.getD which (0, 0)))

/-- Whether slot `j` of a page is visible to query row `row` (06 R169, 05 R142). -/
def slotVisible (m : Mem) (a : FattArgs) (pbase idx row j : Nat) : Bool :=
  let slots := if a.fmt = 0 then 112 else 63
  let pos := leNat (Mem.read m (pbase + 0x3FF0) 4) + j
  let n := idx * slots + j
  decide (n < a.vis) && !bitAt (leNat (Mem.read m (pbase + 0x3FE0) 16)) j &&
  (match a.mode with
   | 0 => true
   | 1 => decide (pos ≤ a.qpos + row)
   | _ => decide (pos < a.qpos) || (decide (pos < a.qpos + 64) && bitAt (leNat (Mem.read m (32 * a.mask + 8 * row) 8)) (pos - a.qpos)))

/-- The visible slots of a query row, in chain order. -/
def visibleSlots (m : Mem) (a : FattArgs) (row : Nat) : List Slot :=
  ((List.range a.pages).map fun e =>
    let w := leNat (Mem.read m (32 * a.list + 8 * e) 8)
    let pb := a.base + 16384 * bitsOf w 0 10
    ((List.range (if a.fmt = 0 then 112 else 63)).filter fun j => slotVisible m a pb (bitsOf w 32 32) row j).map fun j =>
      (⟨slotBlocks m pb a.fmt j 0, ((slotBlocks m pb a.fmt j 1).map fun b => b.1.map fun x => x.mul b.2).flatten⟩ : Slot)).flatten

/-- Running values of R170; `msat` that rne32 has saturated a score, or met an infinity there. -/
structure Attn where
  m : W32 := 0xFF800000#32
  l : Fp := .fin false 0 0
  o : List Fp := List.replicate 128 (.fin false 0 0)
  sat : Bool := false
  lsat : Bool := false
  msat : Bool := false
  deriving DecidableEq, Repr

def subF (a b : W32) : W32 := toF32 ((f32 a).add (f32 b).neg)
def gtF (a b : W32) : Bool := !(f32 a).isNan && !(f32 b).isNan && decide (orderKey 32 b.toNat < orderKey 32 a.toNat)

/-- One block of at most 64 visible slots with their scores. -/
def attnBlock (a : Attn) (b : List (W32 × Slot)) : Attn :=
  let mb := BitVec.ofNat 32 (b.foldl (fun x e => fMax .fp32 x e.1.toNat) 0xFF800000)
  let f := f32 (vexp (subF a.m mb))
  let a1 : Attn := if gtF mb a.m then
      let l := rne (a.l.mul f)
      { a with m := mb, l := l.1, lsat := a.lsat || l.2, o := a.o.map fun x => (rne (x.mul f)).1 }
    else a
  b.foldl (fun u e =>
    let p := f32 (bfWide (bfRound (vexp (subF e.1 a1.m))))
    let o := (u.o.zip e.2.v).map fun x => rne (x.1.add (p.mul x.2))
    let l := rne (u.l.add p)
    { u with l := l.1, lsat := u.lsat || l.2 || l.1.isNan, o := o.map (·.1), sat := u.sat || o.any fun x => x.2 || x.1.isNan }) a1

def attnBlocks : (fuel : Nat) → Attn → List (W32 × Slot) → Attn
  | 0, a, _ => a
  | n + 1, a, l => if l.isEmpty then a else attnBlocks n (attnBlock a (l.take 64)) (l.drop 64)

/-- The partial of one query row. -/
def attnRow (m : Mem) (a : FattArgs) (q : List (List Fp × Fp)) (row : Nat) : Attn :=
  let vs := (visibleSlots m a row).map fun v => (tmmElem false q v.k (f32 a.sc, false) none, v)
  attnBlocks vs.length { msat := vs.any fun x => x.1.2 } (vs.map fun x => (x.1.1, x.2))

/-- m as tile t + 2 takes it: an accumulator never holds an infinity, so the -inf of a row with no visible slot is the largest
finite FP32 of that sign, and no flag tells of it; a NaN sets the flag (08 R222; notes/assumptions/74.md). -/
def rowMax (m : W32) : W32 × Bool := if m = 0xFF800000#32 then (0xFF7FFFFF#32, false) else loadAcc m

def fattRun (site : Nat) (a : FattArgs) (s : State) : State :=
  let c := s.core site
  let qb := c.readRegion a.dq
  (List.range a.qrows).foldl (fun t r =>
    let x := attnRow c.spad a (blocksOf (.el .e4m3) 8 (qb.drop (128 * r))) r
    let t1 := putRow site a.tile r ((x.o.take 64).map fun v => (toF32 v, x.sat)) t
    let t2 := putRow site (a.tile + 1) r ((x.o.drop 64).map fun v => (toF32 v, x.sat)) t1
    let m := rowMax x.m
    setOvf site (a.tile + 2) (m.2 || x.msat || x.lsat)
      (t2.modCore site fun d => (d.setAccW (a.tile + 2) r 0 m.1).setAccW (a.tile + 2) r 1 (toF32 x.l))) s

end Sys2Proof.Machine
end

