-- ==== Sys2Proof/Machine/FamTensor.lean ====
section
/-! DEFINITION. The tensor commands of a core (07 R190-R194). -/

namespace Sys2Proof.Machine

/-- A tensor command: its conditions, its scoreboard operands, the elements counted at the ports, its effect. -/
def tensorCmd (site op : Nat) (w : BitVec 56) (ecc : Ecc) (chk : State → Nat → List Chk)
    (ops : State → Nat → List ((Nat × Nat) × Bool)) (els : Core → Nat → List (List Nat)) (eff : Nat → State → State) (s : State) : Res :=
  insnAct site op w (fun i t => issueWith site i ecc (chk t i) (ops t i) (fun u =>
    retire site ((u.core site).pc + 8) (countOperands site (els (u.core site) i) (eff i u))) t) s

def execITmm (site : Nat) (w : BitVec 56) (ecc : Ecc) (s : State) : Res :=
  tensorCmd site 0x80 w ecc (fun t i => tmmChk (t.core site) (tmmArgs (t.core site) i))
    (fun t i => let a := tmmArgs (t.core site) i; [(rRange a.dx, false), (rRange a.dw, false)])
    (fun c i => let a := tmmArgs c i; [xElems a, used a.dw (64 * a.k16 * tfBytes a.fw)])
    (fun i u => tmmRun site (tmmArgs (u.core site) i) u) s

def execITout (site : Nat) (w : BitVec 56) (ecc : Ecc) (s : State) : Res :=
  tensorCmd site 0x81 w ecc (fun t i => toutChk t site i) (fun t i => [(rRange ((t.core site).greg (fD i)), true)])
    (fun c i => let n := toutLen i; [lastPart (c.greg (fD i)) n, used (c.greg (fD i)) n]) (fun i u => toutRun site i u) s

def execITld (site : Nat) (w : BitVec 56) (ecc : Ecc) (s : State) : Res :=
  tensorCmd site 0x82 w ecc (fun t i => tldChk (t.core site) i) (fun t i => [(rRange ((t.core site).greg (fA i)), false)])
    (fun c i => [used (c.greg (fA i)) (tldLen i)]) (fun i u => tldRun site i u) s

/-- Commands on one tile row or a whole tile: no scoreboard entry. -/
def tileChk (c : Core) (i : Nat) : List Chk := [⟨decide (63 < tileOf c i), 0x1001, none, 0⟩]
def rowOf (i : Nat) : Nat := bitsOf i 32 6

def execITrv (site : Nat) (w : BitVec 56) (ecc : Ecc) (s : State) : Res :=
  tensorCmd site 0x83 w ecc (fun t i => tileChk (t.core site) i) (fun _ _ => []) (fun _ _ => [])
    (fun i u => u.modCore site fun c => c.setV (fD i) (c.accRow (tileOf c i) (rowOf i))) s

/-- TWV (R193, R222): with [26] each lane is added with rne32. -/
def execITwv (site : Nat) (w : BitVec 56) (ecc : Ecc) (s : State) : Res :=
  tensorCmd site 0x84 w ecc (fun t i => tileChk (t.core site) i) (fun _ _ => []) (fun _ _ => [])
    (fun i u =>
      let c := u.core site
      let t := tileOf c i
      putRow site t (rowOf i) (((c.vec (fA i)).zip (c.accRow t (rowOf i))).map fun e =>
        let x := loadAcc e.1
        if bitAt i 26 then
          let r := rne ((f32 e.2).add (f32 x.1))
          (toF32 r.1, x.2 || r.2 || r.1.isNan)
        else x) u) s

def execITclr (site : Nat) (w : BitVec 56) (ecc : Ecc) (s : State) : Res :=
  tensorCmd site 0x85 w ecc (fun t i => tileChk (t.core site) i) (fun _ _ => []) (fun _ _ => [])
    (fun i u => u.modCore site fun c => { c with acc := SMap.keep c.acc fun k _ => k / 4096 ≠ tileOf c i }) s

/-- The first frame of a walked list that no slot which lists it may read (06 R167), as page and slot. -/
def fattTag (s : State) (site : Nat) (a : FattArgs) : Option (Nat × Nat) :=
  match boundAt s site with
  | none => none
  | some (p, k) =>
    let m := (s.core site).spad
    (List.range a.pages).findSome? fun e =>
      let f := bitsOf (leNat (Mem.read m (32 * a.list + 8 * e) 8)) 0 10
      let pg := pageNo k f
      let users := ((s.core site).plist.filter fun l => l.2.any fun x => x.frame = f).map (·.1)
      if users.all fun sl => (slotOwner s p sl).any fun o => tagBad s p o.1 pg then users.head?.map fun sl => (pg, sl) else none

/-- FATT (R194); a frame that the slot may not read stops it before any data moves (06 R168). -/
def execIFatt (site : Nat) (w : BitVec 56) (ecc : Ecc) (s : State) : Res :=
  insnAct site 0x88 w (fun i t =>
    let a := fattArgs t site i
    issueWith site i ecc (fattChk t site i a) ((fattRanges t site (t.core site) i a).map fun r => (r, false)) (fun u =>
      match boundAt u site, fattTag u site a with
      | some (p, _), some (pg, sl) => tagMismatch p pg sl u
      | _, _ => retire site ((u.core site).pc + 8)
          (countOperands site (fattReads (u.core site) i a) (fattRun site a u))) t) s

end Sys2Proof.Machine
end

