-- ==== Sys2Proof/Machine/Dispatch.lean ====
section
/-! DEFINITION. The dispatch of a command to its meaning: one arm per constructor of Instr. -/

namespace Sys2Proof.Machine

/-- The effect of a command on everything but the queue. -/
def exec (i : Instr) (s : State) : Host.Outcome State Fault Refusal :=
  match i with
  | .registerWrite ag bar off n v => Sys2Proof.Machine.execRegisterWrite ag bar off n v s
  | .reg64LowWrite ag bar off v => Sys2Proof.Machine.execReg64LowWrite ag bar off v s
  | .reg64HighWrite ag bar off v => Sys2Proof.Machine.execReg64HighWrite ag bar off v s
  | .reg64LowRead ag bar off n => Sys2Proof.Machine.execReg64LowRead ag bar off n s
  | .narrowOrUnalignedRead ag bar off n => Sys2Proof.Machine.execNarrowOrUnalignedRead ag bar off n s
  | .earlyAccessDrop bar off write => Sys2Proof.Machine.execEarlyAccessDrop bar off write s
  | .unmappedOffsetAccess bar off write => Sys2Proof.Machine.execUnmappedOffsetAccess bar off write s
  | .sidebandPageAccess ag off write v => Sys2Proof.Machine.execSidebandPageAccess ag off write v s
  | .run ag pg => Sys2Proof.Machine.execRun ag pg s
  | .stopReq ag pg => Sys2Proof.Machine.execStopReq ag pg s
  | .partReset ag pg => Sys2Proof.Machine.execPartReset ag pg s
  | .commit ag pg => Sys2Proof.Machine.execCommit ag pg s
  | .lock ag pg => Sys2Proof.Machine.execLock ag pg s
  | .blockInitDone pg => Sys2Proof.Machine.execBlockInitDone pg s
  | .blockDrainDone pg => Sys2Proof.Machine.execBlockDrainDone pg s
  | .committedSetApply pg => Sys2Proof.Machine.execCommittedSetApply pg s
  | .blockFault pg bit code loc data => Sys2Proof.Machine.execBlockFault pg bit code loc data s
  | .blockWatchdog pg => Sys2Proof.Machine.execBlockWatchdog pg s
  | .blockFence pg => Sys2Proof.Machine.execBlockFence pg s
  | .blockFenceRelease pg => Sys2Proof.Machine.execBlockFenceRelease pg s
  | .blockRecovery pg => Sys2Proof.Machine.execBlockRecovery pg s
  | .errStatClear ag pg v => Sys2Proof.Machine.execErrStatClear ag pg v s
  | .cfgRejectClear ag pg => Sys2Proof.Machine.execCfgRejectClear ag pg s
  | .linkTrain width speed flit256 => Sys2Proof.Machine.execLinkTrain width speed flit256 s
  | .flr => Sys2Proof.Machine.execFlr s
  | .conventionalReset => Sys2Proof.Machine.execConventionalReset s
  | .cxlReset memClr => Sys2Proof.Machine.execCxlReset memClr s
  | .h2dSnoop line op => Sys2Proof.Machine.execH2dSnoop line op s
  | .bisnpResponse line => Sys2Proof.Machine.execBisnpResponse line s
  | .hdmRead addr errs => Sys2Proof.Machine.execHdmRead addr errs s
  | .hdmWrite addr data => Sys2Proof.Machine.execHdmWrite addr data s
  | .ptmDialogue hostTime => Sys2Proof.Machine.execPtmDialogue hostTime s
  | .hdmCfgWrite ag v => Sys2Proof.Machine.execHdmCfgWrite ag v s
  | .doorbellWrite off n v => Sys2Proof.Machine.execDoorbellWrite off n v s
  | .msixTableWrite off n v => Sys2Proof.Machine.execMsixTableWrite off n v s
  | .mbxClaim ag m => Sys2Proof.Machine.execMbxClaim ag m s
  | .mbxDataWrite ag m k v => Sys2Proof.Machine.execMbxDataWrite ag m k v s
  | .mbxSend ag m v => Sys2Proof.Machine.execMbxSend ag m v s
  | .mbxDataRead ag m k n => Sys2Proof.Machine.execMbxDataRead ag m k n s
  | .mbxRelease ag m => Sys2Proof.Machine.execMbxRelease ag m s
  | .mbxWithdraw ag m => Sys2Proof.Machine.execMbxWithdraw ag m s
  | .mbxClaimExpire m => Sys2Proof.Machine.execMbxClaimExpire m s
  | .mbxMsgTimeout m => Sys2Proof.Machine.execMbxMsgTimeout m s
  | .mbxCfgWrite ag m v => Sys2Proof.Machine.execMbxCfgWrite ag m v s
  | .hostDbClear ag v => Sys2Proof.Machine.execHostDbClear ag v s
  | .hostDbMaskWrite ag v => Sys2Proof.Machine.execHostDbMaskWrite ag v s
  | .mbxDeliver m => Sys2Proof.Machine.execMbxDeliver m s
  | .mbxDeliverResponse m => Sys2Proof.Machine.execMbxDeliverResponse m s
  | .bmcMailboxMsg m data => Sys2Proof.Machine.execBmcMailboxMsg m data s
  | .ringOpen ag => Sys2Proof.Machine.execRingOpen ag s
  | .ringClose ag => Sys2Proof.Machine.execRingClose ag s
  | .ringCloseDone ring => Sys2Proof.Machine.execRingCloseDone ring s
  | .ringRead ag => Sys2Proof.Machine.execRingRead ag s
  | .submissionFetch ring => Sys2Proof.Machine.execSubmissionFetch ring s
  | .fetchReadDone ring data => Sys2Proof.Machine.execFetchReadDone ring data s
  | .fetchReadFail ring => Sys2Proof.Machine.execFetchReadFail ring s
  | .tokenBufReadDone ring toks ok => Sys2Proof.Machine.execTokenBufReadDone ring toks ok s
  | .generate ring e => Sys2Proof.Machine.execGenerate ring e s
  | .cancel ring e => Sys2Proof.Machine.execCancel ring e s
  | .sessionOpen ring e => Sys2Proof.Machine.execSessionOpen ring e s
  | .sessionClose ring e => Sys2Proof.Machine.execSessionClose ring e s
  | .sessionSpill ring e => Sys2Proof.Machine.execSessionSpill ring e s
  | .sessionConfig ring e => Sys2Proof.Machine.execSessionConfig ring e s
  | .prefixRegister ring e => Sys2Proof.Machine.execPrefixRegister ring e s
  | .prefixRelease ring e => Sys2Proof.Machine.execPrefixRelease ring e s
  | .rollback ring e => Sys2Proof.Machine.execRollback ring e s
  | .admission req badWord => Sys2Proof.Machine.execAdmission req badWord s
  | .restoreDone req lost => Sys2Proof.Machine.execRestoreDone req lost s
  | .stepBuild part => Sys2Proof.Machine.execStepBuild part s
  | .stepCommit part res => Sys2Proof.Machine.execStepCommit part res s
  | .requestEnd req => Sys2Proof.Machine.execRequestEnd req s
  | .entryWriteFail w => Sys2Proof.Machine.execEntryWriteFail w s
  | .coalesceTimer ring => Sys2Proof.Machine.execCoalesceTimer ring s
  | .deadlineExpire req => Sys2Proof.Machine.execDeadlineExpire req s
  | .tenantWrite ag => Sys2Proof.Machine.execTenantWrite ag s
  | .tenantRead ag => Sys2Proof.Machine.execTenantRead ag s
  | .query ag v => Sys2Proof.Machine.execQuery ag v s
  | .t1TtlExpire sess => Sys2Proof.Machine.execT1TtlExpire sess s
  | .t2TtlExpire sess => Sys2Proof.Machine.execT2TtlExpire sess s
  | .spillDone sess => Sys2Proof.Machine.execSpillDone sess s
  | .t2MoveDone sess => Sys2Proof.Machine.execT2MoveDone sess s
  | .t2TransferFail sess unread => Sys2Proof.Machine.execT2TransferFail sess unread s
  | .stepTokenArrive part stage => Sys2Proof.Machine.execStepTokenArrive part stage s
  | .stageStepStart part stage => Sys2Proof.Machine.execStageStepStart part stage s
  | .stageStepHandoff part stage => Sys2Proof.Machine.execStageStepHandoff part stage s
  | .stepDone part stage step => Sys2Proof.Machine.execStepDone part stage step s
  | .stepRerun part stage => Sys2Proof.Machine.execStepRerun part stage s
  | .stageTimeout part stage => Sys2Proof.Machine.execStageTimeout part stage s
  | .eqxStart part => Sys2Proof.Machine.execEqxStart part s
  | .eqxInterval part => Sys2Proof.Machine.execEqxInterval part s
  | .eqxReq part stage => Sys2Proof.Machine.execEqxReq part stage s
  | .eqxArrive part stage => Sys2Proof.Machine.execEqxArrive part stage s
  | .eqxGo part stage => Sys2Proof.Machine.execEqxGo part stage s
  | .schedPause ag part => Sys2Proof.Machine.execSchedPause ag part s
  | .schedResume ag part => Sys2Proof.Machine.execSchedResume ag part s
  | .schedEqxReq ag part => Sys2Proof.Machine.execSchedEqxReq ag part s
  | .specOutcome part slot node child bonus lp => Sys2Proof.Machine.execSpecOutcome part slot node child bonus lp s
  | .treePagesRelease part slot => Sys2Proof.Machine.execTreePagesRelease part slot s
  | .pageGrant part core => Sys2Proof.Machine.execPageGrant part core s
  | .pageCopyDone part core => Sys2Proof.Machine.execPageCopyDone part core s
  | .pageAgeExamine part page => Sys2Proof.Machine.execPageAgeExamine part page s
  | .kvPageQuery ag v => Sys2Proof.Machine.execKvPageQuery ag v s
  | .iAdd site w ecc => Sys2Proof.Machine.execIAdd site w ecc s
  | .iSub site w ecc => Sys2Proof.Machine.execISub site w ecc s
  | .iAnd site w ecc => Sys2Proof.Machine.execIAnd site w ecc s
  | .iOr site w ecc => Sys2Proof.Machine.execIOr site w ecc s
  | .iXor site w ecc => Sys2Proof.Machine.execIXor site w ecc s
  | .iShl site w ecc => Sys2Proof.Machine.execIShl site w ecc s
  | .iShr site w ecc => Sys2Proof.Machine.execIShr site w ecc s
  | .iSra site w ecc => Sys2Proof.Machine.execISra site w ecc s
  | .iMul site w ecc => Sys2Proof.Machine.execIMul site w ecc s
  | .iMulh site w ecc => Sys2Proof.Machine.execIMulh site w ecc s
  | .iMulhu site w ecc => Sys2Proof.Machine.execIMulhu site w ecc s
  | .iDivu site w ecc => Sys2Proof.Machine.execIDivu site w ecc s
  | .iRemu site w ecc => Sys2Proof.Machine.execIRemu site w ecc s
  | .iSlt site w ecc => Sys2Proof.Machine.execISlt site w ecc s
  | .iSltu site w ecc => Sys2Proof.Machine.execISltu site w ecc s
  | .iMin site w ecc => Sys2Proof.Machine.execIMin site w ecc s
  | .iMax site w ecc => Sys2Proof.Machine.execIMax site w ecc s
  | .iMinu site w ecc => Sys2Proof.Machine.execIMinu site w ecc s
  | .iMaxu site w ecc => Sys2Proof.Machine.execIMaxu site w ecc s
  | .iClz site w ecc => Sys2Proof.Machine.execIClz site w ecc s
  | .iPopc site w ecc => Sys2Proof.Machine.execIPopc site w ecc s
  | .iMov site w ecc => Sys2Proof.Machine.execIMov site w ecc s
  | .iMovhi site w ecc => Sys2Proof.Machine.execIMovhi site w ecc s
  | .iSel site w ecc => Sys2Proof.Machine.execISel site w ecc s
  | .iLd8u site w ecc => Sys2Proof.Machine.execILd8u site w ecc s
  | .iLd16u site w ecc => Sys2Proof.Machine.execILd16u site w ecc s
  | .iLd32u site w ecc => Sys2Proof.Machine.execILd32u site w ecc s
  | .iLd64 site w ecc => Sys2Proof.Machine.execILd64 site w ecc s
  | .iSt8 site w ecc => Sys2Proof.Machine.execISt8 site w ecc s
  | .iSt16 site w ecc => Sys2Proof.Machine.execISt16 site w ecc s
  | .iSt32 site w ecc => Sys2Proof.Machine.execISt32 site w ecc s
  | .iSt64 site w ecc => Sys2Proof.Machine.execISt64 site w ecc s
  | .iBeq site w ecc => Sys2Proof.Machine.execIBeq site w ecc s
  | .iBne site w ecc => Sys2Proof.Machine.execIBne site w ecc s
  | .iBlt site w ecc => Sys2Proof.Machine.execIBlt site w ecc s
  | .iBge site w ecc => Sys2Proof.Machine.execIBge site w ecc s
  | .iBltu site w ecc => Sys2Proof.Machine.execIBltu site w ecc s
  | .iBgeu site w ecc => Sys2Proof.Machine.execIBgeu site w ecc s
  | .iJal site w ecc => Sys2Proof.Machine.execIJal site w ecc s
  | .iJalr site w ecc => Sys2Proof.Machine.execIJalr site w ecc s
  | .iSysrd site w ecc => Sys2Proof.Machine.execISysrd site w ecc s
  | .iSyswr site w ecc => Sys2Proof.Machine.execISyswr site w ecc s
  | .iFence site w ecc => Sys2Proof.Machine.execIFence site w ecc s
  | .iNop site w ecc => Sys2Proof.Machine.execINop site w ecc s
  | .iVadd site w ecc => Sys2Proof.Machine.execIVadd site w ecc s
  | .iVsub site w ecc => Sys2Proof.Machine.execIVsub site w ecc s
  | .iVmul site w ecc => Sys2Proof.Machine.execIVmul site w ecc s
  | .iVfma site w ecc => Sys2Proof.Machine.execIVfma site w ecc s
  | .iVmax site w ecc => Sys2Proof.Machine.execIVmax site w ecc s
  | .iVmin site w ecc => Sys2Proof.Machine.execIVmin site w ecc s
  | .iVabs site w ecc => Sys2Proof.Machine.execIVabs site w ecc s
  | .iVneg site w ecc => Sys2Proof.Machine.execIVneg site w ecc s
  | .iVexp site w ecc => Sys2Proof.Machine.execIVexp site w ecc s
  | .iVlog site w ecc => Sys2Proof.Machine.execIVlog site w ecc s
  | .iVrcp site w ecc => Sys2Proof.Machine.execIVrcp site w ecc s
  | .iVrsq site w ecc => Sys2Proof.Machine.execIVrsq site w ecc s
  | .iVsqrt site w ecc => Sys2Proof.Machine.execIVsqrt site w ecc s
  | .iVtanh site w ecc => Sys2Proof.Machine.execIVtanh site w ecc s
  | .iVcvt site w ecc => Sys2Proof.Machine.execIVcvt site w ecc s
  | .iVcmp site w ecc => Sys2Proof.Machine.execIVcmp site w ecc s
  | .iVsel site w ecc => Sys2Proof.Machine.execIVsel site w ecc s
  | .iVand site w ecc => Sys2Proof.Machine.execIVand site w ecc s
  | .iVor site w ecc => Sys2Proof.Machine.execIVor site w ecc s
  | .iVxor site w ecc => Sys2Proof.Machine.execIVxor site w ecc s
  | .iVshl site w ecc => Sys2Proof.Machine.execIVshl site w ecc s
  | .iVshr site w ecc => Sys2Proof.Machine.execIVshr site w ecc s
  | .iVrsum site w ecc => Sys2Proof.Machine.execIVrsum site w ecc s
  | .iVrmax site w ecc => Sys2Proof.Machine.execIVrmax site w ecc s
  | .iVperm site w ecc => Sys2Proof.Machine.execIVperm site w ecc s
  | .iVbcast site w ecc => Sys2Proof.Machine.execIVbcast site w ecc s
  | .iVmovg site w ecc => Sys2Proof.Machine.execIVmovg site w ecc s
  | .iVmovs site w ecc => Sys2Proof.Machine.execIVmovs site w ecc s
  | .iVargmax site w ecc => Sys2Proof.Machine.execIVargmax site w ecc s
  | .iVtopk16 site w ecc => Sys2Proof.Machine.execIVtopk16 site w ecc s
  | .iVld site w ecc => Sys2Proof.Machine.execIVld site w ecc s
  | .iVst site w ecc => Sys2Proof.Machine.execIVst site w ecc s
  | .iVldb site w ecc => Sys2Proof.Machine.execIVldb site w ecc s
  | .iVstm site w ecc => Sys2Proof.Machine.execIVstm site w ecc s
  | .iQld site w ecc => Sys2Proof.Machine.execIQld site w ecc s
  | .iQst site w ecc => Sys2Proof.Machine.execIQst site w ecc s
  | .iWait site w ecc => Sys2Proof.Machine.execIWait site w ecc s
  | .waitRetire site => Sys2Proof.Machine.execWaitRetire site s
  | .queueTransferDone site q data errs => Sys2Proof.Machine.execQueueTransferDone site q data errs s
  | .qwaitTimeout site => Sys2Proof.Machine.execQwaitTimeout site s
  | .iTmm site w ecc => Sys2Proof.Machine.execITmm site w ecc s
  | .iTout site w ecc => Sys2Proof.Machine.execITout site w ecc s
  | .iTld site w ecc => Sys2Proof.Machine.execITld site w ecc s
  | .iTrv site w ecc => Sys2Proof.Machine.execITrv site w ecc s
  | .iTwv site w ecc => Sys2Proof.Machine.execITwv site w ecc s
  | .iTclr site w ecc => Sys2Proof.Machine.execITclr site w ecc s
  | .iFatt site w ecc => Sys2Proof.Machine.execIFatt site w ecc s
  | .iSend site w ecc => Sys2Proof.Machine.execISend site w ecc s
  | .iFsend site w ecc => Sys2Proof.Machine.execIFsend site w ecc s
  | .iMsend site w ecc => Sys2Proof.Machine.execIMsend site w ecc s
  | .iRsend site w ecc => Sys2Proof.Machine.execIRsend site w ecc s
  | .iCsend site w ecc => Sys2Proof.Machine.execICsend site w ecc s
  | .iCntadd site w ecc => Sys2Proof.Machine.execICntadd site w ecc s
  | .iCntrd site w ecc => Sys2Proof.Machine.execICntrd site w ecc s
  | .iFfence site w ecc => Sys2Proof.Machine.execIFfence site w ecc s
  | .islandWatchdog site => Sys2Proof.Machine.execIslandWatchdog site s
  | .coreAccOvfClear ag site v => Sys2Proof.Machine.execCoreAccOvfClear ag site v s
  | .srCtrWrite ag site v => Sys2Proof.Machine.execSrCtrWrite ag site v s
  | .spadCntClear ag site => Sys2Proof.Machine.execSpadCntClear ag site s
  | .spadMaxholdClear ag site => Sys2Proof.Machine.execSpadMaxholdClear ag site s
  | .spadHoldWatchdog site port req cycles => Sys2Proof.Machine.execSpadHoldWatchdog site port req cycles s
  | .urgentScrub site e => Sys2Proof.Machine.execUrgentScrub site e s
  | .debugAccess site e write data => Sys2Proof.Machine.execDebugAccess site e write data s
  | .corePatrolScrub site ce ue => Sys2Proof.Machine.execCorePatrolScrub site ce ue s
  | .linkReplay site port => Sys2Proof.Machine.execLinkReplay site port s
  | .flitForward site port slot ue => Sys2Proof.Machine.execFlitForward site port slot ue s
  | .packetDelivery site => Sys2Proof.Machine.execPacketDelivery site s
  | .mcastFlit site => Sys2Proof.Machine.execMcastFlit site s
  | .redFlitArrive site => Sys2Proof.Machine.execRedFlitArrive site s
  | .redRoundTimeout site id => Sys2Proof.Machine.execRedRoundTimeout site id s
  | .stepIncomplete site => Sys2Proof.Machine.execStepIncomplete site s
  | .e2eAck site => Sys2Proof.Machine.execE2eAck site s
  | .e2eRetryTimer site dst vc => Sys2Proof.Machine.execE2eRetryTimer site dst vc s
  | .linkDead site port => Sys2Proof.Machine.execLinkDead site port s
  | .fabTableRead ag tile => Sys2Proof.Machine.execFabTableRead ag tile s
  | .fabTableWrite ag tile => Sys2Proof.Machine.execFabTableWrite ag tile s
  | .t1Read use unit errs => Sys2Proof.Machine.execT1Read use unit errs s
  | .t1Write owner slot content session req addr data => Sys2Proof.Machine.execT1Write owner slot content session req addr data s
  | .refresh n hot => Sys2Proof.Machine.execRefresh n hot s
  | .t1PatrolScrub n errs => Sys2Proof.Machine.execT1PatrolScrub n errs s
  | .emcHoldWatchdog n req ns => Sys2Proof.Machine.execEmcHoldWatchdog n req ns s
  | .t2Enable ag => Sys2Proof.Machine.execT2Enable ag s
  | .t2Disable ag => Sys2Proof.Machine.execT2Disable ag s
  | .t2DrainDone => Sys2Proof.Machine.execT2DrainDone s
  | .keyQuery ag v => Sys2Proof.Machine.execKeyQuery ag v s
  | .loadBase ag part => Sys2Proof.Machine.execLoadBase ag part s
  | .loadEpoch ag part => Sys2Proof.Machine.execLoadEpoch ag part s
  | .loadAdapter ag part => Sys2Proof.Machine.execLoadAdapter ag part s
  | .adapterRemove ag part => Sys2Proof.Machine.execAdapterRemove ag part s
  | .loadNextSegment ag => Sys2Proof.Machine.execLoadNextSegment ag s
  | .loadAbort ag => Sys2Proof.Machine.execLoadAbort ag s
  | .loadSegmentConsumed err => Sys2Proof.Machine.execLoadSegmentConsumed err s
  | .loadSegTimeout => Sys2Proof.Machine.execLoadSegTimeout s
  | .loadDone p => Sys2Proof.Machine.execLoadDone p s
  | .adapterNewest part slot => Sys2Proof.Machine.execAdapterNewest part slot s
  | .epochRetainExpire part => Sys2Proof.Machine.execEpochRetainExpire part s
  | .epochFree part => Sys2Proof.Machine.execEpochFree part s
  | .adapterQuery ag v => Sys2Proof.Machine.execAdapterQuery ag v s
  | .linkFrame port frame ce ue => Sys2Proof.Machine.execLinkFrame port frame ce ue s
  | .portRetrain port => Sys2Proof.Machine.execPortRetrain port s
  | .portTrainDone port up plane => Sys2Proof.Machine.execPortTrainDone port up plane s
  | .portEnable ag port on => Sys2Proof.Machine.execPortEnable ag port on s
  | .portRetrainCmd ag port => Sys2Proof.Machine.execPortRetrainCmd ag port s
  | .mlkWrite port lane => Sys2Proof.Machine.execMlkWrite port lane s
  | .mlkWriteApply port lane => Sys2Proof.Machine.execMlkWriteApply port lane s
  | .mlkWriteTimeout port lane => Sys2Proof.Machine.execMlkWriteTimeout port lane s
  | .mlkAck port => Sys2Proof.Machine.execMlkAck port s
  | .mlkNak port => Sys2Proof.Machine.execMlkNak port s
  | .mlkCtrl port lane part msg => Sys2Proof.Machine.execMlkCtrl port lane part msg s
  | .mlkRed port site => Sys2Proof.Machine.execMlkRed port site s
  | .mlkRetryTimer tag => Sys2Proof.Machine.execMlkRetryTimer tag s
  | .peerLost m => Sys2Proof.Machine.execPeerLost m s
  | .peerHeard m => Sys2Proof.Machine.execPeerHeard m s
  | .winOpen ag => Sys2Proof.Machine.execWinOpen ag s
  | .winClose ag => Sys2Proof.Machine.execWinClose ag s
  | .winCloseDone win => Sys2Proof.Machine.execWinCloseDone win s
  | .winRead ag => Sys2Proof.Machine.execWinRead ag s
  | .governorPeriod islands diodes => Sys2Proof.Machine.execGovernorPeriod islands diodes s
  | .stepChangeDone site => Sys2Proof.Machine.execStepChangeDone site s
  | .telemetrySample watts rails blocks => Sys2Proof.Machine.execTelemetrySample watts rails blocks s
  | .contactTrip rail => Sys2Proof.Machine.execContactTrip rail s
  | .contactSuspect rail => Sys2Proof.Machine.execContactSuspect rail s
  | .trimSliceFail tile n => Sys2Proof.Machine.execTrimSliceFail tile n s
  | .clkLockLoss tile => Sys2Proof.Machine.execClkLockLoss tile s
  | .clkRelockRetry tile locked => Sys2Proof.Machine.execClkRelockRetry tile locked s
  | .refClockLoss => Sys2Proof.Machine.execRefClockLoss s
  | .regionTurnOn tile region => Sys2Proof.Machine.execRegionTurnOn tile region s
  | .regionTurnOnWaitEnd tile => Sys2Proof.Machine.execRegionTurnOnWaitEnd tile s
  | .regionPowered tile => Sys2Proof.Machine.execRegionPowered tile s
  | .regionTurnOff tile region => Sys2Proof.Machine.execRegionTurnOff tile region s
  | .regionShort tile => Sys2Proof.Machine.execRegionShort tile s
  | .efuseTrip tile => Sys2Proof.Machine.execEfuseTrip tile s
  | .railOff => Sys2Proof.Machine.execRailOff s
  | .railFault rail => Sys2Proof.Machine.execRailFault rail s
  | .junctionTrip site temp diode => Sys2Proof.Machine.execJunctionTrip site temp diode s
  | .heatDark tile => Sys2Proof.Machine.execHeatDark tile s
  | .heatDarkExit tile => Sys2Proof.Machine.execHeatDarkExit tile s
  | .sensorDisagree site => Sys2Proof.Machine.execSensorDisagree site s
  | .coolantSample flow dp inlet outlet => Sys2Proof.Machine.execCoolantSample flow dp inlet outlet s
  | .coolFailAssert => Sys2Proof.Machine.execCoolFailAssert s
  | .shutdownTimeout => Sys2Proof.Machine.execShutdownTimeout s
  | .recalReq ag tile => Sys2Proof.Machine.execRecalReq ag tile s
  | .recalDone tile diodes ros => Sys2Proof.Machine.execRecalDone tile diodes ros s
  | .ceRateSample site => Sys2Proof.Machine.execCeRateSample site s
  | .relocationDone part fails bad => Sys2Proof.Machine.execRelocationDone part fails bad s
  | .stwHeartbeat => Sys2Proof.Machine.execStwHeartbeat s
  | .stwWdogExpire => Sys2Proof.Machine.execStwWdogExpire s
  | .ampWatchdog => Sys2Proof.Machine.execAmpWatchdog s
  | .waferWatchdog => Sys2Proof.Machine.execWaferWatchdog s
  | .sbRead src dst idx crcOk => Sys2Proof.Machine.execSbRead src dst idx crcOk s
  | .sbWrite src dst idx data crcOk => Sys2Proof.Machine.execSbWrite src dst idx data crcOk s
  | .sbResponse src idx data crcOk => Sys2Proof.Machine.execSbResponse src idx data crcOk s
  | .sbClockGate crcOk => Sys2Proof.Machine.execSbClockGate crcOk s
  | .sbTimeSync node hops value crcOk => Sys2Proof.Machine.execSbTimeSync node hops value crcOk s
  | .sbAlarm src idx data crcOk => Sys2Proof.Machine.execSbAlarm src idx data crcOk s
  | .timeSyncTimer => Sys2Proof.Machine.execTimeSyncTimer s
  | .sbRetryTimer node idx => Sys2Proof.Machine.execSbRetryTimer node idx s
  | .calOffsetWrite ag v => Sys2Proof.Machine.execCalOffsetWrite ag v s
  | .ampRestart ag => Sys2Proof.Machine.execAmpRestart ag s
  | .romBoot => Sys2Proof.Machine.execRomBoot s
  | .update off len g => Sys2Proof.Machine.execUpdate off len g s
  | .updateStart len => Sys2Proof.Machine.execUpdateStart len s
  | .updateBlock ix g => Sys2Proof.Machine.execUpdateBlock ix g s
  | .updateTransferTimeout => Sys2Proof.Machine.execUpdateTransferTimeout s
  | .pldmFwUpdate len g => Sys2Proof.Machine.execPldmFwUpdate len g s
  | .getVersion tr => Sys2Proof.Machine.execGetVersion tr s
  | .getCapabilities tr => Sys2Proof.Machine.execGetCapabilities tr s
  | .negotiateAlgorithms tr ok => Sys2Proof.Machine.execNegotiateAlgorithms tr ok s
  | .getDigests tr => Sys2Proof.Machine.execGetDigests tr s
  | .getCertificate tr slot off len => Sys2Proof.Machine.execGetCertificate tr slot off len s
  | .challenge tr slot => Sys2Proof.Machine.execChallenge tr slot s
  | .getMeasurements tr ix sign => Sys2Proof.Machine.execGetMeasurements tr ix sign s
  | .keyExchange tr slot both => Sys2Proof.Machine.execKeyExchange tr slot both s
  | .finish sess ok root => Sys2Proof.Machine.execFinish sess ok root s
  | .heartbeat sess => Sys2Proof.Machine.execHeartbeat sess s
  | .keyUpdate sess => Sys2Proof.Machine.execKeyUpdate sess s
  | .endSession sess => Sys2Proof.Machine.execEndSession sess s
  | .chunkSend tr handle seq data last => Sys2Proof.Machine.execChunkSend tr handle seq data last s
  | .chunkGet tr handle seq => Sys2Proof.Machine.execChunkGet tr handle seq s
  | .setOperator sess root => Sys2Proof.Machine.execSetOperator sess root s
  | .keyLoad sess kind slot key => Sys2Proof.Machine.execKeyLoad sess kind slot key s
  | .keyClear sess kind slot => Sys2Proof.Machine.execKeyClear sess kind slot s
  | .zeroise sess => Sys2Proof.Machine.execZeroise sess s
  | .tamperAssert => Sys2Proof.Machine.execTamperAssert s
  | .zeroiseArm ag => Sys2Proof.Machine.execZeroiseArm ag s
  | .zeroiseRun ag => Sys2Proof.Machine.execZeroiseRun ag s
  | .zeroiseDisarm ag v => Sys2Proof.Machine.execZeroiseDisarm ag v s
  | .zeroiseArmExpire => Sys2Proof.Machine.execZeroiseArmExpire s
  | .measSelect ag ix => Sys2Proof.Machine.execMeasSelect ag ix s
  | .mctpControl cmd arg => Sys2Proof.Machine.execMctpControl cmd arg s
  | .pldmPollEvent => Sys2Proof.Machine.execPldmPollEvent s
  | .pldmSensorRead pdr id => Sys2Proof.Machine.execPldmSensorRead pdr id s
  | .pldmFruRead off len => Sys2Proof.Machine.execPldmFruRead off len s
  | .crashRead off len => Sys2Proof.Machine.execCrashRead off len s
  | .evtWindowClose path => Sys2Proof.Machine.execEvtWindowClose path s
  | .evtLost path => Sys2Proof.Machine.execEvtLost path s
  | .eventRingPass => Sys2Proof.Machine.execEventRingPass s
  | .bmcEventSend => Sys2Proof.Machine.execBmcEventSend s
  | .ledgerRecordWrite => Sys2Proof.Machine.execLedgerRecordWrite s
  | .ledgerCheckpoint => Sys2Proof.Machine.execLedgerCheckpoint s
  | .ledgerWindowCopy ag region off => Sys2Proof.Machine.execLedgerWindowCopy ag region off s
  | .replayStart ag => Sys2Proof.Machine.execReplayStart ag s
  | .replayAbort ag => Sys2Proof.Machine.execReplayAbort ag s
  | .replayDone => Sys2Proof.Machine.execReplayDone s
  | .powerOn vaonKept i3c => Sys2Proof.Machine.execPowerOn vaonKept i3c s
  | .warmReset ag => Sys2Proof.Machine.execWarmReset ag s
  | .coldReset ag => Sys2Proof.Machine.execColdReset ag s
  | .bringupStageDone found => Sys2Proof.Machine.execBringupStageDone found s
  | .bringupStageTimeout => Sys2Proof.Machine.execBringupStageTimeout s
  | .perstAssert low => Sys2Proof.Machine.execPerstAssert low s
  | .clusterReset ag tile mask => Sys2Proof.Machine.execClusterReset ag tile mask s
  | .tileReset ag tile => Sys2Proof.Machine.execTileReset ag tile s
  | .main12vFail => Sys2Proof.Machine.execMain12vFail s
  | .paPgLoss => Sys2Proof.Machine.execPaPgLoss s
  | .aux12vFail => Sys2Proof.Machine.execAux12vFail s
  | .rcRead ag bar off => Sys2Proof.Machine.execRcRead ag bar off s
  | .hdmDecoderCommit base lockOn => Sys2Proof.Machine.execHdmDecoderCommit base lockOn s
  | .ideKm sess cm op key => Sys2Proof.Machine.execIdeKm sess cm op key s
  | .msixFunctionMaskWrite mask => Sys2Proof.Machine.execMsixFunctionMaskWrite mask s
  | .vminSample tile mv place => Sys2Proof.Machine.execVminSample tile mv place s
  | .supplyDroop site permille cycles => Sys2Proof.Machine.execSupplyDroop site permille cycles s
  | .tamperRelease => Sys2Proof.Machine.execTamperRelease s
  | .coolFailRelease => Sys2Proof.Machine.execCoolFailRelease s
  | .main12vRestore => Sys2Proof.Machine.execMain12vRestore s
  | .paPgRestore => Sys2Proof.Machine.execPaPgRestore s
  | .refClockRestore => Sys2Proof.Machine.execRefClockRestore s

end Sys2Proof.Machine
end

