-- ==== Sys2Proof/WellFormed.lean ====
section
/-! DEFINITION. Well-formed commands: the units that a command names exist. A command that names another cannot be sent; the
meanings answer it with the fault noSuchUnit. -/

namespace Sys2Proof

open Sys2Proof.Machine

/-- The operands name units that the module has, in the ranges the chapters give. -/
def Instr.wf (i : Instr) : Bool :=
  match i with
  | .registerWrite ag bar off n _ => agentOk ag && barOk bar (off + n - 1) && widthOk n
  | .reg64LowWrite ag bar off _ => agentOk ag && barOk bar (off + 3)
  | .reg64HighWrite ag bar off _ => agentOk ag && barOk bar (off + 3)
  | .reg64LowRead ag bar off n => agentOk ag && barOk bar (off + n - 1) && ((decide (n = 4) || decide (n = 8)) && decide (off % n = 0))
  | .narrowOrUnalignedRead ag bar off n => agentOk ag && barOk bar (off + n - 1) && widthOk n
  | .earlyAccessDrop bar off _ => barOk bar off
  | .unmappedOffsetAccess bar off _ => barOk bar off
  | .sidebandPageAccess ag off _ _ => agentOk ag && barOk 0 off && decide (off % 4 = 0)
  | .run ag pg => agentOk ag && pageOk pg
  | .stopReq ag pg => agentOk ag && pageOk pg
  | .partReset ag pg => agentOk ag && pageOk pg
  | .commit ag pg => agentOk ag && pageOk pg
  | .lock ag pg => agentOk ag && pageOk pg
  | .blockInitDone pg => pageOk pg
  | .blockDrainDone pg => pageOk pg
  | .committedSetApply pg => pageOk pg
  | .blockFault pg bit code _ _ => pageOk pg && decide (bit < 31) && decide (code < 2 ^ 16)
  | .blockWatchdog pg => pageOk pg
  | .blockFence pg => pageOk pg
  | .blockFenceRelease pg => pageOk pg
  | .blockRecovery pg => pageOk pg
  | .errStatClear ag pg _ => agentOk ag && pageOk pg
  | .cfgRejectClear ag pg => agentOk ag && pageOk pg
  | .linkTrain width speed _ => (width = 4 || width = 8 || width = 16) && decide (3 ≤ speed) && decide (speed ≤ 5)
  | .flr => true
  | .conventionalReset => true
  | .cxlReset _ => true
  | .h2dSnoop _ _ => true
  | .bisnpResponse _ => true
  | .hdmRead _ _ => true
  | .hdmWrite _ data => decide (data.length = 64)
  | .ptmDialogue _ => true
  | .hdmCfgWrite ag _ => agentOk ag
  | .doorbellWrite off n _ => decide (off < 2 ^ 23) && widthOk n
  | .msixTableWrite off n _ => decide (off < 0x8000) && widthOk n
  | .mbxClaim ag m => agentOk ag && boxOk m
  | .mbxDataWrite ag m k _ => agentOk ag && boxOk m && decide (k < 16)
  | .mbxSend ag m _ => agentOk ag && boxOk m
  | .mbxDataRead ag m k n => agentOk ag && boxOk m && ((decide (n = 4) && decide (k < 16)) || (decide (n = 8) && decide (k < 15) && decide (k % 2 = 0)))
  | .mbxRelease ag m => agentOk ag && boxOk m
  | .mbxWithdraw ag m => agentOk ag && boxOk m
  | .mbxClaimExpire m => boxOk m
  | .mbxMsgTimeout m => boxOk m
  | .mbxCfgWrite ag m _ => agentOk ag && boxOk m
  | .hostDbClear ag _ => agentOk ag
  | .hostDbMaskWrite ag _ => agentOk ag
  | .mbxDeliver m => boxOk m
  | .mbxDeliverResponse m => boxOk m
  | .bmcMailboxMsg m data => boxOk m && decide (data.length = 16)
  | .ringOpen ag => agentOk ag
  | .ringClose ag => agentOk ag
  | .ringCloseDone _ => true
  | .ringRead ag => agentOk ag
  | .submissionFetch _ => true
  | .fetchReadDone _ _ => true
  | .fetchReadFail _ => true
  | .tokenBufReadDone _ _ _ => true
  | .generate _ _ => true
  | .cancel _ _ => true
  | .sessionOpen _ _ => true
  | .sessionClose _ _ => true
  | .sessionSpill _ _ => true
  | .sessionConfig _ _ => true
  | .prefixRegister _ _ => true
  | .prefixRelease _ _ => true
  | .rollback _ _ => true
  | .admission _ _ => true
  | .restoreDone _ _ => true
  | .stepBuild part => partOk part
  | .stepCommit part _ => partOk part
  | .requestEnd _ => true
  | .entryWriteFail _ => true
  | .coalesceTimer _ => true
  | .deadlineExpire _ => true
  | .tenantWrite ag => agentOk ag
  | .tenantRead ag => agentOk ag
  | .query ag _ => agentOk ag
  | .t1TtlExpire _ => true
  | .t2TtlExpire _ => true
  | .spillDone _ => true
  | .t2MoveDone _ => true
  | .t2TransferFail _ _ => true
  | .stepTokenArrive part _ => partOk part
  | .stageStepStart part _ => partOk part
  | .stageStepHandoff part _ => partOk part
  | .stepDone part _ _ => partOk part
  | .stepRerun part _ => partOk part
  | .stageTimeout part _ => partOk part
  | .eqxStart part => partOk part
  | .eqxInterval part => partOk part
  | .eqxReq part _ => partOk part
  | .eqxArrive part _ => partOk part
  | .eqxGo part _ => partOk part
  | .schedPause ag part => agentOk ag && partOk part
  | .schedResume ag part => agentOk ag && partOk part
  | .schedEqxReq ag part => agentOk ag && partOk part
  | .specOutcome part slot _ _ _ _ => partOk part && decide (slot < 4096)
  | .treePagesRelease part slot => partOk part && decide (slot < 4096)
  | .pageGrant part core => partOk part && decide (core < 16384)
  | .pageCopyDone part core => partOk part && decide (core < 16384)
  | .pageAgeExamine part _ => partOk part
  | .kvPageQuery ag _ => agentOk ag
  | .iAdd site _ _ => decide (site < sites)
  | .iSub site _ _ => decide (site < sites)
  | .iAnd site _ _ => decide (site < sites)
  | .iOr site _ _ => decide (site < sites)
  | .iXor site _ _ => decide (site < sites)
  | .iShl site _ _ => decide (site < sites)
  | .iShr site _ _ => decide (site < sites)
  | .iSra site _ _ => decide (site < sites)
  | .iMul site _ _ => decide (site < sites)
  | .iMulh site _ _ => decide (site < sites)
  | .iMulhu site _ _ => decide (site < sites)
  | .iDivu site _ _ => decide (site < sites)
  | .iRemu site _ _ => decide (site < sites)
  | .iSlt site _ _ => decide (site < sites)
  | .iSltu site _ _ => decide (site < sites)
  | .iMin site _ _ => decide (site < sites)
  | .iMax site _ _ => decide (site < sites)
  | .iMinu site _ _ => decide (site < sites)
  | .iMaxu site _ _ => decide (site < sites)
  | .iClz site _ _ => decide (site < sites)
  | .iPopc site _ _ => decide (site < sites)
  | .iMov site _ _ => decide (site < sites)
  | .iMovhi site _ _ => decide (site < sites)
  | .iSel site _ _ => decide (site < sites)
  | .iLd8u site _ _ => decide (site < sites)
  | .iLd16u site _ _ => decide (site < sites)
  | .iLd32u site _ _ => decide (site < sites)
  | .iLd64 site _ _ => decide (site < sites)
  | .iSt8 site _ _ => decide (site < sites)
  | .iSt16 site _ _ => decide (site < sites)
  | .iSt32 site _ _ => decide (site < sites)
  | .iSt64 site _ _ => decide (site < sites)
  | .iBeq site _ _ => decide (site < sites)
  | .iBne site _ _ => decide (site < sites)
  | .iBlt site _ _ => decide (site < sites)
  | .iBge site _ _ => decide (site < sites)
  | .iBltu site _ _ => decide (site < sites)
  | .iBgeu site _ _ => decide (site < sites)
  | .iJal site _ _ => decide (site < sites)
  | .iJalr site _ _ => decide (site < sites)
  | .iSysrd site _ _ => decide (site < sites)
  | .iSyswr site _ _ => decide (site < sites)
  | .iFence site _ _ => decide (site < sites)
  | .iNop site _ _ => decide (site < sites)
  | .iVadd site _ _ => decide (site < sites)
  | .iVsub site _ _ => decide (site < sites)
  | .iVmul site _ _ => decide (site < sites)
  | .iVfma site _ _ => decide (site < sites)
  | .iVmax site _ _ => decide (site < sites)
  | .iVmin site _ _ => decide (site < sites)
  | .iVabs site _ _ => decide (site < sites)
  | .iVneg site _ _ => decide (site < sites)
  | .iVexp site _ _ => decide (site < sites)
  | .iVlog site _ _ => decide (site < sites)
  | .iVrcp site _ _ => decide (site < sites)
  | .iVrsq site _ _ => decide (site < sites)
  | .iVsqrt site _ _ => decide (site < sites)
  | .iVtanh site _ _ => decide (site < sites)
  | .iVcvt site _ _ => decide (site < sites)
  | .iVcmp site _ _ => decide (site < sites)
  | .iVsel site _ _ => decide (site < sites)
  | .iVand site _ _ => decide (site < sites)
  | .iVor site _ _ => decide (site < sites)
  | .iVxor site _ _ => decide (site < sites)
  | .iVshl site _ _ => decide (site < sites)
  | .iVshr site _ _ => decide (site < sites)
  | .iVrsum site _ _ => decide (site < sites)
  | .iVrmax site _ _ => decide (site < sites)
  | .iVperm site _ _ => decide (site < sites)
  | .iVbcast site _ _ => decide (site < sites)
  | .iVmovg site _ _ => decide (site < sites)
  | .iVmovs site _ _ => decide (site < sites)
  | .iVargmax site _ _ => decide (site < sites)
  | .iVtopk16 site _ _ => decide (site < sites)
  | .iVld site _ _ => decide (site < sites)
  | .iVst site _ _ => decide (site < sites)
  | .iVldb site _ _ => decide (site < sites)
  | .iVstm site _ _ => decide (site < sites)
  | .iQld site _ _ => decide (site < sites)
  | .iQst site _ _ => decide (site < sites)
  | .iWait site _ _ => decide (site < sites)
  | .waitRetire site => decide (site < sites)
  | .queueTransferDone site q _ _ => decide (site < sites) && decide (q < 24)
  | .qwaitTimeout site => decide (site < sites)
  | .iTmm site _ _ => decide (site < sites)
  | .iTout site _ _ => decide (site < sites)
  | .iTld site _ _ => decide (site < sites)
  | .iTrv site _ _ => decide (site < sites)
  | .iTwv site _ _ => decide (site < sites)
  | .iTclr site _ _ => decide (site < sites)
  | .iFatt site _ _ => decide (site < sites)
  | .iSend site _ _ => decide (site < sites)
  | .iFsend site _ _ => decide (site < sites)
  | .iMsend site _ _ => decide (site < sites)
  | .iRsend site _ _ => decide (site < sites)
  | .iCsend site _ _ => decide (site < sites)
  | .iCntadd site _ _ => decide (site < sites)
  | .iCntrd site _ _ => decide (site < sites)
  | .iFfence site _ _ => decide (site < sites)
  | .islandWatchdog site => decide (site < sites)
  | .coreAccOvfClear ag site _ => agentOk ag && decide (site < sites)
  | .srCtrWrite ag site _ => agentOk ag && decide (site < sites)
  | .spadCntClear ag site => agentOk ag && decide (site < sites)
  | .spadMaxholdClear ag site => agentOk ag && decide (site < sites)
  | .spadHoldWatchdog site port req _ => decide (site < sites) && decide (port < 2) && decide (req < 16)
  | .urgentScrub site e => decide (site < sites) && decide (e < 12288 * 64)
  | .debugAccess site e _ _ => decide (site < sites) && e.ok
  | .corePatrolScrub site _ _ => decide (site < sites)
  | .linkReplay site port => siteOk site && decide (port < 4)
  | .flitForward site port slot _ => siteOk site && decide (port < 4) && decide (slot < 64)
  | .packetDelivery site => siteOk site.site
  | .mcastFlit site => siteOk site
  | .redFlitArrive site => siteOk site
  | .redRoundTimeout site id => siteOk site && decide (id < 256)
  | .stepIncomplete site => siteOk site
  | .e2eAck site => siteOk site
  | .e2eRetryTimer site dst vc => siteOk site && siteOk dst && decide (vc = 1 ∨ vc = 4)
  | .linkDead site port => siteOk site && decide (port < 4)
  | .fabTableRead ag tile => agentOk ag && decide (tile < tiles)
  | .fabTableWrite ag tile => agentOk ag && decide (tile < tiles)
  | .t1Read _ unit _ => decide (256 * unit < t1Bytes)
  | .t1Write owner _ _ _ req addr data => decide (owner < 4) && decide (addr + data.length ≤ t1Bytes) && decide (req < 7)
  | .refresh n _ => decide (n < 48)
  | .t1PatrolScrub n _ => decide (n < 48)
  | .emcHoldWatchdog n req _ => decide (n < 48) && decide (req < 8)
  | .t2Enable ag => agentOk ag
  | .t2Disable ag => agentOk ag
  | .t2DrainDone => true
  | .keyQuery ag _ => agentOk ag
  | .loadBase ag part => agentOk ag && partOk part
  | .loadEpoch ag part => agentOk ag && partOk part
  | .loadAdapter ag part => agentOk ag && partOk part
  | .adapterRemove ag part => agentOk ag && partOk part
  | .loadNextSegment ag => agentOk ag
  | .loadAbort ag => agentOk ag
  | .loadSegmentConsumed _ => true
  | .loadSegTimeout => true
  | .loadDone _ => true
  | .adapterNewest part slot => partOk part && decide (slot < 1024)
  | .epochRetainExpire part => partOk part
  | .epochFree part => partOk part
  | .adapterQuery ag _ => agentOk ag
  | .linkFrame port _ _ _ => portOk port
  | .portRetrain port => portOk port
  | .portTrainDone port _ plane => portOk port && decide (plane < 16)
  | .portEnable ag port _ => agentOk ag && portOk port
  | .portRetrainCmd ag port => agentOk ag && portOk port
  | .mlkWrite port lane => portOk port && laneOk lane
  | .mlkWriteApply port lane => portOk port && laneOk lane
  | .mlkWriteTimeout port lane => portOk port && laneOk lane
  | .mlkAck port => portOk port
  | .mlkNak port => portOk port
  | .mlkCtrl port lane part _ => portOk port && laneOk lane && partOk part
  | .mlkRed port site => portOk port && decide (site < sites) && decide (edgeOf site = some (portEdge port))
  | .mlkRetryTimer tag => decide (tag < 2 ^ 32)
  | .peerLost m => decide (m < 64)
  | .peerHeard m => decide (m < 64)
  | .winOpen ag => agentOk ag
  | .winClose ag => agentOk ag
  | .winCloseDone win => decide (win < 256)
  | .winRead ag => agentOk ag
  | .governorPeriod islands diodes => islands.all (fun i => decide (i.site < sites)) && diodes.all fun d => tileOk d.tile && decide (d.diode < 12)
  | .stepChangeDone site => decide (site < sites)
  | .telemetrySample _ rails blocks => rails.all (fun r => decide (r.rail < 90)) && blocks.all fun b => decide (b.1 < 18)
  | .contactTrip rail => decide (rail < 90)
  | .contactSuspect rail => decide (rail < 90)
  | .trimSliceFail tile n => tileOk tile && decide (n < 56)
  | .clkLockLoss tile => tileOk tile
  | .clkRelockRetry tile _ => tileOk tile
  | .refClockLoss => true
  | .regionTurnOn tile region => tileOk tile && regionOk region
  | .regionTurnOnWaitEnd tile => tileOk tile
  | .regionPowered tile => tileOk tile
  | .regionTurnOff tile region => tileOk tile && regionOk region
  | .regionShort tile => tileOk tile
  | .efuseTrip tile => tileOk tile
  | .railOff => true
  | .railFault rail => railOk rail
  | .junctionTrip site _ _ => decide (site < sites)
  | .heatDark tile => tileOk tile
  | .heatDarkExit tile => tileOk tile
  | .sensorDisagree site => decide (site < sites)
  | .coolantSample _ _ _ _ => true
  | .coolFailAssert => true
  | .shutdownTimeout => true
  | .recalReq ag tile => agentOk ag && tileOk tile
  | .recalDone tile diodes ros => tileOk tile && decide (diodes.length = 12) && decide (ros.length = 144)
  | .ceRateSample site => decide (site < sites)
  | .relocationDone part _ _ => decide (part < 16)
  | .stwHeartbeat => true
  | .stwWdogExpire => true
  | .ampWatchdog => true
  | .waferWatchdog => true
  | .sbRead src dst idx _ => sbOk src dst idx
  | .sbWrite src dst idx _ _ => sbOk src dst idx
  | .sbResponse src idx _ _ => nodeOk src && decide (idx < 4096)
  | .sbClockGate _ => true
  | .sbTimeSync node hops _ _ => nodeOk node && decide (hops ≤ 83)
  | .sbAlarm src idx _ _ => nodeOk src && decide (idx < 4096)
  | .timeSyncTimer => true
  | .sbRetryTimer node _ => nodeOk node
  | .calOffsetWrite ag _ => agentOk ag
  | .ampRestart ag => agentOk ag
  | .romBoot => true
  | .update _ _ _ => true
  | .updateStart _ => true
  | .updateBlock _ _ => true
  | .updateTransferTimeout => true
  | .pldmFwUpdate _ _ => true
  | .getVersion tr => trOk tr
  | .getCapabilities tr => trOk tr
  | .negotiateAlgorithms tr _ => trOk tr
  | .getDigests tr => trOk tr
  | .getCertificate tr _ _ _ => trOk tr
  | .challenge tr _ => trOk tr
  | .getMeasurements tr _ _ => trOk tr
  | .keyExchange tr _ _ => trOk tr
  | .finish _ _ _ => true
  | .heartbeat _ => true
  | .keyUpdate _ => true
  | .endSession _ => true
  | .chunkSend tr _ _ _ _ => trOk tr
  | .chunkGet tr _ _ => trOk tr
  | .setOperator _ _ => true
  | .keyLoad _ _ _ _ => true
  | .keyClear _ _ _ => true
  | .zeroise _ => true
  | .tamperAssert => true
  | .zeroiseArm ag => agentOk ag
  | .zeroiseRun ag => agentOk ag
  | .zeroiseDisarm ag v => agentOk ag && decide (v < 2 ^ 16) && decide (v ≠ 0x5A5A) && decide (v ≠ 0xA5A5)
  | .zeroiseArmExpire => true
  | .measSelect ag ix => agentOk ag && decide (ix < 8)
  | .mctpControl _ _ => true
  | .pldmPollEvent => true
  | .pldmSensorRead _ _ => true
  | .pldmFruRead _ _ => true
  | .crashRead _ _ => true
  | .evtWindowClose path => pathOk path
  | .evtLost path => pathOk path
  | .eventRingPass => true
  | .bmcEventSend => true
  | .ledgerRecordWrite => true
  | .ledgerCheckpoint => true
  | .ledgerWindowCopy ag region off => agentOk ag && decide (region < 8) && decide (off < 2 ^ 15)
  | .replayStart ag => agentOk ag
  | .replayAbort ag => agentOk ag
  | .replayDone => true
  | .powerOn _ _ => true
  | .warmReset ag => agentOk ag
  | .coldReset ag => agentOk ag
  | .bringupStageDone found => found.all foundOk
  | .bringupStageTimeout => true
  | .perstAssert _ => true
  | .clusterReset ag tile mask => agentOk ag && tileOk tile && decide (mask < 512)
  | .tileReset ag tile => agentOk ag && tileOk tile
  | .main12vFail => true
  | .paPgLoss => true
  | .aux12vFail => true
  | .rcRead ag bar off => agentOk ag && barOk bar (off + 3) && decide (off % 4 = 0)
  | .hdmDecoderCommit _ _ => true
  | .ideKm _ _ _ _ => true
  | .msixFunctionMaskWrite _ => true
  | .vminSample tile mv place => tileOk tile && decide (mv < 1024) && (decide (place < 144) || decide (place = 255))
  | .supplyDroop site _ _ => decide (site < sites)
  | .tamperRelease => true
  | .coolFailRelease => true
  | .main12vRestore => true
  | .paPgRestore => true
  | .refClockRestore => true

end Sys2Proof
end

