-- ==== Sys2Proof/Safety.lean ====
section
/-! DEFINITION. What claims mean by a safe step, by a command that completes, by what a command leaves alone. -/

namespace Sys2Proof

open Sys2Proof.Machine

/-- A command's outcome goes on: neither a fault nor a refusal. -/
def Goes (i : Instr) (s : State) : Prop := ∃ t, exec i s = .next t

/-- The command answers a next state, and that state is so. -/
def Completes (i : Instr) (s : State) (P : State → Prop) : Prop := ∃ t, exec i s = .next t ∧ P t

/-- State `t` with the device time and the queue of `s`, which no command's effect changes. -/
def settled (s t : State) : State := { t with now := s.now, pending := s.pending }

/-- The command's effect on `s` is to make it `t`, but for device time and queue. -/
def Makes (i : Instr) (s t : State) : Prop := exec i s = .next (settled s t)

/-- A write of `v` to the register at `off` of page `pg` by agent `ag` responds and no ground of 02 R40 forbids it. -/
def Accepts (s : State) (ag pg off v : Nat) : Prop :=
  agentOk ag = true ∧ pageLive s ag pg = true ∧ ∃ w, regWriteOf s pg off v = some w ∧ w.forbidden s ag = none

/-- What the data plane and the Steward hold is the same: requests and rings, partitions, speculation, pages, weights,
edge memory, cores, fabric, links, power, recorder and replay. -/
def SamePlanes (s t : State) : Prop :=
  t.serv = s.serv ∧ t.parts = s.parts ∧ t.spec = s.spec ∧ t.kv = s.kv ∧ t.we = s.we ∧ t.mem = s.mem ∧ t.cores = s.cores ∧
  t.fab = s.fab ∧ t.mlk = s.mlk ∧ t.pwr = s.pwr ∧ t.fr = s.fr ∧ t.rp = s.rp

/-- No register word, shadow or block header changes but those of page `pg`. -/
def OnlyPage (pg : Nat) (s t : State) : Prop :=
  (∀ k, k / 2 ^ 20 ≠ pg → t.regK k = s.regK k) ∧ (∀ q, q ≠ pg → t.blk q = s.blk q)

/-- The page kinds whose stored words start nothing more: no clear field, no selector that takes a snapshot. -/
def plainKind (k : PKind) : Prop := k ≠ .glob ∧ k ≠ .core ∧ k ≠ .emc ∧ k ≠ .pwrT ∧ k ≠ .thmT

/-- The offsets of a page kind whose fields act when they are written: commands, queries, enables (00 R11). -/
def actingOffs : PKind → List Nat
  | .serv => [0x114, 0x144, 0x160]
  | .sched => [0x120]
  | .kv | .map => [0x11C, 0x130]
  | .epoch => [0x140, 0x170]
  | .fab | .group => [0x124]
  | .port | .mgmt => [0x104, 0x110]
  | .tile | .hostDb => [0x100, 0x104]
  | .sec => [0x110, 0x144]
  | .early => [0x200]
  | .replay => [0x11C]
  | _ => []

/-- A write whose fields are stored and start nothing more. -/
def PlainWrite (w : RegWrite) : Prop := plainKind w.k ∧ w.off ∉ actingOffs w.k

/-- A submission entry with opcode `op` (03 R70): 128 bytes at most. -/
def subEntry (op : Nat) (e : List Byte) : List Byte := leBytes 1 op ++ (e.drop 1).take 127

/-- What an instruction's retirement leaves as it was: everything but the core at `site`, the counters of its page from
0x200 on (07 R212, 09 R246), the registers `more` of that page, and GLB_CNT_CE, which counts words that ECC corrects. -/
def OnlyCore (site : Nat) (more : List Nat) (s t : State) : Prop :=
  { t with cores := s.cores, regs := s.regs } = s ∧ (∀ x, x ≠ site → t.core x = s.core x) ∧
  ∀ k, k ≠ regKey pgFault 0 0x180 →
    (∀ off, 0x200 ≤ off ∧ off < 0x1000 ∨ off ∈ more → k ≠ regKey (pgCore site) 0 off) → t.regK k = s.regK k

/-- The instruction retires: the program counter goes to `next`, nothing outside its core changes, the core is so. -/
def Retires (i : Instr) (s : State) (site next : Nat) (P : Core → Prop) (more : List Nat := []) : Prop :=
  Completes i s fun t =>
    OnlyCore site more s t ∧ (t.core site).pc = next % 2 ^ 25 ∧ (t.core site).lastRet = s.now ∧ P (t.core site)

/-- The core `d` after an instruction that writes general register `r` only: register 0 stays 0. -/
def WritesG (c : Core) (r : Nat) (x : W64) (d : Core) : Prop :=
  (∀ k, d.greg k = if k = r ∧ r ≠ 0 then x else c.greg k) ∧ d.greg 0 = 0 ∧
  { d with g := c.g, pc := c.pc, lastRet := c.lastRet } = c

/-- The core `d` after an instruction that writes vector register `r` only. -/
def WritesV (c : Core) (r : Nat) (x : List W32) (d : Core) : Prop :=
  (∀ k, k < 32 → d.vec k = if k = r then x else c.vec k) ∧ { d with v := c.v, pc := c.pc, lastRet := c.lastRet } = c

/-- The core `d` after an instruction that writes `b` at scratchpad byte `a` only: every other byte reads as before. -/
def WritesB (c : Core) (a : Nat) (b : List Byte) (d : Core) : Prop :=
  (∀ k, SMap.get d.spad 0#8 k = if a ≤ k ∧ k < a + b.length then b.getD (k - a) 0 else SMap.get c.spad 0#8 k) ∧
  { d with spad := c.spad, pc := c.pc, lastRet := c.lastRet } = c

/-- The core `d` after an instruction that changes no register and no memory of it. -/
def WritesNone (c d : Core) : Prop := { d with pc := c.pc, lastRet := c.lastRet } = c

/-- The core `d` after a command that writes rows `rows` of accumulator tile `t` only. -/
def WritesA (c : Core) (t rows : Nat) (x : Nat → Nat → W32) (d : Core) : Prop :=
  (∀ u r k, r < 64 → k < 64 → d.accW u r k = if u = t ∧ r < rows then x r k else c.accW u r k) ∧
  { d with acc := c.acc, pc := c.pc, lastRet := c.lastRet } = c

/-- A core that issues an instruction whose words read without an error that ECC cannot correct. -/
def Issues (s : State) (site : Nat) (ecc : Ecc) : Prop := site < sites ∧ canIssue s site = true ∧ ecc.ue = none

/-- Every command that waits is well formed. -/
def QueueWf (s : State) : Prop := s.pending.all Instr.wf = true

/-- A run of `n` steps from a state that no fault and no refusal stops. -/
def SafeRun (n : Nat) (s : State) : Prop := ∃ t, Host.Core.run core n s = .next t

end Sys2Proof
end

