-- ==== Sys2Proof/Certificates/Slice0/Obligations.lean ====
section
/-! DEFINITION. The statements for the provers. -/

open Sys2Proof Sys2Proof.Machine

/-- For every command c, queue and state: a step of the state whose queue is c :: rest is exec of c on that state with the queue rest. The queue is the model's (notes/assumptions/1.md). -/
def Obligations.StepRunsFront : Prop :=
  ∀ (c : Instr) (rest : List Instr) (s : State),
    step (State.withPending s (c :: rest)) = exec c (State.withPending s rest)

/-- On an empty queue a step answers a next state: device time advances by 40 ns modulo 2^64 and every other field stays. That a step on an empty queue is a tick is the model's choice (notes/assumptions/1.md). -/
def Obligations.IdleTick : Prop :=
  ∀ s : State, s.pending = [] → ∃ t, step s = .next t ∧ t.now = (s.now + 40) % 2 ^ 64 ∧ t = { s with now := t.now }

/-- For every state and every step to a next state: with nothing pending the time advances by 40 (one 25 MHz tick, 64-bit count); every command leaves it unchanged, except POWER_ON where VAON had lost its power, which starts it at 0. A tick on an empty queue is the model's choice (notes/assumptions/1.md). -/
def Obligations.DeviceTime : Prop :=
  ∀ s t : State, step s = .next t →
    match s.pending with
    | [] => t.now = (s.now + 40) % 2 ^ 64
    | .powerOn false _ :: _ => t.now = 0
    | _ :: _ => t.now = s.now

/-- The invariant of DeviceTimeGrain holds at State.reset. -/
def Obligations.ResetTimeGrain : Prop := State.reset.now % 40 = 0

/-- For every state whose device time is a multiple of 40 ns and below 2^64 - 40, every step to a next state keeps it a multiple of 40 ns below 2^64, and the queue either loses its front command or stays empty. -/
def Obligations.DeviceTimeGrain : Prop :=
  ∀ s t : State, s.now % 40 = 0 → s.now < 2 ^ 64 - 40 → step s = .next t →
    t.now % 40 = 0 ∧ t.now < 2 ^ 64 ∧ t.pending = s.pending.tail

/-- For every state and command: a command that is not well formed stops with the fault noSuchUnit; a well-formed one answers a next state, but for host reads and writes of lines outside the HDM range, which stop with noSuchUnit; no command is refused. -/
def Obligations.WellFormedGoes : Prop :=
  ∀ (c : Instr) (s : State),
    (Instr.wf c = false → exec c s = .fault .noSuchUnit) ∧
    (Instr.wf c = true →
      Goes c s ∨ ((∃ a e, c = .hdmRead a e ∧ memDecodes s a = false ∧ exec c s = .fault .noSuchUnit) ∨
        (∃ a d, c = .hdmWrite a d ∧ memDecodes s a = false ∧ exec c s = .fault .noSuchUnit)))

/-! ### 02 Host attachment and registers -/

/-- For a 4-byte write (REGISTER_WRITE) at an aligned offset from 0x100 of a BAR0 page that responds, outside 64-bit registers: where a ground of R40 forbids a field's change, nothing changes but the page's reject record, which names that field's offset, class and reason (and FAB_TSTAT.err for a discarded FAB_TCMD); where none does, the write has its effect, and where no field of the register acts that is the store of its fields alone. The low word of a 64-bit register goes to the agent's latch (REG64_LOW_WRITE); the high word applies with it (REG64_HIGH_WRITE). -/
def Obligations.RegisterWriteJudged : Prop :=
  ∀ (s : State) (ag off : Nat) (v : W64) (w : RegWrite),
    agentOk ag = true → off < 2 ^ 28 → off % 4 = 0 → 0x100 ≤ off % 4096 → pageLive s ag (off / 4096) = true →
    isWindow (off / 4096) (off % 4096) = false →
    (regWriteOf s (off / 4096) (off % 4096) (v.truncate 32 : W32).toNat = some w → w.d.wide = false →
      (∀ f r, w.forbidden s ag = some (f, r) →
        Makes (.registerWrite ag 0 off 4 v) s (tabErr (off / 4096) (off % 4096) (s.reject w.pg (w.off + f.lo / 32 * 4) f.cls.code r))) ∧
      (w.forbidden s ag = none → Makes (.registerWrite ag 0 off 4 v) s (writeEffect ag w s) ∧
        (PlainWrite w → writeEffect ag w s = w.store s))) ∧
    (∀ x : W32, regWriteOf s (off / 4096) (off % 4096) 0 = some w → w.d.wide = true →
      (off % 4096 = w.off →
        Makes (.reg64LowWrite ag 0 off x) s
          { s with stage64 := SMap.put s.stage64 (latchKey ag (regKey w.pg w.u w.off)) x }) ∧
      (off % 4096 = w.off + 4 → ∀ low, SMap.find s.stage64 (latchKey ag (regKey w.pg w.u w.off)) = some low →
        let t : State := { s with stage64 := SMap.del s.stage64 (latchKey ag (regKey w.pg w.u w.off)) }
        let y : RegWrite := { w with v := low.toNat + 2 ^ 32 * x.toNat }
        y.forbidden t ag = none → Makes (.reg64HighWrite ag 0 off x) s (writeEffect ag y t) ∧
          (PlainWrite y → writeEffect ag y t = y.store t)))

/-- For every header, bit below 31, code and details: an error sets its bit; the first after ERR_STAT [30:0] was zero, whatever bit 31, loads the code, ERR_INFO and ERR_LOC; a later one leaves ERR_INFO, ERR_LOC and the code and increments the count, saturating at 0xFFFF; a rejection sets bit 31 and loads none of them; a W1C write that leaves [30:0] at zero clears the three, so that the next error is a first one. -/
def Obligations.ErrorRecords : Prop :=
  ∀ (b : Block) (bit code : Nat) (loc : W64) (info : W32), bit < 31 → code < 2 ^ 16 →
    (b.error bit code loc info).errStat = b.errStat ||| (1#32 <<< bit) ∧
    (b.errStat &&& 0x7FFFFFFF#32 = 0 →
      (b.error bit code loc info).errFirst = BitVec.ofNat 32 code ∧ (b.error bit code loc info).errInfo = info ∧
      (b.error bit code loc info).errLoc = loc) ∧
    (b.errStat &&& 0x7FFFFFFF#32 ≠ 0 →
      (b.error bit code loc info).errInfo = b.errInfo ∧ (b.error bit code loc info).errLoc = b.errLoc ∧
      (b.error bit code loc info).errFirst.toNat % 2 ^ 16 = b.errFirst.toNat % 2 ^ 16 ∧
      (b.error bit code loc info).errFirst.toNat / 2 ^ 16 = Nat.min (b.errFirst.toNat / 2 ^ 16 + 1) 0xFFFF) ∧
    (∀ off cls r, let q := b.reject off cls r
      q.errStat = b.errStat ||| 0x80000000#32 ∧ q.errFirst = b.errFirst ∧ q.errInfo = b.errInfo ∧ q.errLoc = b.errLoc) ∧
    (∀ v : W32, (b.errStat &&& ~~~v) &&& 0x7FFFFFFF#32 = 0 →
      (b.clearErr v).errFirst = 0 ∧ (b.clearErr v).errInfo = 0 ∧ (b.clearErr v).errLoc = 0 ∧
      (b.clearErr v).errStat &&& 0x7FFFFFFF#32 = 0)

/-- REG64_LOW_READ of a responding 64-bit register's low word returns it and snapshots the high word; RC_READ of AMP_EARLY_STAT returns stage and drop_count and clears drop_count; NARROW_OR_UNALIGNED_READ of one byte of a responding page changes nothing but the answer; EARLY_ACCESS_DROP returns 0xFFFF_FFFF to a read and counts a write; UNMAPPED_OFFSET_ACCESS reads 0 and ignores writes; SIDEBAND_PAGE_ACCESS of a page that the node serves reads its word, of ERR_LOC's low word with a snapshot of the high word; ERR_STAT_CLEAR and CFG_REJECT_CLEAR act on the page's header alone. -/
def Obligations.RegisterReads : Prop :=
  ∀ (s : State) (ag off : Nat), agentOk ag = true → off < 2 ^ 28 →
    (∀ w, off % 4 = 0 → regWriteOf s (off / 4096) (off % 4096) 0 = some w → w.d.wide = true → off % 4096 = w.off →
      pageLive s ag (off / 4096) = true →
      Makes (.reg64LowRead ag 0 off 4) s
        (({ s with snap64 := SMap.put s.snap64 (latchKey ag (regKey w.pg w.u w.off)) (readWord s (off / 4096) (off % 4096 + 4)) } : State).emit
          (.readData ag (readWord s (off / 4096) (off % 4096)).toNat))) ∧
    (pageLive s ag pgEarly = true →
      Completes (.rcRead ag 4 0x6100) s fun t =>
        t.fld pgEarly 0 0x100 16 16 = 0 ∧ t.out = s.out ++ [.readData ag (readWord s pgEarly 0x100).toNat]) ∧
    (pageLive s ag (off / 4096) = true →
      Makes (.narrowOrUnalignedRead ag 0 off 1) s (s.emit (.readData ag (bitsOf (readWord s (off / 4096) (off % 4096 / 4 * 4)).toNat (8 * (off % 4)) 8)))) ∧
    (∀ write, regionLive s agHost 0 off = false →
      Makes (.earlyAccessDrop 0 off write) s
        (if write then s.setFld pgEarly 0 0x100 16 16 (satInc (s.fld pgEarly 0 0x100 16 16) 0xFFFF)
         else s.emit (.readData agHost 0xFFFFFFFF))) ∧
    (∀ write, pageInfo (off / 4096) = none → 4 ≤ stageReach s →
      Makes (.unmappedOffsetAccess 0 off write) s (if write then s else s.emit (.readData agHost 0))) ∧
    (∀ v, off % 4 = 0 → off % 4096 < 0x100 → nodeServed s (off / 4096) = true → pageLive s ag (off / 4096) = true →
      (off % 4096 ≠ 0x20 → off % 4096 ≠ 0x24 →
        Makes (.sidebandPageAccess ag off false v) s (s.emit (.readData ag (readWord s (off / 4096) (off % 4096)).toNat))) ∧
      (off % 4096 = 0x20 → Completes (.sidebandPageAccess ag off false v) s fun t =>
        t.out = s.out ++ [.readData ag (readWord s (off / 4096) 0x20).toNat] ∧
        (readReg32 ag (off / 4096) 0x24 t).1 = readWord s (off / 4096) 0x24)) ∧
    (∀ pg v, pageOk pg = true → kindOf pg ≠ .core → pageLive s ag pg = true →
      Makes (.errStatClear ag pg v) s (s.setBlk pg ((s.blk pg).clearErr v))) ∧
    (∀ pg, pageOk pg = true → pageLive s ag pg = true → Makes (.cfgRejectClear ag pg) s (s.setBlk pg { s.blk pg with cfgRej := 0 }))

/-- On a page that responds: run starts a STOPPED block (RUN); stop_req drains a RUNNING one (STOP_REQ); part_reset of an unbound core page ends in its RESET (PART_RESET); commit in RUNNING away from its boundary sets the pending set to the page's shadows (COMMIT); lock locks a lockable page (LOCK). BLOCK_INIT_DONE leaves RESET for STOPPED, BLOCK_DRAIN_DONE leaves DRAINING for STOPPED, COMMITTED_SET_APPLY empties a running Steward page's pending set, BLOCK_FAULT leaves RUNNING or DRAINING for FAULTED with the bit set, BLOCK_WATCHDOG faults a drain past its bound, BLOCK_FENCE fences and leaves stop_req as it is, BLOCK_FENCE_RELEASE stops and clears stop_req; both act on a core's router and gate or ungate its clock; BLOCK_RECOVERY leaves FAULTED for STOPPED. -/
def Obligations.BlockStates : Prop :=
  ∀ (s : State) (ag pg : Nat), agentOk ag = true → pageOk pg = true → pageLive s ag pg = true →
    ((s.blk pg).st = .stopped → runOk s pg = true → Completes (.run ag pg) s fun t => if kindOf pg = .sched then (t.part (numOf pg)).ps = .running else (t.blk pg).st = .running) ∧
    ((s.blk pg).st = .running → kindOf pg ≠ .sched →
      Completes (.stopReq ag pg) s fun t => (t.blk pg).st = .draining ∧ (t.blk pg).stopReq = true ∧ (t.blk pg).since = s.now) ∧
    (kindOf pg = .core → boundAt s (numOf pg) = none → waferBusy s = false → (s.blk pg).st ≠ .fenced → (s.blk pg).st ≠ .reset →
      Completes (.partReset ag pg) s fun t => (t.blk pg).st = .reset ∧ (t.blk pg).commit = none ∧ (t.blk pg).evtCnt = (s.blk pg).evtCnt) ∧
    ((s.blk pg).st = .running → boundaryNow s pg = false → boundaryPart s pg = none →
      Makes (.commit ag pg) s { s.setBlk pg { s.blk pg with commit := some (pageShadows s pg) } with
        fresh := SMap.keep s.fresh fun k _ => !ownKey pg k }) ∧
    ((kindOf pg).shadowed = true → Makes (.lock ag pg) s (s.setBlk pg { s.blk pg with locked := true })) ∧
    ((s.blk pg).st = .reset → Completes (.blockInitDone pg) s fun t => (t.blk pg).st = .stopped ∧ (t.blk pg).partReset = false) ∧
    ((s.blk pg).st = .draining → drained s pg = true → kindOf pg ≠ .sched →
      Completes (.blockDrainDone pg) s fun t => (t.blk pg).st = .stopped ∧ (t.blk pg).stopReq = false) ∧
    (pg = pgServ ∨ pg = pgKv → running s pg = true → (s.blk pg).commit.isSome = true →
      Completes (.committedSetApply pg) s fun t => (t.blk pg).commit = none) ∧
    (∀ bit code loc data, bit < 31 → code < 2 ^ 16 → active s pg = true → kindOf pg ≠ .core →
      Completes (.blockFault pg bit code loc data) s fun t => (t.blk pg).st = .faulted ∧ (t.blk pg).errStat.getLsbD bit = true) ∧
    ((s.blk pg).st = .draining → (s.blk pg).since + drainBound s pg < s.now → kindOf pg ≠ .core →
      Completes (.blockWatchdog pg) s fun t => (t.blk pg).st = .faulted) ∧
    ((s.blk pg).st ≠ .reset → kindOf pg ≠ .core →
      Makes (.blockFence pg) s (s.setBlk pg { s.blk pg with st := .fenced })) ∧
    ((s.blk pg).st = .fenced → kindOf pg ≠ .core →
      Makes (.blockFenceRelease pg) s (s.setBlk pg { s.blk pg with st := .stopped, stopReq := false })) ∧
    (kindOf pg = .core → ((s.blk pg).st ≠ .reset → Completes (.blockFence pg) s fun t =>
        (t.blk pg).st = .fenced ∧ (t.blk pg).stopReq = (s.blk pg).stopReq ∧ bitAt (routerCfg t (numOf pg)) 38 = true ∧
        ((s.core (numOf pg)).on = true → (s.isl (numOf pg)).heater = false → (t.core (numOf pg)).gated = true) ∧
        ∀ x, x ≠ numOf pg → t.core x = s.core x) ∧
      ((s.blk pg).st = .fenced → Completes (.blockFenceRelease pg) s fun t =>
        (t.blk pg).st = .stopped ∧ (t.blk pg).stopReq = false ∧ bitAt (routerCfg t (numOf pg)) 38 = false ∧
        ((boundAt s (numOf pg)).isSome = true → (s.isl (numOf pg)).tripped = false → (t.core (numOf pg)).gated = false) ∧
        ∀ x, x ≠ numOf pg → t.core x = s.core x)) ∧
    ((s.blk pg).st = .faulted → (s.blk pg).recReq = true → (kindOf pg).resettable = false →
      Completes (.blockRecovery pg) s fun t => (t.blk pg).st = .stopped ∧ (t.blk pg).errStat = (s.blk pg).errStat ∧
        (t.blk pg).evtCnt = (s.blk pg).evtCnt ∧ (t.blk pg).commit = none)

/-- FLR, CONVENTIONAL_RESET and CXL_RESET clear MSI-X state, host doorbell bits and masks, the host's claims and IDE keys; a conventional reset drops the link, a CXL Reset uncommits the decoder and with Mem Clr zeroes the HDM range. H2D_SNOOP answers a miss, and of a line that is there answers with the data of a dirty one, invalidates it, shares it or leaves it as it is; the response codes are the model's (notes/assumptions/43.md). BISNP_RESPONSE ends the host's hold of the line. LINK_TRAIN leaves the link up in the flit mode that was trained and reports the function's enumeration data. HDM_DECODER_COMMIT commits from stage 4. -/
def Obligations.HostLink : Prop :=
  ∀ s : State,
    (let clean (t : State) : Prop :=
      t.host.msixTab = [] ∧ t.host.msixPend = [] ∧ t.host.msixFMask = false ∧ t.host.ideIo = none ∧ t.host.ideCm = none ∧
      t.host.ptmValid = false ∧ t.reg pgHostDb 0 0x100 = 0 ∧ t.reg pgHostDb 0 0x104 = 0xFFFFFFFF#32 ∧
      ∀ m, ¬((t.box m).claimed = true ∧ (t.box m).holder = agHost)
     (Completes .flr s clean) ∧
     (Completes .conventionalReset s fun t => clean t ∧ t.host.trained = false ∧ t.host.crsUntil = s.now + 100 * ms) ∧
     (∀ clr, Completes (.cxlReset clr) s fun t => clean t ∧ t.host.decCommitted = false ∧
       (clr = true → ∀ a, a < hdmBytes s → SMap.get t.mem.t1 0#8 a = 0#8))) ∧
    (∀ line op, SMap.find s.host.cache line = none → Makes (.h2dSnoop line op) s (s.emit (.snoopRsp line 0 []))) ∧
    (∀ line c, SMap.find s.host.cache line = some c →
      let rsp (dirty clean : Nat) (t : State) : Prop :=
        t.out = s.out ++ [if c.dirty then .snoopRsp line dirty c.data else .snoopRsp line clean []]
      (Completes (.h2dSnoop line .inv) s fun t => SMap.find t.host.cache line = none ∧ rsp 4 2 t) ∧
      (Completes (.h2dSnoop line .data) s fun t =>
        SMap.find t.host.cache line = some { c with dirty := false, excl := false } ∧ rsp 3 1 t) ∧
      (Completes (.h2dSnoop line .cur) s fun t => t.host = s.host ∧ rsp 6 5 t)) ∧
    (∀ line, Completes (.bisnpResponse line) s fun t => t.host.hostHeld.contains line = false) ∧
    (∀ width speed f, (width = 4 ∨ width = 8 ∨ width = 16) → 3 ≤ speed → speed ≤ 5 → 1 ≤ stageNow s →
      Completes (.linkTrain width speed f) s fun t => t.host.trained = true ∧ t.host.flit256 = f ∧
        .enumerated (fnReport s) ∈ t.out) ∧
    (∀ base lk, 4 ≤ stageNow s → stageNow s ≤ 6 → (s.host.decCommitted && s.host.decLocked) = false →
      Makes (.hdmDecoderCommit base lk) s { s with host := { s.host with decCommitted := true, decBase := base, decLocked := lk } })

/-- From stage 4 with CXL.mem on, HDM_READ of a readable line returns its 64 bytes and of an unreadable one all-ones with the RAS log and AER, and HDM_WRITE writes the line; HDM_CFG_WRITE accepted sets the next size; PTM_DIALOGUE when due stores host time minus device time; an aligned MSIX_TABLE_WRITE of 4 or 8 bytes puts them into the entry; MSIX_FUNCTION_MASK_WRITE sets the function mask. -/
def Obligations.HostMemory : Prop :=
  ∀ s : State,
    (∀ a errs, memDecodes s a = true → 4 ≤ stageNow s → memOn s = true →
      (∀ b t, t1Read { owner := 0, req := 0 } a 64 errs s = (.ok b, t) →
        Completes (.hdmRead a errs) s fun u => u.out = t.out ++ [.hdmData a b] ∧ u.host.hostHeld.contains (a / 64) = true) ∧
      (∀ e t, t1Read { owner := 0, req := 0 } a 64 errs s = (.error e, t) →
        Completes (.hdmRead a errs) s fun u => u.out = t.out ++ [.aer a, .hdmData a (List.replicate 64 0xFF#8)] ∧
          u.host.rasLog = BitVec.ofNat 64 a ∧ u.host.aerUnc = true)) ∧
    (∀ a d, memDecodes s a = true → d.length = 64 → 4 ≤ stageNow s → memOn s = true →
      Makes (.hdmWrite a d) s (t1Write { owner := 0, req := 0 } a d s).2) ∧
    (∀ ag (v : W32), Accepts s ag pgGlob 0x108 v.toNat →
      Completes (.hdmCfgWrite ag v) s fun t => t.fld pgGlob 0 0x108 0 9 = bitsOf v.toNat 0 9) ∧
    (∀ h : W64, s.fld pgGlob 0 0x10C 0 1 = 1 → s.host.ptmNext ≤ s.now →
      Completes (.ptmDialogue h) s fun t => t.host.ptmValid = true ∧ t.host.ptmNext = s.now + s.fld pgGlob 0 0x10C 4 12 * ms ∧
        t.reg64 pgGlob 0 0x110 = (h - BitVec.ofNat 64 s.now).toNat) ∧
    (∀ off n (v : W64), n = 4 ∨ n = 8 → off % n = 0 → off + n ≤ 0x8000 → 1 ≤ stageReach s →
      Completes (.msixTableWrite off n v) s fun t =>
        t.msixEntry (off / 16) = BitVec.ofNat 128 (putBits (s.msixEntry (off / 16)).toNat (8 * (off % 16)) (8 * n) v.toNat)) ∧
    (∀ m, Completes (.msixFunctionMaskWrite m) s fun t => t.host.msixFMask = m)

/-- For every state from stage 4, open ring r below 2^20 and doorbell value: only its low 24 bits count; the advance is the difference to the current index modulo 2^24; 0 leaves the ring as it is; on a submission ring one that leaves more than 2^n entries outstanding, on another kind one that passes the producer index, changes GLB_DB_STRAY alone; any other moves the producer (submission) or the consumer index. -/
def Obligations.Doorbell : Prop :=
  ∀ (s : State) (r : Nat) (g : Ring) (v : W64), r < 2 ^ 20 → 4 ≤ stageReach s → s.openRing? r = some g →
    let ix := v.toNat % 2 ^ 24
    let cur := if dKind g.desc = 0 then g.prod else g.cons
    let d := (ix + 2 ^ 24 - cur % 2 ^ 24) % 2 ^ 24
    let bad := d ≠ 0 ∧ if dKind g.desc = 0 then 2 ^ dLog2 g.desc < g.used + d else g.used < d
    (bad → Makes (.doorbellWrite (8 * r) 8 v) s (dbStray r s)) ∧
    (d = 0 → Makes (.doorbellWrite (8 * r) 8 v) s s) ∧
    (¬ bad → d ≠ 0 → Completes (.doorbellWrite (8 * r) 8 v) s fun t => t.ring r = some
      (if dKind g.desc = 0 then { g with prod := ix } else { g with cons := ix }))

/-- From stage 1 on a mailbox m below 64, the mailbox block neither FENCED nor FAULTED for this agent: a claim of a free one is granted and zeroes its words; the holder writes a word; its write of word 15 sends; the receiver's read of word 15 empties it; the holder releases; the stamped sender withdraws an unread message; an expired claim is released; an untaken message times out; while the block is FENCED or FAULTED a claim, a word, a release, a withdraw and a change of configuration by another agent than the AMP are discarded with reason 3; MBX_CFG_WRITE by host or AMP sets the timeout; host doorbell bits clear, and the mask is set; the AMP delivers an unread message for the BMC at once where bmc_async is set, and a delivered one empties; the BMC's message is sent with agent 3. -/
def Obligations.MailboxMessages : Prop :=
  ∀ (s : State) (ag m : Nat), agentOk ag = true → m < 64 → pageLive s ag pgMbx = true →
    let b := s.box m
    (barred s ag pgMbx = true → ∀ (k : Nat) (v : W32), k < 16 → Makes (.mbxClaim ag m) s (mbxReject m 0x48 2 3 s) ∧
      Makes (.mbxDataWrite ag m k v) s (mbxReject m (4 * k) 2 3 s) ∧ Makes (.mbxRelease ag m) s (mbxReject m 0x48 2 3 s) ∧
      Makes (.mbxWithdraw ag m) s (mbxReject m 0x48 2 3 s) ∧ Makes (.mbxCfgWrite ag m v) s (mbxReject m 0x4C 2 3 s)) ∧
    (barred s ag pgMbx = false →
    (b.full = false → b.claimed = false → Completes (.mbxClaim ag m) s fun t =>
      (t.box m).claimed = true ∧ (t.box m).holder = ag ∧ (t.box m).data = List.replicate 16 0#32 ∧ (t.box m).withdrawn = false) ∧
    (mayFill b ag = true → ∀ k (v : W32), k < 15 → Makes (.mbxDataWrite ag m k v) s (s.setBox m { b with data := b.data.set k v })) ∧
    (mayFill b ag = true → ∀ v : W32, Completes (.mbxSend ag m v) s fun t =>
      (t.box m).full = true ∧ (t.box m).claimed = false ∧ (t.box m).stamp = ag ∧ (t.box m).seq = (b.seq + 1) % 256 ∧
      (t.box m).data = b.data.set 15 v ∧ (t.box m).readStarted = false) ∧
    (mbxSees s ag m = true → Completes (.mbxDataRead ag m 15 4) s fun t =>
      t.out = s.out ++ [.readData ag (b.data.getD 15 0).toNat] ∧ (t.box m).full = false ∧ (t.box m).readStarted = true) ∧
    (b.claimed = true → b.holder = ag → Makes (.mbxRelease ag m) s (s.setBox m { b with claimed := false })) ∧
    (b.full = true → b.stamp = ag → b.readStarted = false →
      Makes (.mbxWithdraw ag m) s (s.setBox m { b with full := false, withdrawn := true })) ∧
    ((ag = agHost ∨ ag = agAmp) → ∀ v : W32, bitsOf v.toNat 16 3 = b.receiver → bitsOf v.toNat 0 16 ≠ b.timeoutCfg →
      Completes (.mbxCfgWrite ag m v) s fun t => (t.box m).timeoutCfg = bitsOf v.toNat 0 16 ∧ (t.box m).receiver = b.receiver)) ∧
    (b.claimed = true → b.limit ≠ 0 → b.since + b.limit * units100 ≤ s.now →
      Makes (.mbxClaimExpire m) s (s.setBox m { b with claimed := false, claimExpired := true })) ∧
    (b.full = true → b.limit ≠ 0 → b.since + b.limit * units100 ≤ s.now →
      Completes (.mbxMsgTimeout m) s fun t => (t.box m).timeout = true ∧ (t.box m).full = true) ∧
    (∀ v : W32, Accepts s ag pgHostDb 0x100 v.toNat → Completes (.hostDbClear ag v) s fun t => t.reg pgHostDb 0 0x100 = s.reg pgHostDb 0 0x100 &&& ~~~v) ∧
    (∀ v : W32, Accepts s ag pgHostDb 0x104 v.toNat → Completes (.hostDbMaskWrite ag v) s fun t => t.reg pgHostDb 0 0x104 = v) ∧
    (s.mg.amp = .up → bmcAsync s = true → b.full = true → receiverOf s m = 3 → b.readStarted = false → Completes (.mbxDeliver m) s fun t =>
      (t.box m).readStarted = true ∧ t.out = s.out ++ [.mctp 0x7E ([0, m, b.stamp, b.seq] ++ b.data.map (·.toNat))]) ∧
    (s.mg.amp = .up → b.full = true → receiverOf s m = 3 → b.readStarted = true → Completes (.mbxDeliverResponse m) s fun t =>
      (t.box m).full = false ∧ t.mbx.dbBmc.getLsbD (bellOf m) = false) ∧
    (∀ d : List W32, d.length = 16 → 1 ≤ stageNow s → s.mg.amp = .up → b.full = false → b.claimed = false →
      Completes (.bmcMailboxMsg m d) s fun t => (t.box m).full = true ∧ (t.box m).stamp = agBmc ∧ (t.box m).data = d)

/-- When one of the mailbox commands (claim, data write, send, data read, release, withdraw, claim expiry, configuration, delivery and its response, host doorbell clear and mask) answers a next state, what data plane and Steward hold, every other mailbox and all of edge memory are unchanged. -/
def Obligations.MailboxFrame : Prop :=
  ∀ (s t : State) (ag m k n : Nat) (v : W32) (c : Instr),
    (c = .mbxClaim ag m ∨ c = .mbxDataWrite ag m k v ∨ c = .mbxSend ag m v ∨ c = .mbxDataRead ag m k n ∨ c = .mbxRelease ag m ∨
      c = .mbxWithdraw ag m ∨ c = .mbxClaimExpire m ∨ c = .mbxCfgWrite ag m v ∨ c = .mbxDeliver m ∨ c = .mbxDeliverResponse m ∨
      c = .hostDbClear ag v ∨ c = .hostDbMaskWrite ag v) →
    exec c s = .next t →
    SamePlanes s t ∧ (∀ j, j ≠ m → t.box j = s.box j) ∧ t.led = s.led ∧ t.mg = s.mg

/-! ### 03 Serving engine -/

/-- An accepted write of SVC_RING_CMD: op 1 opens the selected ring with the descriptor in SVC_RING_DESC0-7, both indexes 0, when every check of R61 passes, and otherwise opens nothing and reports the error number; op 2 starts the close of an open ring, which RING_CLOSE_DONE ends, and reports error 6 for another; op 3 reads the descriptor and the device's index of an open ring, or reports error 6. The close of a token-output ring ends its live request with condition CANCELLED and without an entry; a submission ring with fetched entries keeps those alone under a number of its own (its ID plus a multiple of 2^20, notes/assumptions/80.md), takes no more, and leaves its ID closed. -/
def Obligations.RingCommands : Prop :=
  ∀ (s : State) (ag : Nat),
    let r := ringSel s
    let d := ringDescRegs s
    (Accepts s ag pgServ 0x114 1 →
      (descErr s r d false = 0 → Completes (.ringOpen ag) s fun t =>
        (∃ g, t.ring r = some g ∧ g.desc = d ∧ g.prod = 0 ∧ g.cons = 0 ∧ g.req = none ∧ g.closing = false) ∧
        t.regN pgServ 0 0x118 = 2 ∧ ∀ q, q ≠ r → t.ring q = s.ring q) ∧
      (descErr s r d false ≠ 0 → Completes (.ringOpen ag) s fun t =>
        t.serv = s.serv ∧ t.fld pgServ 0 0x118 4 4 = descErr s r d false)) ∧
    (Accepts s ag pgServ 0x114 2 →
      (∀ g, s.openRing? r = some g → Completes (.ringClose ag) s fun t =>
        t.ring r = some { g with closing := true } ∧ t.fld pgServ 0 0x118 0 1 = 1 ∧ ∀ q, q ≠ r → t.ring q = s.ring q) ∧
      (s.openRing? r = none → Completes (.ringClose ag) s fun t => t.serv = s.serv ∧ t.fld pgServ 0 0x118 4 4 = 6)) ∧
    (Accepts s ag pgServ 0x114 3 →
      (∀ g, s.openRing? r = some g → Completes (.ringRead ag) s fun t => t.serv = s.serv ∧
        t.fld pgServ 0 0x118 8 24 = (if dKind g.desc = 0 then g.cons else g.prod) % 2 ^ 24 ∧
        ∀ k, k < 8 → t.regN pgServ 0 (0x120 + 4 * k) = dBits g.desc (32 * k) 32) ∧
      (s.openRing? r = none → Completes (.ringRead ag) s fun t => t.serv = s.serv ∧ t.fld pgServ 0 0x118 4 4 = 6)) ∧
    (∀ q g, s.openRing? q = some g → g.closing = true →
      (∀ rid x, g.req = some rid → s.req rid = some x → Completes (.ringCloseDone q) s fun t =>
        t.ring q = none ∧ t.fld pgServ 0 0x118 0 1 = 0 ∧
        ∃ y, t.req rid = some y ∧ y.st = .ending ∧ y.mute = true ∧ y.has cCancelled = true) ∧
      (g.req = none → dKind g.desc ≠ 0 ∨ g.fetch = 0 → Completes (.ringCloseDone q) s fun t =>
        t.ring q = none ∧ t.serv.reqs = s.serv.reqs ∧ t.fld pgServ 0 0x118 0 1 = 0) ∧
      (q < 2 ^ 20 → g.req = none → dKind g.desc = 0 → 0 < g.fetch → Completes (.ringCloseDone q) s fun t =>
        t.ring q = none ∧ 2 ^ 20 ≤ nextLeft s q ∧ ringId (nextLeft s q) = q ∧
        t.ring (nextLeft s q) = some { g with closed := true, prod := (g.cons + g.fetch) % idx24 } ∧ t.serv.reqs = s.serv.reqs ∧
        t.fld pgServ 0 0x118 0 1 = 0))

/-- The reads that return are those of a closed ring of the ID with fetched entries, where there is one (readKey), else of the ring itself. For a submission ring none of whose writes is bound to fail: SUBMISSION_FETCH when it is ready reads up to 16 contiguous entries, of host memory with a request for each line that the cache lacks; FETCH_READ_DONE of entries that need no token buffer consumes them all, and a closed ring is gone with the last; with tokens for the one waiting entry, which pass every check, TOKEN_BUF_READ_DONE queues its request with them. FETCH_READ_FAIL and ENTRY_WRITE_FAIL of the last write close a ring and record the error; one of the next write closes it then. COALESCE_TIMER past the time, with no batch open, sends the vector and starts counting anew. Which of the two read requests a line gets is a free value (notes/assumptions/43.md). -/
def Obligations.Fetching : Prop :=
  ∀ (s : State) (r k : Nat) (g : Ring), s.ring k = some g →
    let lines := (linesOf (g.addr g.cons) (128 * fetchLen g)).filter fun l => (SMap.find s.host.cache l).isNone
    let good := g.closed = false ∧ (dWb g.desc = 0 ∨ g.failNext = false)
    let b := fun data => if dLoc g.desc = 1 then Mem.read s.mem.t1 (g.addr g.cons) (128 * g.fetch)
      else cacheBytes s (g.addr g.cons) (padTo (128 * g.fetch) data)
    (subReady s k = true → Completes (.submissionFetch k) s fun t => t.ring k = some { g with fetch := fetchLen g } ∧
      (dLoc g.desc ≠ 1 → t.out = s.out ++ lines.map fun l => .d2h (if Config.readsOwn l then .rdOwn else .rdCurr) l) ∧
      (dLoc g.desc = 1 → t.out = s.out)) ∧
    (readKey s r = k →
      (∀ data, 0 < g.fetch → g.held = [] → (∀ e ∈ cutEntries g.fetch (b data), needsBuf e = false) →
        (good → Completes (.fetchReadDone r data) s fun t =>
          ∃ h, t.ring k = some h ∧ h.cons = (g.cons + g.fetch) % idx24 ∧ h.prod = g.prod ∧ h.fetch = 0 ∧ h.held = []) ∧
        (g.closed = true → Completes (.fetchReadDone r data) s fun t => t.ring k = none)) ∧
      (∀ e toks, g.held = [e] → good → reqOp (eOp e) = true → preErr s g e = 0 → postErr s e = 0 →
        Completes (.tokenBufReadDone r toks true) s fun t =>
          (∃ q, t.req (freeReq s) = some q ∧ q.st = .queued ∧ q.toks = (List.range (eCount e)).map fun i =>
            if dLoc g.desc = 1 then BitVec.ofNat 32 (leNat (Mem.read s.mem.t1 (eBuf e + 4 * i) 4)) else toks.getD i 0) ∧
          ∃ h, t.ring k = some h ∧ h.cons = (g.cons + 1) % idx24 ∧ h.held = []) ∧
      (0 < g.fetch → g.held = [] → Completes (.fetchReadFail r) s fun t =>
        t.ring k = none ∧ (t.blk pgServ).errStat.getLsbD 0 = true)) ∧
    (g.closed = false → Completes (.entryWriteFail { ring := k }) s fun t =>
      t.ring k = none ∧ (t.blk pgServ).errStat.getLsbD 1 = true) ∧
    (g.closed = false → Completes (.entryWriteFail { ring := k, next := true }) s fun t =>
      t.ring k = some { g with failNext := true }) ∧
    (∀ f, dIrq g.desc = true → g.first = some f → g.batch = false → dCoUs g.desc ≠ 0 → f + dCoUs g.desc * us ≤ s.now →
      Completes (.coalesceTimer k) s fun t => t.ring k = some { g with since := 0, first := none } ∧
        (tagWaits s k = false → msixHeld s (dVec g.desc) = false →
          t.out = s.out ++ [.msix (dVec g.desc) (s.msixEntry (dVec g.desc))]))

/-- For a ready submission ring whose next write is not bound to fail. An entry that fails a check of R73 leaves requests and sessions as they are and is counted and recorded. One whose tokens lie in a token buffer waits for the read once the first checks pass. When all checks pass: GENERATE, PREFIX_REGISTER and ROLLBACK make a QUEUED request with the entry's fields and open its output ring; CANCEL ends every live request of the session with CANCELLED; SESSION_OPEN makes the session WARM with the entry's fields; SESSION_CLOSE without live requests leaves it CLOSED, and with live ones ends them and closes it behind them; SESSION_SPILL spills a WARM session that finds room, marks an ACTIVE one and is ignored elsewhere; SESSION_CONFIG sets partition, policy, priority and pin; PREFIX_RELEASE frees the handle. Each consumes one entry. -/
def Obligations.SubmissionEffect : Prop :=
  ∀ (s : State) (r : Nat) (g : Ring) (e : List Byte), s.ring r = some g → subReady s r = true →
    dWb g.desc = 0 ∨ g.failNext = false →
    let i (op : Nat) := eSess (subEntry op e)
    let ok (op : Nat) : Prop := needsBuf (subEntry op e) = false ∧ preErr s g (subEntry op e) = 0 ∧ postErr s (subEntry op e) = 0
    let taken (t : State) : Prop := ∃ h, t.ring r = some h ∧ h.cons = (g.cons + 1) % idx24 ∧ h.fetch = 0 ∧ h.held = []
    let ended (op : Nat) (t : State) : Prop := ∀ rid q, s.req rid = some q → q.session = i op →
      ∃ q', t.req rid = some q' ∧ q'.st = .ending ∧ q'.has cCancelled = true
    let queued (op : Nat) (k : ReqKind) (t : State) : Prop := taken t ∧
      (∃ q, t.req (freeReq s) = some q ∧ q.st = .queued ∧ q.kind = k ∧ q.session = i op ∧ q.ring = eRing (subEntry op e) ∧
        q.toks = eInline (subEntry op e) ∧ q.readAt = s.now ∧ q.slot = none ∧ q.adapter = eAd (subEntry op e) ∧
        q.temp = eNum (subEntry op e) 40 2 ∧ q.topP = eNum (subEntry op e) 42 2 ∧ q.topK = eNum (subEntry op e) 44 2 ∧
        (eNum (subEntry op e) 48 8 ≠ 0 → q.seed = eNum (subEntry op e) 48 8) ∧
        q.maxNew = (if op = 1 then eNum (subEntry op e) 16 4 else 0) ∧
        (op ≠ 9 → q.flags = eFlags (subEntry op e) ∧ q.handle = eHandle (subEntry op e) ∧
          q.stop0 = eNum (subEntry op e) 56 4 ∧ q.stop1 = eNum (subEntry op e) 60 4 ∧
          q.deadline = if eNum (subEntry op e) 20 4 = 0 then none else some (s.now + eNum (subEntry op e) 20 4 * us)) ∧
        (op = 9 → q.rlen = eNum (subEntry op e) 12 4 ∧ q.rk = eNum (subEntry op e) 16 4 ∧ q.flags = 0 ∧ q.deadline = none)) ∧
      ∃ h, t.ring (eRing (subEntry op e)) = some h ∧ h.desc = eDesc (subEntry op e) ∧ h.req = some (freeReq s) ∧ h.prod = 0 ∧
        h.cons = 0
    (∀ x : Instr × Nat, x ∈ [(.generate r e, 1), (.cancel r e, 2), (.sessionOpen r e, 3), (.sessionClose r e, 4),
        (.sessionSpill r e, 5), (.sessionConfig r e, 6), (.prefixRegister r e, 7), (.prefixRelease r e, 8), (.rollback r e, 9)] →
      preErr s g (subEntry x.2 e) ≠ 0 ∨ (needsBuf (subEntry x.2 e) = false ∧ postErr s (subEntry x.2 e) ≠ 0) →
      Completes x.1 s fun t => taken t ∧ t.serv.reqs = s.serv.reqs ∧
        t.serv.sess = s.serv.sess ∧ t.reg pgServ 0 0x184 = s.reg pgServ 0 0x184 + 1 ∧ (t.blk pgServ).errStat.getLsbD 4 = true) ∧
    (∀ x : Instr × Nat, x ∈ [(.generate r e, 1), (.prefixRegister r e, 7), (.rollback r e, 9)] →
      preErr s g (subEntry x.2 e) = 0 → needsBuf (subEntry x.2 e) = true → Completes x.1 s fun t =>
        (∃ h, t.ring r = some h ∧ h.cons = g.cons ∧ h.held = [subEntry x.2 e]) ∧ t.serv.reqs = s.serv.reqs ∧
        (dLoc g.desc ≠ 1 → t.out = s.out ++ [.hostRead (eBuf (subEntry x.2 e)) (4 * eCount (subEntry x.2 e))])) ∧
    (ok 1 → Completes (.generate r e) s (queued 1 .generate)) ∧
    (ok 7 → Completes (.prefixRegister r e) s (queued 7 .register)) ∧
    (ok 9 → Completes (.rollback r e) s (queued 9 .rollback)) ∧
    (ok 2 → Completes (.cancel r e) s fun t => taken t ∧ ended 2 t) ∧
    (ok 3 → Completes (.sessionOpen r e) s fun t => taken t ∧
      let v := t.sess (i 3)
      v.st = .warm ∧ v.tenant = eTenant (subEntry 3 e) ∧ v.part = ePart (subEntry 3 e) ∧ v.policy = ePolicy (subEntry 3 e) ∧
      v.prio = ePrio (subEntry 3 e) ∧ v.pin = ePin (subEntry 3 e) ∧ v.kvLen = 0 ∧ v.log = []) ∧
    (ok 4 → reqsOf s (i 4) = [] → Completes (.sessionClose r e) s fun t => taken t ∧ (t.sess (i 4)).st = .closed) ∧
    (ok 4 → reqsOf s (i 4) ≠ [] → Completes (.sessionClose r e) s fun t => taken t ∧ (t.sess (i 4)).closing = true ∧ ended 4 t) ∧
    (ok 5 → (s.sess (i 5)).st = .active → Completes (.sessionSpill r e) s fun t => taken t ∧ (t.sess (i 5)).spillPend = true) ∧
    (ok 5 → (s.sess (i 5)).st = .warm →
      spillExtents (s.pool (s.sess (i 5)).part).fmt (spillRecs s (i 5)) + logReserve s ≤ poolFree s →
      Completes (.sessionSpill r e) s fun t => taken t ∧ (t.sess (i 5)).st = .spilling) ∧
    (ok 5 → (s.sess (i 5)).st ≠ .active → (s.sess (i 5)).st ≠ .warm → Completes (.sessionSpill r e) s fun t =>
      taken t ∧ t.serv.sess = s.serv.sess) ∧
    (ok 6 → Completes (.sessionConfig r e) s fun t => taken t ∧
      let v := t.sess (i 6)
      v.st = (s.sess (i 6)).st ∧ v.part = ePart (subEntry 6 e) ∧ v.policy = ePolicy (subEntry 6 e) ∧
      v.prio = ePrio (subEntry 6 e) ∧ v.pin = ePin (subEntry 6 e)) ∧
    (ok 8 → Completes (.prefixRelease r e) s fun t => taken t ∧ ∀ h,
      SMap.find s.serv.handles (hIndex (eHandle (subEntry 8 e))) = some h →
      ∃ h', SMap.find t.serv.handles (hIndex (eHandle (subEntry 8 e))) = some h' ∧ h'.live = false ∧
        h'.gen = if h.gen = 0xFFFF then 1 else h.gen + 1)

/-- ADMISSION of the next QUEUED request of its session, where a step slot is free, the serving page runs and the Steward is not stopped, gives it the lowest free slot and the next admission number; RESTORE_DONE ends the restore and frees the stored object, where no page of it is barred by the tag check; REQUEST_END of an ENDING request at rest (no step in flight, no restore, no tree to commit) removes it and its output ring; DEADLINE_EXPIRE past a request's deadline sends it to ENDING, or finds it there, with LATE or DEADLINE_DROPPED by its policy. -/
def Obligations.RequestLife : Prop :=
  ∀ (s : State) (rid : Nat) (r : Req), s.req rid = some r →
    (∀ bad slot, r.st = .queued → r.slot = none → isNext s rid r = true → running s pgServ = true → s.mg.stwDead = false →
      freeSlot s (s.sess r.session).part = some slot →
      Completes (.admission rid bad) s fun t => t.serv.adm = s.serv.adm + 1 ∧
        ∃ q, t.req rid = some q ∧ q.slot = some slot ∧ q.adm = s.serv.adm ∧ q.session = r.session ∧ q.st ≠ .queued) ∧
    (∀ lost, r.rst = true →
      (∀ o, (s.sess r.session).obj = some o → ∀ x ∈ recPages (s.pool (s.sess r.session).part) r.session o,
        x.2.any (tagBad s (s.sess r.session).part r.session) = false) →
      Completes (.restoreDone rid lost) s fun t =>
      (∃ q, t.req rid = some q ∧ q.rst = false) ∧ (t.sess r.session).obj = none) ∧
    (r.st = .ending → r.atRest s = true → Completes (.requestEnd rid) s fun t => t.req rid = none ∧
      ∀ g, s.ring r.ring = some g → g.req = some rid → t.ring r.ring = none) ∧
    (∀ d, r.deadline = some d → d < s.now → Completes (.deadlineExpire rid) s fun t =>
      ∃ q, t.req rid = some q ∧ q.st = .ending ∧ q.has (if bitAt r.flags 0 then cDrop else cLate) = true)

/-- For every request: with condition 8 set the status is 8; else with 5 it is 5; then 7, 6, 2, 1, 4, 3; with none of them 0. A handle entry and a completion entry are 16 bytes. -/
def Obligations.CompletionStatus : Prop :=
  ∀ r : Req,
    (r.has 8 = true → r.status = 8) ∧
    (r.has 8 = false → r.has 5 = true → r.status = 5) ∧
    (r.has 8 = false → r.has 5 = false → r.has 7 = true → r.status = 7) ∧
    (r.has 8 = false → r.has 5 = false → r.has 7 = false → r.has 6 = true → r.status = 6) ∧
    (r.has 8 = false → r.has 5 = false → r.has 7 = false → r.has 6 = false → r.has 2 = true → r.status = 2) ∧
    (r.has 8 = false → r.has 5 = false → r.has 7 = false → r.has 6 = false → r.has 2 = false → r.has 1 = true → r.status = 1) ∧
    (r.has 8 = false → r.has 5 = false → r.has 7 = false → r.has 6 = false → r.has 2 = false → r.has 1 = false →
      r.status = if r.has 4 then 4 else if r.has 3 then 3 else 0) ∧
    (∀ (s : State) (g : Ring) st cond toks d h, (completionEntry st cond toks d s g).length = 16 ∧ (handleEntry h s g).length = 16)

/-- An accepted SVC_TEN_CMD op 1 gives the selected tenant the registers' rate, burst, weight, priority, enable and group, its level refilled and clipped to the new burst, or at the burst when it is enabled; op 2 reads them back and leaves the tables alone; an accepted write of SVC_QRY_SEL for a live request shows its session, state and delivered tokens, for a session its state, partition, tenant, policy, priority, KV length and log length, and sets done. -/
def Obligations.TenantsAndQueries : Prop :=
  ∀ (s : State) (ag : Nat),
    let i := tenSel s
    (Accepts s ag pgServ 0x144 1 → Completes (.tenantWrite ag) s fun t =>
      let x := t.tenant i
      let c := s.regN pgServ 0 0x154
      x.rate = s.regN pgServ 0 0x14C ∧ x.burst = s.fld pgServ 0 0x150 0 23 ∧ x.weight = bitsOf c 0 16 ∧ x.prio = bitsOf c 16 2 ∧
      x.enable = bitAt c 18 ∧ x.group = bitsOf c 20 8 ∧ x.tLast = s.now ∧ x.level ≤ (x.burst * 256 : Nat) * 1000000000 ∧
      (x.enable = true → (s.tenant i).enable = false → x.level = (x.burst * 256 : Nat) * 1000000000) ∧
      ∀ j, j ≠ i → t.tenant j = s.tenant j) ∧
    (Accepts s ag pgServ 0x144 2 → Completes (.tenantRead ag) s fun t => t.serv = s.serv ∧
      t.regN pgServ 0 0x14C = (s.tenant i).rate % 2 ^ 32 ∧ t.regN pgServ 0 0x150 = (s.tenant i).burst % 2 ^ 32 ∧
      t.reg pgServ 0 0x158 = levelWord (s.tenant i)) ∧
    (∀ (v : W32) r, Accepts s ag pgServ 0x160 v.toNat → bitsOf v.toNat 16 1 = 0 → s.req (bitsOf v.toNat 0 16) = some r →
      Completes (.query ag v) s fun t => t.serv = s.serv ∧ t.fld pgServ 0 0x160 31 1 = 1 ∧
        t.regN pgServ 0 0x164 = (r.session + r.st.code * 2 ^ 16) % 2 ^ 32 ∧ t.regN pgServ 0 0x168 = r.delivered % 2 ^ 32) ∧
    (∀ v : W32, Accepts s ag pgServ 0x160 v.toNat → bitsOf v.toNat 16 1 = 1 →
      Completes (.query ag v) s fun t => t.serv = s.serv ∧ t.fld pgServ 0 0x160 31 1 = 1 ∧
        let x := s.sess (bitsOf v.toNat 0 16)
        t.regN pgServ 0 0x164 = (x.st.code + x.part * 2 ^ 4 + x.tenant * 2 ^ 8 + x.policy * 2 ^ 20 + x.prio * 2 ^ 22) % 2 ^ 32 ∧
        t.regN pgServ 0 0x168 = x.kvLen % 2 ^ 32 ∧ t.regN pgServ 0 0x16C = x.log.length % 2 ^ 32)

/-- When RING_OPEN, RING_CLOSE, RING_READ, TENANT_WRITE, TENANT_READ or QUERY on a responding serving page answers a next state: the partitions, speculation, KV pools, weights, edge memory, cores, fabric, links, power, recorder and replay, the host link and the mailboxes are unchanged, and no register, shadow or header but those of the serving page. -/
def Obligations.ServingFrame : Prop :=
  ∀ (s t : State) (ag : Nat) (v : W32) (c : Instr), pageLive s ag pgServ = true →
    (c = .ringOpen ag ∨ c = .ringClose ag ∨ c = .ringRead ag ∨ c = .tenantWrite ag ∨ c = .tenantRead ag ∨ c = .query ag v) →
    exec c s = .next t →
    SamePlanes { s with serv := t.serv } t ∧ OnlyPage pgServ s t ∧ t.host = s.host ∧ t.mbx = s.mbx ∧ t.mg = s.mg ∧ t.led = s.led

/-- For a session with a stored object: T1_TTL_EXPIRE past its time moves it towards an open T2 window with room and else releases it; T2_TTL_EXPIRE releases it; SPILL_DONE, where the tag check bars none of its pages, leaves it SPILLED in the object's tier, its records as the pages then are, with the time to live from now; T2_MOVE_DONE of an object that T1 gives back leaves it in T2, and else releases it; T2_TRANSFER_FAIL during a move releases it. The tier is 1 or 2. -/
def Obligations.SpilledSessions : Prop :=
  ∀ (s : State) (i : Nat) (o : SpillObj), (s.sess i).obj = some o →
    (∀ x, (s.sess i).st = .t1 → o.moving = false → o.expiry = some x → x ≤ s.now →
      (t2Open s = true → o.extents ≤ t2Free s → Completes (.t1TtlExpire i) s fun t =>
        (t.sess i).st = .t1 ∧ (t.sess i).obj = some { o with moving := true, expiry := none, t2 := t2Pick s o.extents } ∧ t2Free t = t2Free s - o.extents) ∧
      (t2Open s = false ∨ t2Free s < o.extents → Completes (.t1TtlExpire i) s fun t =>
        (t.sess i).st = .released ∧ (t.sess i).obj = none ∧ (t.sess i).kvLen = 0)) ∧
    (∀ x, (s.sess i).st = .t2 → o.expiry = some x → x ≤ s.now → Completes (.t2TtlExpire i) s fun t =>
      (t.sess i).st = .released ∧ (t.sess i).obj = none ∧ (t.sess i).kvLen = 0) ∧
    ((s.sess i).st = .spilling → o.tier = 1 ∨ o.tier = 2 → tagBadPage s (s.sess i).part i = none → Completes (.spillDone i) s fun t =>
      (t.sess i).st = (if o.tier = 1 then .t1 else .t2) ∧
      (t.sess i).obj = some { o with recs := o.recs.map (spillRead s (s.sess i).part i), entered := s.now, expiry := if o.tier = 1 then ttl1 s else ttl2 s }) ∧
    ((s.sess i).st = .t1 → o.moving = true →
      let got := (extRead (spillAcc s i) (.spill i) 0 o.bytes.length s).1
      ((∃ b, got = .ok b) → Completes (.t2MoveDone i) s fun t =>
        (t.sess i).st = .t2 ∧ (t.sess i).obj = some { o with tier := 2, moving := false, expiry := ttl2 s }) ∧
      ((∃ e, got = .error e) → Completes (.t2MoveDone i) s fun t =>
        (t.sess i).st = .released ∧ (t.sess i).obj = none ∧ (t.sess i).kvLen = 0)) ∧
    (∀ u, (s.sess i).st = .t1 → o.moving = true → Completes (.t2TransferFail i u) s fun t =>
      (t.sess i).st = .released ∧ (t.sess i).obj = none ∧ (t.blk pgMap).errStat.getLsbD 0 = true)

/-! ### 04 Partitions, steps and the Equinox -/

/-- For a stage g of partition p. STEP_TOKEN_ARRIVE puts a token on its way to a free input there (the inbox of the leader of stage 0 lies in no read-only weight row); one that R111 refuses faults the stage. STAGE_STEP_START runs the waiting token when nothing runs, no Equinox is in progress, no grant is due, no page of the stage has aged unexamined and the tags pass. STAGE_STEP_HANDOFF moves a finished step towards the free input of the next stage, with the masks of its chunks, or out of the last stage, and notifies. STEP_DONE of a step that the stage has handed on restarts the stage's clock, and that of the next stage unless another step runs there; of any other step it changes nothing of the partition. STEP_RERUN runs an incomplete step again and counts it while retries remain, else faults the stage with retry_exhausted. STAGE_TIMEOUT past the limit faults the stage with step_timeout; the head of a span times each member so, under the numbers after its last stage. -/
def Obligations.StepsMove : Prop :=
  ∀ (s : State) (p g : Nat), p < 16 → g < (s.part p).stages.length →
    let q := s.part p
    let x := q.stage g
    (∀ t, q.transit.find? (fun e => e.1 = g) = some (g, t) → x.wait = none →
      (∀ site, siteOfLogical s p (q.stage 0).leader = some site → ∀ row, wregRow s site row = false) →
      (badStep s p t = false → Completes (.stepTokenArrive p g) s fun u =>
        ((u.part p).stage g).wait = some t ∧ (u.part p).transit = q.transit.erase (g, t)) ∧
      (badStep s p t = true → Completes (.stepTokenArrive p g) s fun u =>
        ((u.part p).stage g).faulted = true ∧ (u.blk (pgSched p)).errStat.getLsbD 3 = true)) ∧
    (∀ t, x.wait = some t → x.run = none → x.hold = false → x.faulted = false → q.eqx = none → grantsDue s p g = false →
      stageAges s p g = false → tagFail s p g t = none → Completes (.stageStepStart p g) s fun u =>
        ((u.part p).stage g).run = some t ∧ ((u.part p).stage g).wait = none) ∧
    (∀ t, x.run = some t → x.incomplete = false → x.faulted = false → q.stays g = false → q.span = [] →
      (g + 1 < q.stages.length → q.inputFree (g + 1) = true → Completes (.stageStepHandoff p g) s fun u =>
        ((u.part p).stage g).run = none ∧ ((u.part p).stage g).outs = x.outs ++ [t.step] ∧
        (u.part p).transit = q.transit ++ [(g + 1, { t with retry := 0 })] ∧
        u.out = s.out ++ maskFlits s p g t ++ [.notice g agStw 0x61 [p, g, t.step]]) ∧
      (g + 1 = q.stages.length → Completes (.stageStepHandoff p g) s fun u =>
        ((u.part p).stage g).run = none ∧ ((u.part p).stage g).outs = x.outs ++ [t.step] ∧
        (u.part p).leaving = q.leaving ++ [{ t with retry := 0 }] ∧
        u.out = s.out ++ [.notice g agStw 0x61 [p, g, t.step]])) ∧
    (∀ k, k < 2 ^ 32 → x.outs.contains k = true → Completes (.stepDone p g k) s fun u =>
      ((u.part p).stage g).clock = s.now ∧ ((u.part p).stage g).outs = x.outs.erase k ∧
      (g + 1 < q.stages.length → (∀ t, (q.stage (g + 1)).run = some t → t.step = k) → ((u.part p).stage (g + 1)).clock = s.now) ∧
      (∀ t, (q.stage (g + 1)).run = some t → t.step ≠ k → (u.part p).stage (g + 1) = q.stage (g + 1))) ∧
    (∀ k, k < 2 ^ 32 → x.outs.contains k = false → Completes (.stepDone p g k) s fun u => u.part p = q) ∧
    (∀ t, x.run = some t → x.incomplete = true →
      (t.retry < s.fld (pgSched p) 0 0x124 16 4 → Completes (.stepRerun p g) s fun u =>
        ((u.part p).stage g).run = some { t with retry := t.retry + 1 } ∧ ((u.part p).stage g).incomplete = false ∧
        u.reg (pgSched p) 0 0x190 = s.reg (pgSched p) 0 0x190 + 1) ∧
      (s.fld (pgSched p) 0 0x124 16 4 ≤ t.retry → Completes (.stepRerun p g) s fun u =>
        ((u.part p).stage g).faulted = true ∧ (u.blk (pgSched p)).errStat.getLsbD 1 = true)) ∧
    (∀ t, timedTok q g = some t → x.faulted = false → x.clock + stageLimit s p g t ≤ s.now →
      Completes (.stageTimeout p g) s fun u =>
        ((u.part p).stage g).faulted = true ∧ (u.blk (pgSched p)).errStat.getLsbD 0 = true) ∧
    (∀ t rest pos, 1 ≤ pos → pos < q.span.length → q.isHead = true → q.away = t :: rest → q.eqx = none → q.ps ≠ .paused →
      q.awayClock + memberLimit s p pos t ≤ s.now →
      Completes (.stageTimeout p (q.stages.length + pos - 1)) s fun u =>
        (u.part p).awayClock = s.now ∧ (u.part p).stages = q.stages ∧ (u.blk (pgSched p)).errStat.getLsbD 0 = true)

/-- Any step that the scheduler of a target builds new joins the tokens on their way to stage 0 with at least one entry, its count the number of entries, the next step number, one entry when it is a prefill step, and else no more than max_batch. An abandoned step that still has sequences, and room for them, goes first, with its own step number and the replay field incremented. STEP_COMMIT takes the oldest step that has left; a decode step of one sequence whose ring is open and whose token, the one of its distribution, neither ends the request nor needs a log extent appends the token and counts it delivered. -/
def Obligations.StepsBuiltAndCommitted : Prop :=
  ∀ (s : State) (p : Nat), p < 16 →
    let q := s.part p
    (let t := buildTarget p s
     (t.part p).transit = q.transit ∨ ∃ u, (t.part p).transit = q.transit ++ [(0, u)] ∧ u.count = u.ents.length ∧ u.ents ≠ [] ∧
       u.step = (q.stepNum + 1) % 2 ^ 32 ∧ u.part = p ∧ (u.kind = 1 → u.count = 1) ∧ (u.kind ≠ 1 → u.count ≤ maxBatch s p)) ∧
    (∀ t rest, s.mg.stwDead = false → q.isMember = false → q.replayOf = false → q.ps = .running → (s.blk (pgSched p)).st = .running → q.eqx = none →
      q.inputFree 0 = true → q.stages ≠ [] → q.mustEqx = false → q.abandoned = t :: rest →
      (let f := filterTok p t (s.modPart p fun v => { v with abandoned := rest })
       let m := roomFor p t f.1.ents [] f.2
       m.2.2 = false ∧ m.1 ≠ []) →
      Completes (.stepBuild p) s fun u => (u.part p).abandoned = rest ∧
        ∃ v, (u.part p).transit = q.transit ++ [(0, v)] ∧ v.step = t.step ∧ v.epoch = t.epoch ∧ v.replay = satInc t.replay 255) ∧
    (∀ t rest res, q.leaving = t :: rest → q.isMember = false → q.replayOf = false →
      Completes (.stepCommit p res) s fun u => (u.part p).leaving = rest) ∧
    (∀ t rest e rid r g x w lp res, q.leaving = t :: rest → q.isMember = false → q.replayOf = false → q.draftOf = 0xFF →
      t.kind = 0 → t.ents = [e] → reqOfSlot s p e.slot = some (rid, r) → s.req rid = some r → s.ring r.ring = some g →
      res = [⟨e.slot, [[⟨x, w, lp⟩]], []⟩] → 0 < w → g.failNext = false → r.mute = false → r.dropPend = false → r.st = .decode → late s r = false →
      (s.sess r.session).part = p → e.pos ≤ (s.sess r.session).kvLen → (s.sess r.session).log.length + 1 < maxCtx s p →
      logExt ((s.sess r.session).log.length + 1) = logExt (s.sess r.session).log.length →
      x.toNat ≠ r.stop0 → x.toNat ≠ r.stop1 → (r.maxNew = 0 ∨ r.delivered + 1 < r.maxNew) →
      Completes (.stepCommit p res) s fun u => (u.sess r.session).log = (s.sess r.session).log ++ [x] ∧
        ∃ y, u.req rid = some y ∧ y.delivered = r.delivered + 1 ∧ y.st = .decode ∧ y.inflight = r.inflight - 1 ∧ y.ready = true)

/-- For a partition of no span. EQX_START in RUNNING with a cause pending and no faulted stage enters EQUINOX with the next number and takes the causes; EQX_INTERVAL past the interval posts cause 4; EQX_REQ makes a stage finish and hold; EQX_ARRIVE notes an arrival, and at the last one without faults, with the Steward not stopped and no page barred by the tag check, releases to RUNNING with the Equinox's number, or with a pause holder set enters PAUSED; EQX_GO lets a stage go on. An accepted SCHED_CTRL write sets host holder bit 0 and cause 2 (pause), clears it and, in PAUSED with no other holder, returns to RUNNING (resume), or posts cause 5 (eqx_req). -/
def Obligations.EquinoxRuns : Prop :=
  ∀ (s : State) (p g ag : Nat), p < 16 → g < (s.part p).stages.length → (s.part p).span = [] →
    let q := s.part p
    (q.ps = .running → q.eqx = none → q.causes ≠ 0 → q.stages.all (fun x => !x.faulted) = true →
      Completes (.eqxStart p) s fun t => (t.part p).ps = .equinox ∧ (t.part p).causes = 0 ∧
        ∃ e, (t.part p).eqx = some e ∧ e.num = (q.eqxNum + 1) % 2 ^ 32 ∧ e.causes = q.causes ∧ e.phase = 2 ∧ e.start = s.now) ∧
    (s.fld (pgSched p) 0 0x124 0 16 ≠ 0 → q.lastEqx + s.fld (pgSched p) 0 0x124 0 16 * us ≤ s.now → q.eqx = none → q.ps = .running →
      Completes (.eqxInterval p) s fun t => (t.part p).causes = q.causes ||| 16) ∧
    (∀ e, q.eqx = some e → e.phase = 2 → e.reqd.contains g = false → (q.stage g).faulted = false → (q.stage g).incomplete = false →
      Completes (.eqxReq p g) s fun t => ((t.part p).stage g).hold = true ∧ ((t.part p).stage g).done = (q.stage g).run.isSome ∧
        t.out = s.out ++ [.notice g agStw 0x5F [p, e.num]]) ∧
    (∀ e, q.eqx = some e → e.phase = 2 → e.reqd.contains g = true → e.arrived.contains g = false →
      ((∃ h, h < q.stages.length ∧ h ≠ g ∧ (q.stage h).faulted = false ∧ e.arrived.contains h = false) →
        Completes (.eqxArrive p g) s fun t => (t.part p).eqx = some { e with arrived := e.arrived ++ [g] }) ∧
      ((∀ h, h < q.stages.length → (q.stage h).faulted = false ∧ (h = g ∨ e.arrived.contains h = true)) → e.faults = [] →
        s.mg.stwDead = false → (∀ i pg, tagBad s p i pg = false) → e.spanIn = [] → q.spanHold = [] → q.drainReloc = false → q.stopHeld = false → q.ps = .equinox →
        (q.holders = 0 → Completes (.eqxArrive p g) s fun t => (t.part p).ps = .running ∧ (t.part p).eqx = none ∧
          (t.part p).eqxNum = e.num ∧ (t.part p).lastEqx = s.now ∧ t.fld (pgSched p) 0 0x12C 0 24 = e.num % 2 ^ 24) ∧
        (q.holders ≠ 0 → Completes (.eqxArrive p g) s fun t => (t.part p).ps = .paused ∧ (t.part p).eqx = none ∧
          (t.part p).eqxNum = e.num))) ∧
    (q.eqx = none → q.ps ≠ .paused → Completes (.eqxGo p g) s fun t => ((t.part p).stage g).hold = false) ∧
    (Accepts s ag (pgSched p) 0x120 1 → bitAt q.holders 0 = false → q.ps = .running →
      Completes (.schedPause ag p) s fun t => (t.part p).holders = q.holders ||| 1 ∧ (t.part p).causes = q.causes ||| 4) ∧
    (Accepts s ag (pgSched p) 0x120 2 → bitAt q.holders 0 = true →
      Completes (.schedResume ag p) s fun t => (t.part p).holders = q.holders - 1 ∧
        (q.ps = .paused → q.eqx = none → q.holders = 1 → s.mg.stwDead = false → q.stages.all (fun x => !x.faulted) = true →
          (∀ i pg, tagBad s p i pg = false) → q.spanHold = [] → q.drainReloc = false → q.stopHeld = false → (t.part p).ps = .running)) ∧
    (Accepts s ag (pgSched p) 0x120 4 → Completes (.schedEqxReq ag p) s fun t => (t.part p).causes = q.causes ||| 32)

/-- STEP_DONE, EQX_REQ, EQX_GO and, in a partition of no span, STAGE_STEP_HANDOFF: requests, sessions, rings, KV pools, edge memory, cores and power keep everything, every register, shadow and block header stays, and so does every other partition; of the fabric only the flits that it carries change, and the count that numbers packets. -/
def Obligations.StepFrame : Prop :=
  ∀ (s t : State) (p g k : Nat) (c : Instr), (s.part p).span = [] →
    (c = .stepDone p g k ∨ c = .eqxReq p g ∨ c = .eqxGo p g ∨ c = .stageStepHandoff p g) → exec c s = .next t →
    SamePlanes { s with parts := t.parts, fab := t.fab } t ∧ { t.fab with flits := s.fab.flits, pids := s.fab.pids } = s.fab ∧
    (∀ j, j ≠ p → t.part j = s.part j) ∧ t.regs = s.regs ∧ t.shadow = s.shadow ∧
    t.blocks = s.blocks ∧ t.host = s.host ∧ t.mbx = s.mbx ∧ t.paths = s.paths

/-- With the coefficients of a stage's cost registers (W and F in ns, M and G in ps per position, A in fs per context position) the estimate of a stage in femtoseconds is max(W, M N) + A C + F + G N, and that of a step the largest over the partition's stages: at least every stage's, and one of theirs when there is a stage. -/
def Obligations.StepEstimate : Prop :=
  ∀ (s : State) (p n c : Nat),
    (∀ g, estStage s p g n c =
      Nat.max (s.regN (pgSched p) g 0x144 * 10 ^ 6) (s.regN (pgSched p) g 0x148 * n * 1000) + s.regN (pgSched p) g 0x14C * c +
        s.regN (pgSched p) g 0x150 * 10 ^ 6 + s.regN (pgSched p) g 0x154 * n * 1000) ∧
    (∀ g, g < (s.part p).stages.length → estStage s p g n c ≤ estStep s p n c) ∧
    (0 < (s.part p).stages.length → ∃ g, g < (s.part p).stages.length ∧ estStep s p n c = estStage s p g n c)

/-! ### 05 Speculation, 06 the KV cache -/

/-- SPEC_OUTCOME for a node of an injected chunk of the slot's uncommitted tree, none of the old tree's chunks in flight: the outcome that R143 gives for the node's distribution is recorded; while the walk from the root misses an outcome the tree stays uncommitted; when the walk ends the tree, if it is still there, is committed, and SPEC_CNT_TREES counts it, or SPEC_CNT_DEPTH0 a tree cut to depth 0. Which tokens R143 draws is the generator's, a free value (notes/assumptions/71.md). TREE_PAGES_RELEASE with no chunk of the old tree in flight cuts every chain of the session to the KV length, one more position while the next tree, of depth 0, is in flight, or to what the next tree holds. -/
def Obligations.TreeOutcomes : Prop :=
  ∀ (s : State) (p slot rid : Nat) (r : Req) (x : Tree), p < 16 → slot < 4096 → s.tree p slot = some x →
    reqOfSlot s p slot = some (rid, r) →
    (∀ node toks probs lps, x.committed = false → x.old = 0 → node < x.nodes.length →
      (x.nodes.getD node ⟨0, 63, 99, 0, []⟩).depth < x.chunks →
      let l : List TokP := ((toks.zip probs).zip lps).map fun e => ⟨e.1.1, e.1.2, e.2⟩
      (nodeOutcome r.greedy r.seed x node l = none → Makes (.specOutcome p slot node toks probs lps) s s) ∧
      ∀ o, nodeOutcome r.greedy r.seed x node l = some o →
      let y : Tree := { x with outs := SMap.put x.outs node o }
      (walkTree y (x.nodes.length + 1) 0 [] = none → Completes (.specOutcome p slot node toks probs lps) s fun t =>
        t.tree p slot = some y ∧ t.serv = s.serv ∧ t.kv = s.kv) ∧
      (∀ w, walkTree y (x.nodes.length + 1) 0 [] = some w → Completes (.specOutcome p slot node toks probs lps) s fun t =>
        (∀ z, t.tree p slot = some z → z.committed = true) ∧
        let k := if x.depth = 0 then 0x18C else 0x180
        t.reg pgAcc p k = s.reg pgAcc p k + 1)) ∧
    (x.old = 0 → x.committed = false ∨ x.inflight = 0 → (s.pool p).slots ≠ 0 → Completes (.treePagesRelease p slot) s fun t =>
      ∀ gi, gi < (s.pool p).groups.length → ((t.pool p).chain r.session gi).len ≤
        let kv := (s.sess r.session).kvLen
        if x.committed then kv + (if 0 < r.inflight then 1 else 0) else Nat.max kv (x.pos + 1 + x.widths.foldl (· + ·) 0))

/-- PAGE_GRANT applies the oldest grant other than a copy that waits at a core and takes it from the queue; a share puts the page into the local list of its step slot at the holder's site. PAGE_COPY_DONE lands the oldest copy whose frame stands ready, where the tag check bars neither page. PAGE_AGE_EXAMINE of a page that has aged marks it aged once, with eviction on, where the tag check does not bar it. An accepted write of SVC_KV_PQ shows the page-table entry. -/
def Obligations.PageCommands : Prop :=
  ∀ (s : State) (p : Nat), p < 16 →
    (∀ core g rest, core < 16384 → takeGrant core (fun o => decide (o.op ≠ .copy)) (s.pool p).copies = some (g, rest) →
      Completes (.pageGrant p core) s fun t => (t.pool p).copies = rest ∧ (t.pool p).pages = (s.pool p).pages ∧
        ∀ site, siteOfLogical s p core = some site → g.op = .share → g.slot < 4096 →
          ∃ e ∈ SMap.get (t.core site).plist [] g.slot, e.frame = pageFrame g.page) ∧
    (∀ core g rest, core < 16384 → takeGrant core (copyReady (s.pool p).copies) (s.pool p).copies = some (g, rest) →
      (∀ o, slotOwner s p g.slot = some o → tagBad s p o.1 g.src = false ∧ tagBad s p o.1 g.page = false) →
      Completes (.pageCopyDone p core) s fun t => (t.pool p).copies = rest ∧ (t.pool p).pages = (s.pool p).pages ∧
        ∀ site, siteOfLogical s p core = some site → g.slot < 4096 → ∃ e ∈ SMap.get (t.core site).plist [] g.slot, e.frame = pageFrame g.page) ∧
    (∀ pg g, SMap.find (s.pool p).pages pg = some g → g.aged = false → g.st ≠ .lost → hasAged (s.pool p) pg = true →
      bitsOf (s.pool p).hcfg.toNat 0 1 = 1 →
      (∀ i, sessOfPage (s.pool p) pg = some i → tagBad s p i pg = false) → Completes (.pageAgeExamine p pg) s fun t =>
        SMap.find (t.pool p).pages pg = some { g with aged := true }) ∧
    (∀ ag (v : W32), Accepts s ag pgKv 0x130 v.toNat → Completes (.kvPageQuery ag v) s fun t =>
      t.kv = s.kv ∧ ∀ k, k < 4 → t.regN pgKv 0 (0x134 + 4 * k) =
        (pageSnapshot (s.pool (s.fld pgKv 0 0x100 0 4)) v.toNat).getD k 0 % 2 ^ 32)

/-- A new page goes to a member of its holder group with a free frame, to a fused one when any fused member has one, and among those allowed to the one with the most free frames, ties to the lower core. Growing a chain by one slot writes in place on a page the chain may write, whose fill rises; otherwise the chain's page is replaced by a new private page with one reference that holds the slots below and the new one, and the source loses a reference or its entry. -/
def Obligations.PagePlacement : Prop :=
  (∀ (q : KvPool) (g : HGroup) (c : Nat), q.place g = some c →
    c ∈ g.members ∧ 0 < q.freeFrames c ∧
    (∀ d ∈ g.members, 0 < q.freeFrames d → (q.kvCore d).fused = true → (q.kvCore c).fused = true) ∧
    (∀ d ∈ g.members, 0 < q.freeFrames d → (q.kvCore d).fused = (q.kvCore c).fused →
      q.freeFrames d < q.freeFrames c ∨ (q.freeFrames d = q.freeFrames c ∧ c ≤ d))) ∧
  (∀ (s t : State) (p sess gi slot ten grp pg : Nat) (g : Page),
    let q := s.pool p
    let c := q.chain sess gi
    let i := (c.len - c.removed) / q.slots
    let sl := (c.len - c.removed) % q.slots
    c.pages[i]? = some pg → SMap.find q.pages pg = some g → growOne p sess gi slot ten grp s = some t →
    ((t.pool p).chain sess gi).len = c.len + 1 ∧
    (mayWrite g c.len (c.removed + i * q.slots) sl = true → ((t.pool p).chain sess gi).pages = c.pages ∧
      SMap.find (t.pool p).pages pg = some { g with fill := Nat.min q.slots (Nat.max g.fill (sl + 1)) }) ∧
    (mayWrite g c.len (c.removed + i * q.slots) sl = false → ∃ np e, np ≠ pg ∧
      ((t.pool p).chain sess gi).pages = c.pages.set i np ∧ SMap.find (t.pool p).pages np = some e ∧ e.st = .priv ∧
      e.refc = 1 ∧ e.fill = sl + 1 ∧
      (g.refc ≤ 1 → SMap.find (t.pool p).pages pg = none) ∧
      (1 < g.refc → ∃ h, SMap.find (t.pool p).pages pg = some h ∧ h.refc = g.refc - 1)))

/-! ### 07 The core, 08 numbers, 09 the scratchpad -/

/-- On a core that issues, with a = g[a] and b = g[b] or the sign-extended immediate: ADD, SUB, AND, OR, XOR, SHL, SHR, SRA (by less than 64), MUL, MULH, MULHU, DIVU and REMU (b not 0), SLT, SLTU, MIN, MAX, MINU, MAXU, CLZ, POPC, MOV each retire with their result in g[d] alone, g0 staying 0, everything else of the module as before; the shifts, DIVU, REMU on the other operands and MOVHI and SEL retire with some value in g[d], which the spec does not state (log entries 4, 24). -/
def Obligations.ScalarResults : Prop :=
  ∀ (s : State) (site : Nat) (w : BitVec 56) (ecc : Ecc), Issues s site ecc →
    let c := s.core site
    let d := bitsOf w.toNat 0 5
    let imm : W64 := (BitVec.ofNat 32 (bitsOf w.toNat 24 32)).signExtend 64
    let a := c.greg (bitsOf w.toNat 5 5)
    let b := if bitAt w.toNat 15 then imm else c.greg (bitsOf w.toNat 10 5)
    (∀ e ∈ ([(.iAdd site w ecc, True, a + b), (.iSub site w ecc, True, a - b), (.iAnd site w ecc, True, a &&& b),
        (.iOr site w ecc, True, a ||| b), (.iXor site w ecc, True, a ^^^ b),
        (.iShl site w ecc, b.toNat < 64, a <<< b.toNat), (.iShr site w ecc, b.toNat < 64, a >>> b.toNat),
        (.iSra site w ecc, b.toNat < 64, a.sshiftRight b.toNat), (.iMul site w ecc, True, a * b),
        (.iMulh site w ecc, True, BitVec.ofInt 64 (a.toInt * b.toInt / 2 ^ 64)),
        (.iMulhu site w ecc, True, BitVec.ofNat 64 (a.toNat * b.toNat / 2 ^ 64)),
        (.iDivu site w ecc, b ≠ 0, BitVec.ofNat 64 (a.toNat / b.toNat)),
        (.iRemu site w ecc, b ≠ 0, BitVec.ofNat 64 (a.toNat % b.toNat)),
        (.iSlt site w ecc, True, if a.toInt < b.toInt then 1 else 0),
        (.iSltu site w ecc, True, if a.toNat < b.toNat then 1 else 0),
        (.iMin site w ecc, True, BitVec.ofInt 64 (min a.toInt b.toInt)),
        (.iMax site w ecc, True, BitVec.ofInt 64 (max a.toInt b.toInt)),
        (.iMinu site w ecc, True, BitVec.ofNat 64 (min a.toNat b.toNat)),
        (.iMaxu site w ecc, True, BitVec.ofNat 64 (max a.toNat b.toNat)),
        (.iClz site w ecc, True, BitVec.ofNat 64 (clz64 a)), (.iPopc site w ecc, True, BitVec.ofNat 64 (popc64 a)),
        (.iMov site w ecc, True, if bitAt w.toNat 15 then imm else a)] : List (Instr × Prop × W64)),
      e.2.1 → Retires e.1 s site (c.pc + 8) (WritesG c d e.2.2)) ∧
    (∀ i ∈ ([.iShl site w ecc, .iShr site w ecc, .iSra site w ecc, .iDivu site w ecc, .iRemu site w ecc,
        .iMovhi site w ecc, .iSel site w ecc] : List Instr), ∃ x, Retires i s site (c.pc + 8) (WritesG c d x))

/-- At byte address A = g[a] + imm below 24 MiB, no queued load overlapping: LD8U, LD16U, LD32U, LD64 put the zero-extended little-endian value into g[d]; ST8, ST16, ST32, ST64, with no queued store overlapping and no read-only weight row, write the low bytes of operand b at A and no other byte. At element address E with at most 56 in its column and below row 12,288: VLD fills the lanes of v[d] with 256 bytes, VLDB with lanes the spec does not state; VST writes the 256 bytes of v[b] (log entry 24), VSTM some 256 bytes there (log entry 4). -/
def Obligations.CoreMemory : Prop :=
  ∀ (s : State) (site : Nat) (w : BitVec 56) (ecc : Ecc), Issues s site ecc →
    let c := s.core site
    let d := bitsOf w.toNat 0 5
    let imm : W64 := (BitVec.ofNat 32 (bitsOf w.toNat 24 32)).signExtend 64
    let x := (c.greg (bitsOf w.toNat 5 5) + imm).toNat
    let b := if bitAt w.toNat 15 then imm else c.greg (bitsOf w.toNat 10 5)
    (∀ e ∈ ([(.iLd8u site w ecc, 1), (.iLd16u site w ecc, 2), (.iLd32u site w ecc, 4), (.iLd64 site w ecc, 8)] : List (Instr × Nat)),
      x + e.2 ≤ 25165824 → c.pendW (x / 32, (x + e.2 - 1) / 32) = false →
      Retires e.1 s site (c.pc + 8) (WritesG c d (BitVec.ofNat 64 (leNat (Mem.read c.spad x e.2))))) ∧
    (∀ e ∈ ([(.iSt8 site w ecc, 1), (.iSt16 site w ecc, 2), (.iSt32 site w ecc, 4), (.iSt64 site w ecc, 8)] : List (Instr × Nat)),
      x + e.2 ≤ 25165824 → c.pendW (x / 32, (x + e.2 - 1) / 32) = false → c.pendR (x / 32, (x + e.2 - 1) / 32) = false →
      (∀ row, row ≤ 12287 → wregRow s site row = false) →
      Retires e.1 s site (c.pc + 8) (WritesB c x (leBytes e.2 b.toNat))) ∧
    (x % 64 ≤ 56 → x < 786432 → c.held ≤ 31 → c.pendW (x, x + 7) = false →
      Retires (.iVld site w ecc) s site (c.pc + 8)
        (WritesV c d ((List.range 64).map fun l => BitVec.ofNat 32 (leNat (Mem.read c.spad (32 * x + 4 * l) 4)))) ∧
      (∃ v : List W32, v.length = 64 ∧ Retires (.iVldb site w ecc) s site (c.pc + 8) (WritesV c d v)) ∧
      (c.pendR (x, x + 7) = false → wregRow s site (x / 64) = false →
        Retires (.iVst site w ecc) s site (c.pc + 8)
          (WritesB c (32 * x) ((c.vec (bitsOf w.toNat 10 5)).map fun v => leBytes 4 v.toNat).flatten) ∧
        ∃ v : List Byte, v.length = 256 ∧ Retires (.iVstm site w ecc) s site (c.pc + 8) (WritesB c (32 * x) v)))

/-- A branch whose target pc + imm is a multiple of 8 goes there where its condition on g[a] and operand b holds (BEQ, BNE, BLT, BGE, BLTU, BGEU), else on to the next word; JAL and JALR, whose target is that of their row too (log entry 26), link the next address in g[d]. SYSRD returns the core's index, partition and stage, device time, the overflow flags and the stepping ordinal; index 2 a free value. SYSWR 4 clears the overflow flags written as 1. FENCE and NOP change no register. -/
def Obligations.ControlAndSystem : Prop :=
  ∀ (s : State) (site : Nat) (w : BitVec 56) (ecc : Ecc), Issues s site ecc →
    let c := s.core site
    let d := bitsOf w.toNat 0 5
    let n := bitsOf w.toNat 24 32
    let imm : W64 := (BitVec.ofNat 32 n).signExtend 64
    let a := c.greg (bitsOf w.toNat 5 5)
    let b := if bitAt w.toNat 15 then imm else c.greg (bitsOf w.toNat 10 5)
    let target := (BitVec.ofNat 64 c.pc + imm).toNat
    let link : W64 := BitVec.ofNat 64 ((c.pc + 8) % 2 ^ 25)
    let page := pgCore site
    (∀ e ∈ ([(.iBeq site w ecc, decide (a = b)), (.iBne site w ecc, decide (a ≠ b)),
        (.iBlt site w ecc, decide (a.toInt < b.toInt)), (.iBge site w ecc, decide (b.toInt ≤ a.toInt)),
        (.iBltu site w ecc, decide (a.toNat < b.toNat)), (.iBgeu site w ecc, decide (b.toNat ≤ a.toNat))] : List (Instr × Bool)),
      target % 8 = 0 → Retires e.1 s site (if e.2 then target else c.pc + 8) (WritesNone c)) ∧
    (target % 8 = 0 → Retires (.iJal site w ecc) s site target (WritesG c d link)) ∧
    (target % 8 = 0 → Retires (.iJalr site w ecc) s site target (WritesG c d link)) ∧
    (∀ x ∈ ([(0, s.fld page 0 0x104 0 14), (1, s.fld page 0 0x104 16 4 + s.fld page 0 0x104 20 8 * 256), (3, s.nodeNow (siteTile site)),
        (4, s.reg64 page 0 0x130), (5, if s.b0 then 1 else 0)] : List (Nat × Nat)), n = x.1 → ecc.ce = 0 →
      Retires (.iSysrd site w ecc) s site (c.pc + 8) (WritesG c d (BitVec.ofNat 64 x.2))) ∧
    (n = 2 → Completes (.iSysrd site w ecc) s fun t => t.free = s.free + 1 ∧ OnlyCore site [] s { t with free := s.free } ∧
      (t.core site).pc = (c.pc + 8) % 2 ^ 25 ∧ ∃ x, WritesG c d x (t.core site)) ∧
    (n = 4 → Completes (.iSyswr site w ecc) s fun t => OnlyCore site [0x130, 0x134] s t ∧ WritesNone c (t.core site) ∧
      (t.core site).pc = (c.pc + 8) % 2 ^ 25 ∧
      ∀ k, k < 64 → (t.reg64 page 0 0x130).testBit k = ((s.reg64 page 0 0x130).testBit k && !a.getLsbD k)) ∧
    Retires (.iFence site w ecc) s site (c.pc + 8) (WritesNone c) ∧
    Retires (.iNop site w ecc) s site (c.pc + 8) (WritesNone c)

/-- On a core that issues, with lane type mod [1:0], A the lanes of v[a], B those of v[b] or the immediate in each, V those of v[d]: VADD, VSUB, VMUL, VFMA, VMAX, VMIN, VABS, VNEG, VCVT, VAND, VOR, VXOR write v[d] lane by lane; VEXP, VLOG, VRCP, VRSQ, VSQRT, VTANH do so of FP32 lanes; VSHL and VSHR shift 32-bit lanes by less than 32; VRSUM and VRMAX put the fixed-tree sum and the maximum into lane 0. VCMP, VSEL, VPERM, VBCAST, VMOVS, and VARGMAX and VTOPK16 on stepping B0, write some 64 lanes, VMOVG some g[d] (log entry 4). All retire and change nothing else. -/
def Obligations.VectorResults : Prop :=
  ∀ (s : State) (site : Nat) (w : BitVec 56) (ecc : Ecc), Issues s site ecc →
    let c := s.core site
    let d := bitsOf w.toNat 0 5
    let ty := bitsOf w.toNat 16 2
    let n := bitsOf w.toNat 24 32
    let A := c.vec (bitsOf w.toNat 5 5)
    let B := if bitAt w.toNat 15 then List.replicate 64 (BitVec.ofNat 32 n) else c.vec (bitsOf w.toNat 10 5)
    let V := c.vec d
    let z (f : W32 → W32 → W32) : List W32 := List.zipWith f A B
    (∀ e ∈ ([(.iVadd site w ecc, True, z (laneOp2 ty Fp.add fun x y => x + y)),
        (.iVsub site w ecc, True, z (laneOp2 ty (fun x y => x.add y.neg) fun x y => x - y)),
        (.iVmul site w ecc, True, z (laneOp2 ty Fp.mul fun x y => x * y)),
        (.iVfma site w ecc, True, (List.range 64).map fun l => laneFma ty (A.getD l 0) (B.getD l 0) (V.getD l 0)),
        (.iVmax site w ecc, True, z (laneCodes ty fMax intMax)), (.iVmin site w ecc, True, z (laneCodes ty fMin intMin)),
        (.iVabs site w ecc, ty = 1, A.map fun x => if x.toInt < 0 then -x else x),
        (.iVneg site w ecc, ty = 1, A.map fun x => -x),
        (.iVabs site w ecc, ty = 0, A.map fun x => BitVec.ofNat 32 (fAbs .fp32 x.toNat)),
        (.iVneg site w ecc, ty = 0, A.map fun x => BitVec.ofNat 32 (fNeg .fp32 x.toNat)),
        (.iVexp site w ecc, ty = 0, A.map vexp), (.iVlog site w ecc, ty = 0, A.map vlog),
        (.iVrcp site w ecc, ty = 0, A.map vrcp), (.iVrsq site w ecc, ty = 0, A.map vrsq),
        (.iVsqrt site w ecc, ty = 0, A.map vsqrt), (.iVtanh site w ecc, ty = 0, A.map vtanh),
        (.iVcvt site w ecc, True, List.zipWith (cvtLane ty (bitsOf w.toNat 18 2) (bitAt w.toNat 20)) A V),
        (.iVand site w ecc, True, z fun x y => x &&& y), (.iVor site w ecc, True, z fun x y => x ||| y),
        (.iVxor site w ecc, True, z fun x y => x ^^^ y),
        (.iVshl site w ecc, ty < 2 ∧ ∀ x ∈ B, x.toNat < 32, z fun x y => x <<< y.toNat),
        (.iVshr site w ecc, ty < 2 ∧ ∀ x ∈ B, x.toNat < 32, z fun x y => x >>> y.toNat)] : List (Instr × Prop × List W32)),
      e.2.1 → Retires e.1 s site (c.pc + 8) (WritesV c d e.2.2)) ∧
    (∀ e ∈ ([(.iVrsum site w ecc, treeSum ty 6 A),
        (.iVrmax site w ecc, (A.drop 1).foldl (laneCodes ty fMax intMax) (A.headD 0))] : List (Instr × W32)),
      ∃ r : List W32, r.length = 63 ∧ Retires e.1 s site (c.pc + 8) (WritesV c d (e.2 :: r))) ∧
    (∀ i ∈ ([.iVabs site w ecc, .iVneg site w ecc, .iVexp site w ecc, .iVlog site w ecc, .iVrcp site w ecc, .iVrsq site w ecc,
        .iVsqrt site w ecc, .iVtanh site w ecc, .iVshl site w ecc, .iVshr site w ecc, .iVcmp site w ecc, .iVsel site w ecc,
        .iVperm site w ecc, .iVbcast site w ecc, .iVmovs site w ecc] : List Instr),
      ∃ v : List W32, v.length = 64 ∧ Retires i s site (c.pc + 8) (WritesV c d v)) ∧
    (∃ x, Retires (.iVmovg site w ecc) s site (c.pc + 8) (WritesG c d x)) ∧
    (∀ i ∈ ([.iVargmax site w ecc, .iVtopk16 site w ecc] : List Instr), s.b0 = true →
      ∃ v : List W32, v.length = 64 ∧ Retires i s site (c.pc + 8) (WritesV c d v))

/-- A tensor command whose conditions hold and whose operands no queued transfer holds. TMM writes rows 0 to m - 1 of its tile with the rounded product of R220 and no other accumulator word; TLD writes rows of the tile from its region; TWV row imm[5:0], TCLR the whole tile with zeros; TRV puts the row into v[d]; TOUT writes the converted rows into its region, zeroes them with the clear bit and with sr advances CORE_SR_CTR by 16 m; FATT, where no frame of its list is barred by the tag check, writes for every query row o into tiles t and t + 1 and m and l into tile t + 2 (a row without a visible slot: log entry 74). Beside them only overflow flags set, none clears. -/
def Obligations.TensorResults : Prop :=
  ∀ (s : State) (site : Nat) (w : BitVec 56) (ecc : Ecc), Issues s site ecc → ecc.ce = 0 →
    let c := s.core site
    let d := bitsOf w.toNat 0 5
    let page := pgCore site
    let flags (t : State) : Prop := ∀ k, (s.reg64 page 0 0x130).testBit k = true → (t.reg64 page 0 0x130).testBit k = true
    let free (l : List ((Nat × Nat) × Bool)) : Prop := l.all (fun o => !c.mustHold o) = true
    let pass (l : List Chk) : Prop := l.all (fun x => !x.bad) = true
    (∀ i, i = insnOf 0x80 w → let a := tmmArgs c i
      pass (tmmChk c a) → free [(rRange a.dx, false), (rRange a.dw, false)] → ∀ fx fw, a.fx = some fx → a.fw = some fw →
      Completes (.iTmm site w ecc) s fun t => OnlyCore site [0x130, 0x134] s t ∧ (t.core site).pc = (c.pc + 8) % 2 ^ 25 ∧ flags t ∧
        WritesA c a.tile a.m (fun r k => (tmmElem (decide (fx = .el .bf16) || decide (fw = .el .bf16))
          (blocksOf fx a.k16 (Mem.read c.spad (rRowAt a.dx r) (a.k16 * fx.bytes)))
          (blocksOf fw a.k16 ((c.readRegion a.dw).drop (k * a.k16 * fw.bytes)))
          (rne ((f32 ((a.sc >>> 32).truncate 32)).mul (f32 (a.sc.truncate 32))))
          (if a.add then some (f32 (c.accW a.tile r k)) else none)).1) (t.core site)) ∧
    (∀ i, i = insnOf 0x81 w → let dst := c.greg d; let rows := bitsOf w.toNat 25 6 + 1
      pass (toutChk s site i) → free [(rRange dst, true)] →
      Completes (.iTout site w ecc) s fun t => OnlyCore site [0x170, 0x174] s t ∧ (t.core site).pc = (c.pc + 8) % 2 ^ 25 ∧
        t.reg64 page 0 0x170 = (if bitAt w.toNat 23 then (s.reg64 page 0 0x170 + 16 * rows) % 2 ^ 64 else s.reg64 page 0 0x170) ∧
        (∀ u r k, r < 64 → k < 64 → (t.core site).accW u r k =
          if bitAt w.toNat 24 = true ∧ u = tileOf c i ∧ r < rows then 0 else c.accW u r k) ∧
        (∃ rest, (t.core site).readRegion dst = toutBytes s site i ++ rest ∧ rest.length + (toutBytes s site i).length = rBytes dst) ∧
        (∀ x, x / 32 ∉ rElems dst → SMap.get (t.core site).spad 0#8 x = SMap.get c.spad 0#8 x) ∧
        { t.core site with spad := c.spad, acc := c.acc, pc := c.pc, lastRet := c.lastRet } = c) ∧
    (∀ i, i = insnOf 0x82 w → let src := c.greg (bitsOf w.toNat 5 5); let n := if bitAt w.toNat 19 then 2 else 4
      pass (tldChk c i) → free [(rRange src, false)] →
      Completes (.iTld site w ecc) s fun t => OnlyCore site [0x130, 0x134] s t ∧ (t.core site).pc = (c.pc + 8) % 2 ^ 25 ∧ flags t ∧
        WritesA c (tileOf c i) (bitsOf w.toNat 25 6 + 1) (fun r k =>
          let x := leNat (((c.readRegion src).drop ((64 * r + k) * n)).take n)
          (loadAcc (if bitAt w.toNat 19 then bfWide x else BitVec.ofNat 32 x)).1) (t.core site)) ∧
    (∀ i, i = insnOf 0x83 w → tileOf c i ≤ 63 →
      Retires (.iTrv site w ecc) s site (c.pc + 8) (WritesV c d ((List.range 64).map (c.accW (tileOf c i) (bitsOf w.toNat 24 6))))) ∧
    (∀ i, i = insnOf 0x84 w → tileOf c i ≤ 63 →
      Completes (.iTwv site w ecc) s fun t => OnlyCore site [0x130, 0x134] s t ∧ (t.core site).pc = (c.pc + 8) % 2 ^ 25 ∧ flags t ∧
        (∀ u r k, r < 64 → k < 64 → (u ≠ tileOf c i ∨ r ≠ bitsOf w.toNat 24 6) → (t.core site).accW u r k = c.accW u r k) ∧
        (∀ k, k < 64 → let x := (loadAcc ((c.vec (bitsOf w.toNat 5 5)).getD k 0)).1
          (t.core site).accW (tileOf c i) (bitsOf w.toNat 24 6) k =
            if bitAt w.toNat 18 then toF32 (rne ((f32 (c.accW (tileOf c i) (bitsOf w.toNat 24 6) k)).add (f32 x))).1 else x) ∧
        { t.core site with acc := c.acc, pc := c.pc, lastRet := c.lastRet } = c) ∧
    (∀ i, i = insnOf 0x85 w → tileOf c i ≤ 63 →
      Retires (.iTclr site w ecc) s site (c.pc + 8) (WritesA c (tileOf c i) 64 fun _ _ => 0)) ∧
    (∀ i, i = insnOf 0x88 w → let a := fattArgs s site i
      pass (fattChk s site i a) → fattTag s site a = none → free ((fattRanges s site c i a).map fun r => (r, false)) →
      Completes (.iFatt site w ecc) s fun t => OnlyCore site [0x130, 0x134] s t ∧ (t.core site).pc = (c.pc + 8) % 2 ^ 25 ∧ flags t ∧
        (∀ r, r < a.qrows → let x := attnRow c.spad a (blocksOf (.el .e4m3) 8 ((c.readRegion a.dq).drop (128 * r))) r
          (∀ k, k < 64 → (t.core site).accW a.tile r k = toF32 (x.o.getD k (.fin false 0 0)) ∧
            (t.core site).accW (a.tile + 1) r k = toF32 (x.o.getD (64 + k) (.fin false 0 0))) ∧
          (t.core site).accW (a.tile + 2) r 0 = (rowMax x.m).1 ∧ (t.core site).accW (a.tile + 2) r 1 = toF32 x.l) ∧
        (∀ u r k, r < 64 → k < 64 → (a.qrows ≤ r ∨ u < a.tile ∨ a.tile + 2 < u ∨ (u = a.tile + 2 ∧ 2 ≤ k)) →
          (t.core site).accW u r k = c.accW u r k) ∧
        { t.core site with acc := c.acc, pc := c.pc, lastRet := c.lastRet } = c)

/-- QLD and QST through a window that is not remote, with the conditions of R199, R203 met, join their queue as its last unretired transfer and change nothing else. QUEUE_TRANSFER_DONE completes the oldest transfer of the queue that is not complete: a store to host memory sends its bytes, a load from it fills its region, each under its window's key slot. WAIT on a queue whose oldest u - n transfers are complete retires exactly these; on an inbound counter at most n it retires; otherwise it waits, WAIT_RETIRE ends it when that holds, and QWAIT_TIMEOUT past the limit raises program fault 0x1005. -/
def Obligations.QueueTransfers : Prop :=
  ∀ (s : State) (site : Nat), site < sites →
    let c := s.core site
    (∀ (w : BitVec 56) (ecc : Ecc), Issues s site ecc → ecc.ce = 0 →
      let q := bitsOf w.toNat 16 5
      let desc := c.greg (bitsOf w.toNat 0 5)
      let far := (c.greg (bitsOf w.toNat 5 5) + (BitVec.ofNat 32 (bitsOf w.toNat 24 32)).signExtend 64).toNat
      let tg := bitsOf w.toNat 16 6
      let n := bitsOf w.toNat 24 5
      let queued (store : Bool) : Core → Prop := fun d =>
        SMap.get d.qs [] q = SMap.get c.qs [] q ++ [{ store := store, far := far, desc := desc }] ∧
        (∀ k, k ≠ q → SMap.get d.qs [] k = SMap.get c.qs [] k) ∧ { d with qs := c.qs, pc := c.pc, lastRet := c.lastRet } = c
      (∀ win, (queueChk s site (insnOf 0x70 w) false).all (fun x => !x.bad) = true → c.mustHold (rRange desc, true) = false →
        farWin s site far (rBytes desc) false = some win → Retires (.iQld site w ecc) s site (c.pc + 8) (queued false)) ∧
      (∀ win, (queueChk s site (insnOf 0x71 w) true).all (fun x => !x.bad) = true → c.mustHold (rRange desc, false) = false →
        farWin s site far (rBytes desc) true = some win → win.remote = false →
        Retires (.iQst site w ecc) s site (c.pc + 8) (queued true)) ∧
      (tg < 24 → n ≤ 16 → let l := SMap.get c.qs [] tg
        ((l.take (l.length - n)).all (·.done) = true → Retires (.iWait site w ecc) s site (c.pc + 8) fun d =>
          SMap.get d.qs [] tg = l.drop (l.length - n) ∧ (∀ k, k ≠ tg → SMap.get d.qs [] k = SMap.get c.qs [] k) ∧
          { d with qs := c.qs, pc := c.pc, lastRet := c.lastRet } = c) ∧
        ((l.take (l.length - n)).all (·.done) = false →
          Completes (.iWait site w ecc) s fun t => OnlyCore site [] s t ∧
            t.core site = { c with wait := some ⟨tg, n, insnOf 0x72 w, s.now⟩ })) ∧
      (32 ≤ tg → n ≤ 16 → (SMap.get c.inb 0 (tg - 32)).toInt ≤ (n : Int) →
        Retires (.iWait site w ecc) s site (c.pc + 8) (WritesNone c))) ∧
    (running s (pgCore site) = true → c.on = true → c.gated = false → ∀ x, c.wait = some x →
      (waitOver c x.target x.n = true → Completes (.waitRetire site) s fun t => (t.core site).wait = none ∧
        (t.core site).pc = (c.pc + 8) % 2 ^ 25 ∧ OnlyCore site [] s t) ∧
      (x.target < 24 → waitOver c x.target x.n = false → x.since + s.fld (pgCore site) 0 0x114 0 16 * us ≤ s.now → c.pf = false →
        boundAt s site = none → Completes (.qwaitTimeout site) s fun t =>
        (t.blk (pgCore site)).st = .faulted ∧ (t.core site).fcode = 0x1005 ∧ (t.core site).qs = c.qs)) ∧
    (∀ (q k : Nat) (x : QXfer) (win : FWin) (key : BitVec 512) (data : List Byte) (errs : List SymErr), q < 24 → c.on = true →
      nextXfer c q = some (k, x) → farWin s site x.far (rBytes x.desc) x.store = some win → win.remote = false → win.host = true →
      (keySlot s (winAccess win).owner (winAccess win).slot).key = some key →
      Completes (.queueTransferDone site q data errs) s fun t =>
        SMap.get (t.core site).qs [] q = (SMap.get c.qs [] q).modify k (fun y => { y with done := true }) ∧
        (x.store = true → t.out = s.out ++ [.hostWrite x.far
            (hostCipher s (winAccess win).owner (winAccess win).slot false x.far (c.readRegion x.desc))] ∧
          (t.core site).spad = c.spad) ∧
        (x.store = false → t.out = s.out ∧ ∀ b, SMap.get (t.core site).spad 0#8 b ≠ SMap.get c.spad 0#8 b → b / 32 ∈ rElems x.desc))

/-- A program fault of a core in a running partition or in none: its block goes to FAULTED with ERR_STAT bit 0, the core's registers and scratchpad stay, and when it is the first error CORE_FAULT_PC and CORE_FAULT_INSN hold the program counter and the instruction. So for a branch target that is no multiple of 8, a scalar access at or above 24 MiB, a vector access past its row, SYSRD above index 5, SYSWR of another index than 4, QLD of queue 16 or more, QST of a queue outside 16 to 23, a WAIT on targets 24 to 31, VARGMAX and VTOPK16 on stepping A1 (0x1002); a tile index above 63 (0x1001); a vector row beyond capacity (0x1003); a store into a read-only weight row (0x1008). -/
def Obligations.ProgramFaults : Prop :=
  ∀ (s : State) (site : Nat) (w : BitVec 56) (ecc : Ecc), Issues s site ecc → (s.core site).pf = false →
    (∀ p k, boundAt s site = some (p, k) → (s.part p).ps = .running) →
    let c := s.core site
    let n := bitsOf w.toNat 24 32
    let imm : W64 := (BitVec.ofNat 32 n).signExtend 64
    let x := (c.greg (bitsOf w.toNat 5 5) + imm).toNat
    let target := (BitVec.ofNat 64 c.pc + imm).toNat
    let q := bitsOf w.toNat 16 5
    let tg := bitsOf w.toNat 16 6
    let tile := if bitAt w.toNat 44 then (c.greg (bitsOf w.toNat 10 5)).toNat % 256 else bitsOf w.toNat 10 8
    ∀ e ∈ ([(.iBeq site w ecc, 0x30, 0x1002, target % 8 ≠ 0), (.iJal site w ecc, 0x36, 0x1002, target % 8 ≠ 0),
        (.iJalr site w ecc, 0x37, 0x1002, target % 8 ≠ 0), (.iLd8u site w ecc, 0x20, 0x1002, 25165824 ≤ x),
        (.iSt64 site w ecc, 0x27, 0x1002, 25165824 ≤ x), (.iVld site w ecc, 0x60, 0x1002, 56 < x % 64),
        (.iVst site w ecc, 0x61, 0x1002, 56 < x % 64), (.iSysrd site w ecc, 0x38, 0x1002, 5 < n),
        (.iSyswr site w ecc, 0x39, 0x1002, n ≠ 4), (.iQld site w ecc, 0x70, 0x1002, 15 < q),
        (.iQst site w ecc, 0x71, 0x1002, q < 16 ∨ 23 < q), (.iWait site w ecc, 0x72, 0x1002, 24 ≤ tg ∧ tg < 32),
        (.iVargmax site w ecc, 0x5C, 0x1002, s.b0 = false), (.iVtopk16 site w ecc, 0x5D, 0x1002, s.b0 = false),
        (.iTrv site w ecc, 0x83, 0x1001, 63 < tile), (.iTwv site w ecc, 0x84, 0x1001, 63 < tile),
        (.iTclr site w ecc, 0x85, 0x1001, 63 < tile), (.iTld site w ecc, 0x82, 0x1001, 63 < tile),
        (.iVld site w ecc, 0x60, 0x1003, x % 64 ≤ 56 ∧ 786432 ≤ x),
        (.iSt8 site w ecc, 0x24, 0x1008, x < 25165824 ∧ wregRow s site (x / 2048) = true)] : List (Instr × Nat × Nat × Prop)),
      e.2.2.2 → Completes e.1 s fun t =>
        (t.blk (pgCore site)).st = .faulted ∧ (t.blk (pgCore site)).errStat.getLsbD 0 = true ∧
        t.core site = { c with pf := true, fcode := e.2.2.1 } ∧
        ((s.blk (pgCore site)).errStat &&& 0x7FFFFFFF#32 = 0 →
          (t.blk (pgCore site)).errFirst = BitVec.ofNat 32 e.2.2.1 ∧ t.regN (pgCore site) 0 0x150 = c.pc % 2 ^ 32 ∧
          t.reg64 (pgCore site) 0 0x158 = e.2.1 + 256 * w.toNat)

/-- ISLAND_WATCHDOG of a running core that has retired nothing for wdog_us outside a WAIT on an inbound counter faults it with ERR_STAT bit 1. CORE_ACC_OVF_CLEAR clears the flags written as 1; SR_CTR_WRITE sets the counter; SPAD_CNT_CLEAR zeroes the beat and bank counters; SPAD_MAXHOLD_CLEAR the longest grant. SPAD_HOLD_WATCHDOG keeps the longest grant and reports one longer than the limit once. URGENT_SCRUB of an element not corrected in the last 10 minutes notes it. DEBUG_ACCESS of a bank's word, which is one element, writes its 32 bytes or reads it under sel, and waits without it; a read that finds an uncorrectable word faults the core. CORE_PATROL_SCRUB, when its row's share of the period has gone by, moves on from the next weight row and counts corrected elements. -/
def Obligations.CorePageCommands : Prop :=
  ∀ (s : State) (site ag : Nat), site < sites →
    let c := s.core site
    let page := pgCore site
    (running s page = true → c.wait = none → boundAt s site = none → c.lastRet + s.fld page 0 0x114 16 16 * us ≤ s.now →
      Completes (.islandWatchdog site) s fun t => (t.blk page).st = .faulted ∧ (t.blk page).errStat.getLsbD 1 = true ∧
        t.core site = { c with fcode := 0x1040 }) ∧
    (∀ v : W64, Accepts s ag page 0x130 v.toNat → Completes (.coreAccOvfClear ag site v) s fun t => SamePlanes s t ∧
      ∀ k, k < 64 → (t.reg64 page 0 0x130).testBit k = ((s.reg64 page 0 0x130).testBit k && !v.getLsbD k)) ∧
    (∀ v : W64, Accepts s ag page 0x170 v.toNat → Makes (.srCtrWrite ag site v) s (s.setReg64 page 0 0x170 v.toNat)) ∧
    (Accepts s ag page 0x314 (2 + s.fld page 0 0x314 0 1) → Completes (.spadCntClear ag site) s fun t => SamePlanes s t ∧
      (∀ k, k < 6 → t.reg page 0 (0x318 + 4 * k) = 0) ∧ (∀ k, k < 96 → t.reg page 0 (0x400 + 4 * k) = 0) ∧
      t.reg page 0 0x330 = s.reg page 0 0x330) ∧
    (Accepts s ag page 0x310 (2 ^ 31) → Makes (.spadMaxholdClear ag site) s (s.setReg page 0 0x310 0)) ∧
    (∀ port req cycles, port < 2 → req < 16 → cycles < 2 ^ 24 → Completes (.spadHoldWatchdog site port req cycles) s fun t =>
      SamePlanes s t ∧ t.fld page 0 0x310 0 24 = max (s.fld page 0 0x310 0 24) cycles ∧
      t.reg page 0 0x330 = s.reg page 0 0x330 +
        (if s.fld page 0 0x30C 0 24 ≠ 0 ∧ s.fld page 0 0x30C 0 24 < cycles then 1#32 else 0#32)) ∧
    (∀ e, e < 786432 → c.on = true → (∀ x ∈ c.scrubs, x.1 = e → x.2 + 600 * sec ≤ s.now) → Completes (.urgentScrub site e) s fun t =>
      (e, s.now) ∈ (t.core site).scrubs ∧ { t.core site with scrubs := c.scrubs } = c ∧ t.led = s.led ∧
      t.reg page 0 0x210 = s.reg page 0 0x210 + 1) ∧
    (∀ e : BankAddr, e.ok = true → e.elem < 786432 ∧ bankGroup e.elem = e.grp ∧ bankOf e.elem = e.bank ∧ wordIndex e.elem = e.word) ∧
    (∀ (e : BankAddr) (b : List Byte), e.ok = true → c.on = true →
      (s.fld page 0 0x308 0 1 = 1 → c.dbg = [] →
        (b.length = 32 → Completes (.debugAccess site e true b) s fun t => WritesB c (32 * e.elem) b (t.core site)) ∧
        (e.ue = false → Completes (.debugAccess site e false b) s fun t => t.core site = c ∧
          t.out = s.out ++ [.readData agAmp (leNat (Mem.read c.spad (32 * e.elem) 32))]) ∧
        (e.ue = true → boundAt s site = none → Completes (.debugAccess site e false b) s fun t =>
          (t.blk page).st = .faulted ∧ (t.core site).fcode = 0x2002 ∧ (t.core site).fbads = c.fbads ++ [e.elem] ∧
          (t.core site).spad = c.spad)) ∧
      (s.fld page 0 0x308 0 1 = 0 → ∀ wr, Completes (.debugAccess site e wr b) s fun t =>
        t.core site = { c with dbg := c.dbg ++ [⟨e, wr, b⟩] } ∧ t.out = s.out)) ∧
    (∀ (l : List Byte) row, l.length < 2 ^ 32 → c.on = true → s.fld pgFault 0 0x104 0 8 ≠ 0 → nextRow s site = some row →
      (∀ x, c.scrubAt = some x → x + rowTime s site ≤ s.now) →
      Completes (.corePatrolScrub site (l.map fun x => x.toNat) none) s fun t =>
        t.core site = { c with scrubRow := row + 1, scrubAt := some s.now } ∧ t.reg page 0 0x210 = s.reg page 0 0x210 + BitVec.ofNat 32 l.length)

/-! ### 10 The Ihlyr fabric -/

/-- On a core that issues, with a region of at most 64 elements that no queued load holds: SEND to a site appends one VC4 packet of the region's data in region order, numbered and kept; FSEND on a valid source flow with slots appends one of VC1, of a flow marked mcast addressed to its tree and kept for every member; MSEND one of VC3; RSEND of exactly the reduction's length one of VC2 of the next round; CSEND one VC0 flit of lanes 0 to 7, with the barrier flag, from the leader, an EQX_ARRIVE of the router's partition, which merges with one of the same partition and Equinox that waits there. CNTADD adds to a counter, CNTRD reads one into g[d]. FFENCE retires when nothing of the core waits, else nothing changes. Nothing else of the module changes. -/
def Obligations.FabricInstructions : Prop :=
  ∀ (s : State) (site : Nat) (w : BitVec 56) (ecc : Ecc), Issues s site ecc → ecc.ce = 0 →
    let c := s.core site
    let d := c.greg (bitsOf w.toNat 0 5)
    let a := c.greg (bitsOf w.toNat 5 5)
    let n := bitsOf w.toNat 24 32
    let sent (i : Instr) (f : Flit) (pls : List (List Byte)) : Prop := Completes i s fun t =>
      OnlyCore site [] s { t with fab := s.fab } ∧ (t.core site).pc = (c.pc + 8) % 2 ^ 25 ∧ WritesNone c (t.core site) ∧
      t.fab.flits = s.fab.flits ++ pls.zipIdx.map fun e => { f with pid := s.fab.pids, idx := e.2, len := pls.length, data := e.1 }
    let flit (vc : Nat) : Flit := { pid := 0, idx := 0, len := 0, vc := vc, src := site, dst := site, loc := site }
    (∀ x, rBad d = false → (rElems d).length ≤ 64 → c.held ≤ 31 → c.pendW (rRange d) = false →
      (fabAddr a = some x → x.dst ≠ steward → gaveUpOn s site x.dst = false →
        let q := SMap.get s.fab.nextSeq 0 (pairKey site x.dst 4)
        sent (.iSend site w ecc) { flit 4 with dst := x.dst, elem := x.elem, ctr := x.ctr, cnt := true, seq := q } (payloads c d) ∧
        Completes (.iSend site w ecc) s fun t => ∃ k, (SMap.get t.fab.kept [] (pairKey site x.dst 4)).getLast? = some k ∧ k.seq = q ∧
          k.since = s.now ∧ SMap.get t.fab.nextSeq 0 (pairKey site x.dst 4) = (q + 1) % 65536) ∧
      (let e := tabEntry s site 0 (n % 1024)
       let dst := siteAt (bitsOf e 12 7) (bitsOf e 19 7)
       bitAt e 0 = true → bitAt e 1 = true → bitsOf e 32 64 ≠ 0 →
        (bitAt e 3 = false → gaveUpOn s site dst = false →
          let q := SMap.get s.fab.nextSeq 0 (pairKey site dst 1)
          sent (.iFsend site w ecc) { flit 1 with dst := dst, elem := a.toNat % 2 ^ 20, id := n % 1024, cnt := true, seq := q } (payloads c d)) ∧
        (bitAt e 3 = true → gaveUpOn s site (treeBase + n % 1024) = false →
          let desc := bitsOf e 4 8
          let owed := members s desc (tabEntry s site 2 desc)
          let tree := treeBase + n % 1024
          let q := if owed = [] then 0 else SMap.get s.fab.nextSeq 0 (pairKey site tree 1)
          sent (.iFsend site w ecc) { flit 1 with dst := tree, elem := a.toNat % 2 ^ 20, id := n % 1024, cnt := true, seq := q } (payloads c d) ∧
          (owed ≠ [] → Completes (.iFsend site w ecc) s fun t =>
            ((SMap.get t.fab.kept [] (pairKey site (treeBase + n % 1024) 1)).getLast?.map (·.owed)) = some owed))) ∧
      sent (.iMsend site w ecc) { flit 3 with elem := bitsOf a.toNat 0 20, ctr := bitsOf a.toNat 20 5, id := n % 256, cnt := true } (payloads c d) ∧
      (let e := tabEntry s site 1 (n % 256)
       bitAt e 0 = true → bitAt e 5 = true → rBytes d = 32 * (bitsOf e 10 6 + 1) →
        sent (.iRsend site w ecc) { flit 2 with id := n % 256, round := SMap.get s.fab.contrib 0 (redKey site (n % 256)) } (payloads c d))) ∧
    (∀ x, fabAddr a = some x → bitAt w.toNat 16 = false →
      sent (.iCsend site w ecc) { flit 0 with dst := x.dst, elem := x.elem, ctr := x.ctr, cnt := true }
        [(((c.vec (bitsOf w.toNat 0 5)).take 8).map fun v => leBytes 4 v.toNat).flatten]) ∧
    (∀ x, fabAddr a = some x → bitAt w.toNat 16 = true → leaderSite s site = site →
      let p := bitsOf (routerCfg s site) 14 4
      let arrives (g : Flit) : Bool := decide (g.kind = .eqxArrive) && g.loc = site && g.dst = x.dst && g.id = p && g.elem = x.elem
      ((s.fab.flits.any arrives) = false → Completes (.iCsend site w ecc) s fun t => ∃ f, t.fab.flits = s.fab.flits ++ [f] ∧
        f.barrier = true ∧ f.kind = .eqxArrive ∧ f.vc = 0 ∧ f.len = 1 ∧ f.elem = x.elem ∧ f.dst = x.dst ∧ f.id = p ∧
        (leNat f.data).testBit 255 = false) ∧
      (∀ g ∈ s.fab.flits, arrives g = true → g.out = none → g.legs = [] → g.vc = 0 → Completes (.iCsend site w ecc) s fun t =>
        t.fab.flits.length = s.fab.flits.length ∧ ∃ b : List Byte, (leNat b).testBit 255 = false ∧ b.length = 32 ∧
          { g with data := List.zipWith (· ||| ·) g.data b } ∈ t.fab.flits)) ∧
    Retires (.iCntadd site w ecc) s site (c.pc + 8) (fun e =>
      (∀ k, SMap.get e.inb 0 k = if k = n % 32 then SMap.get c.inb 0 k + a.truncate 32 else SMap.get c.inb 0 k) ∧
      { e with inb := c.inb, pc := c.pc, lastRet := c.lastRet } = c) ∧
    Retires (.iCntrd site w ecc) s site (c.pc + 8) (WritesG c (bitsOf w.toNat 0 5) (BitVec.ofInt 64 (SMap.get c.inb 0 (n % 32)).toInt)) ∧
    (ffenceClear s site = true → Retires (.iFfence site w ecc) s site (c.pc + 8) (WritesNone c)) ∧
    (ffenceClear s site = false → Completes (.iFfence site w ecc) s fun t => OnlyCore site [] s t ∧ t.core site = c)

/-- FLIT_FORWARD sends the picked flit to the neighbour; a picked flit that is not of VC0 leaves no VC0 flit ready, one of VC0 that is no barrier leaves no barrier ready. PACKET_DELIVERY of a one-flit VC4 packet in sequence to a core that is not fenced writes its 32 bytes, lets the counter it names fall by 1 and acknowledges it on VC5; an old number is only acknowledged again. E2E_ACK forgets the packet, one of a tree the member that sent it; at a fenced core it is discarded and counted. E2E_RETRY_TIMER resends everything kept, of a tree whose oldest packet the destination has not acknowledged too, or, past retry_max, faults the core with 0x3003 and both channels stop sending there. LINK_REPLAY, where the link has sent a flit and is not dead, counts; the fourth in a row, and LINK_DEAD after dead_us without a flit, mark the link dead. STEP_INCOMPLETE lets counter 31 fall, at a fenced core nothing. FAB_TABLE_READ shows the selected entry, FAB_TABLE_WRITE stores the bits that R273 lists as its shadow, each refused with err set where FAB_TSEL names none. -/
def Obligations.MeshCommands : Prop :=
  ∀ (s : State) (site port slot : Nat), site < sites → port < 4 → slot < 64 →
    let drop (p : Flit → Bool) : List Flit := s.fab.flits.filter fun f => !p f
    let page := fabPg site
    (∀ f n, (∀ g ∈ s.fab.flits, g.loc = site → undeliverable s g = false) → linkIsDead s site port = false →
      pickFlit s site port slot = some f → neighbour site port = some n → f.barrier = false → f.kind ≠ .eqxArrive →
      (f.vc ≠ 0 → vcNext s site port 0 (fun _ => true) = none) ∧ vcNext s site port 0 (fun g => g.barrier) = none ∧
      Completes (.flitForward site port slot false) s fun t => t.cores = s.cores ∧
        (∃ g, t.fab.flits = drop (fun x => x = f) ++ [g] ∧ g.loc = n ∧ g.inp = opposite port ∧ g.out = none ∧ g.data = f.data ∧
          g.pid = f.pid ∧ g.idx = f.idx ∧ g.dst = f.dst) ∧
        t.reg page 0 (0x180 + 4 * f.vc) = s.reg page 0 (0x180 + 4 * f.vc) + 1) ∧
    (∀ f b, s.fab.flits.find? (deliverable s site) = some f → f.len = 1 → f.vc = 4 → f.dst = site → coreFenced s site = false →
      f.data = b → b.length = 32 → f.inc = false → f.elem < 786432 → wregRow s site (f.elem / 64) = false →
      let seq := SMap.get s.fab.rcvSeq 0 (pairKey f.src site 4)
      let ack : Flit := { pid := s.fab.pids, idx := 0, len := 1, kind := .ack, vc := 5, src := site, dst := f.src, seq := f.seq, ctr := 4, loc := site }
      (∀ ue, f.seq = seq → Completes (.packetDelivery ⟨site, ue⟩) s fun t =>
        t.fab.flits = drop (fun g => atPort s site g && g.pid = f.pid) ++ [ack] ∧
        SMap.get t.fab.rcvSeq 0 (pairKey f.src site 4) = (seq + 1) % 65536 ∧
        (∀ k, SMap.get (t.core site).spad 0#8 k = if 32 * f.elem ≤ k ∧ k < 32 * f.elem + 32 then b.getD (k - 32 * f.elem) 0
          else SMap.get (s.core site).spad 0#8 k) ∧
        (∀ k, SMap.get (t.core site).inb 0 k =
          SMap.get (s.core site).inb 0 k - (if f.cnt = true ∧ k = f.ctr then 1#32 else 0#32))) ∧
      (∀ ue, f.seq ≠ seq → Completes (.packetDelivery ⟨site, ue⟩) s fun t => t.cores = s.cores ∧
        t.fab.flits = drop (fun g => atPort s site g && g.pid = f.pid) ++ [ack])) ∧
    (∀ f, s.fab.flits.find? (fun g => atPort s site g && decide (g.vc = 5) && decide (g.kind ≠ .data)) = some f →
      Completes (.e2eAck site) s fun t => t.fab.flits = drop (fun x => x = f) ∧ t.cores = s.cores ∧
        (coreFenced s site = true → t.fab.kept = s.fab.kept ∧ t.reg page 0 0x1B4 = s.reg page 0 0x1B4 + 1) ∧
        (coreFenced s site = false → f.cnt = false → ∀ k ∈ SMap.get t.fab.kept [] (pairKey site f.src f.ctr), k.seq ≠ f.seq) ∧
        (coreFenced s site = false → f.cnt = true → let key := pairKey site (treeBase + f.id) 1
          SMap.get t.fab.kept [] key = ((SMap.get s.fab.kept [] key).map fun k =>
            if k.seq = f.seq then { k with owed := k.owed.erase f.src } else k).filter fun k => k.owed ≠ [])) ∧
    (∀ dst key o rest, dst < sites →
      let owing := (s.fab.kept.filter fun e => decide (e.1 / (8 * 16384) = site) && decide (treeBase ≤ e.1 / 8 % 16384) &&
        (e.2.head?.any fun x => x.owed.contains dst)).map (·.1)
      owing = [key] → SMap.get s.fab.kept [] (pairKey site dst 1) = [] → SMap.get s.fab.kept [] key = o :: rest →
      o.since + s.fld page 0 0x104 0 16 * us ≤ s.now → o.tries < s.fld page 0 0x100 16 4 →
      Completes (.e2eRetryTimer site dst 1) s fun t => t.cores = s.cores ∧
        SMap.get t.fab.kept [] key = (o :: rest).map (fun x => { x with since := s.now, tries := x.tries + 1 })) ∧
    (∀ dst vc o rest, dst < sites → (vc = 1 ∨ vc = 4) →
      (vc = 1 → ∀ e ∈ s.fab.kept, e.1 / (8 * 16384) = site → treeBase ≤ e.1 / 8 % 16384 → ∀ x ∈ e.2.head?, dst ∉ x.owed) → SMap.get s.fab.kept [] (pairKey site dst vc) = o :: rest →
      o.since + s.fld page 0 0x104 0 16 * us ≤ s.now →
      (o.tries < s.fld page 0 0x100 16 4 → Completes (.e2eRetryTimer site dst vc) s fun t => t.cores = s.cores ∧
        SMap.get t.fab.kept [] (pairKey site dst vc) = (o :: rest).map (fun x => { x with since := s.now, tries := x.tries + 1 }) ∧
        t.reg page 0 0x1A4 = s.reg page 0 0x1A4 + BitVec.ofNat 32 (rest.length + 1)) ∧
      (s.fld page 0 0x100 16 4 ≤ o.tries → boundAt s site = none → Completes (.e2eRetryTimer site dst vc) s fun t =>
        (t.blk (pgCore site)).st = .faulted ∧ (t.core site).fcode = 0x3003 ∧ (t.blk page).errStat.getLsbD 1 = true ∧
        SMap.get t.fab.kept [] (pairKey site dst vc) = [] ∧ gaveUpOn t site dst = true)) ∧
    (linkIsDead s site port = false → (s.link site port).replay ≠ [] → (s.link site port).fails < 3 → Completes (.linkReplay site port) s fun t => t.fab.flits = s.fab.flits ∧
      (t.link site port).fails = (s.link site port).fails + 1 ∧ t.reg page 0 0x1A0 = s.reg page 0 0x1A0 + 1) ∧
    ((s.link site port).replay ≠ [] → 3 ≤ (s.link site port).fails → Completes (.linkReplay site port) s fun t => linkIsDead t site port = true) ∧
    (linkIsDead s site port = true ∨ (s.link site port).replay = [] → Makes (.linkReplay site port) s s) ∧
    (linkIsDead s site port = false → (s.link site port).last + s.fld page 0 0x104 16 8 * us ≤ s.now →
      Completes (.linkDead site port) s fun t => linkIsDead t site port = true ∧ (t.blk page).errStat.getLsbD 2 = true ∧
        ((∀ n, neighbour site port = some n → ∃ d m, d < 4 ∧ d ≠ opposite port ∧ neighbour n d = some m ∧ linkIsDead s m (opposite d) = false) →
          t.fab = s.fab)) ∧
    (s.now < (s.link site port).last + s.fld page 0 0x104 16 8 * us → Makes (.linkDead site port) s s) ∧
    (∀ f, s.fab.flits.find? (fun g => atPort s site g && decide (g.kind = .incomplete)) = some f →
      Completes (.stepIncomplete site) s fun t => t.fab.flits = drop (fun x => x = f) ∧
        if coreFenced s site then t.cores = s.cores else SMap.get (t.core site).inb 0 31 = SMap.get (s.core site).inb 0 31 - 1) ∧
    (∀ ag tile, tile < tiles →
      (Accepts s ag (pgFab tile) 0x124 1 →
        (∀ r k e, tabSel s tile = some (r, k, e) → Completes (.fabTableRead ag tile) s fun t => SamePlanes s t ∧
          ∀ j, j < 4 → t.regN (pgFab tile) 0 (0x114 + 4 * j) = bitsOf (tabEntry s r k e) (32 * j) 32) ∧
        (tabSel s tile = none → Completes (.fabTableRead ag tile) s fun t => SamePlanes s t ∧ t.fld (pgFab tile) 0 0x128 1 1 = 1)) ∧
      (Accepts s ag (pgFab tile) 0x124 2 → ∀ r k e, tabSel s tile = some (r, k, e) → (ag = agAmp ∨ k < 4) →
        Completes (.fabTableWrite ag tile) s fun t => t.regs = s.regs ∧ SamePlanes s t ∧
          tabShadow t r k e = tabMask k &&& fourWords fun j => s.regN (pgFab tile) 0 (0x114 + 4 * j)))

/-- MCAST_FLIT replaces the first flit of a multicast that waits at a router, no output dead, by one copy per output of its descriptor's tree, and one for the core where the site lies in a rectangle and is a member (a fenced core's port takes that of a scheduled flow only, to answer it). RED_FLIT_ARRIVE takes a flit of the current round on an input of the entry: while inputs are missing only the sums change; when the last arrives one combined flit leaves on the entry's output, incomplete with payload 0 where any was. RED_ROUND_TIMEOUT past red_to_us sends every flit index not yet sent as an incomplete one of payload 0, counts, and starts the next round. -/
def Obligations.TreesAtRouters : Prop :=
  ∀ (s : State) (site : Nat), site < sites →
    let drop (f : Flit) : List Flit := s.fab.flits.filter fun g => !decide (g = f)
    (∀ f, s.fab.flits.find? (fun g => g.loc = site && g.out.isNone && isMcast g) = some f →
      let d := tabEntry s site 2 (mcastDesc s f)
      let outs := mcastOuts site f.src d
      (∀ o ∈ outs, linkIsDead s site o = false) →
      Completes (.mcastFlit site) s fun t => t.cores = s.cores ∧ ∃ copies : List Flit, t.fab.flits = drop f ++ copies ∧
        copies.map (·.out) = outs.map some ++ (if (rects d).any (inRegion (siteX site) (siteY site)) = true ∧
          isMember s site (mcastDesc s f) = true ∧ (coreFenced s site = false ∨ f.vc = 1) then [some 4] else []) ∧
        ∀ g ∈ copies, g.data = f.data ∧ g.loc = site ∧ g.elem = f.elem ∧ g.ctr = f.ctr) ∧
    (∀ f, s.fab.flits.find? (fun g => g.loc = site && g.vc = 2 && g.out.isNone &&
        (decide ((g.round + 16 - (s.round site g.id).round) % 16 = 0) || decide (8 ≤ (g.round + 16 - (s.round site g.id).round) % 16))) = some f →
      let e := tabEntry s site 1 f.id
      let r := s.round site f.id
      let p := SMap.get r.parts {} f.idx
      let ins := p.ins ||| 2 ^ f.inp
      let o := bitsOf e 6 3
      f.round = r.round → bitAt e 0 = true → bitAt (bitsOf e 1 5) f.inp = true → (f.inp = 4 → coreFenced s site = false) →
      linkIsDead s site o = false →
      (ins &&& bitsOf e 1 5 ≠ bitsOf e 1 5 → Completes (.redFlitArrive site) s fun t => t.fab.flits = drop f ∧ t.cores = s.cores ∧
        (SMap.get (t.round site f.id).parts {} f.idx).ins = ins ∧ (SMap.get (t.round site f.id).parts {} f.idx).sent = false) ∧
      (ins &&& bitsOf e 1 5 = bitsOf e 1 5 → Completes (.redFlitArrive site) s fun t => t.cores = s.cores ∧
        ∃ g, t.fab.flits = drop f ++ [g] ∧ g.out = some o ∧ g.idx = f.idx ∧ g.round = r.round ∧ g.inc = (p.inc || f.inc) ∧
          (g.inc = true → g.data = List.replicate 32 0#8) ∧
          (g.inc = false → g.data = redPayload (bitAt e 9) (redAdd p.sum (redLanes (bitAt e 9) f.data)).1))) ∧
    (∀ id first, id < 256 → (s.round site id).first = some first → first + s.fld (fabPg site) 0 0x100 0 16 * us ≤ s.now →
      let e := tabEntry s site 1 id
      let left := (List.range (bitsOf e 10 6 + 1)).filter fun i => !(SMap.get (s.round site id).parts {} i).sent
      linkIsDead s site (bitsOf e 6 3) = false →
      Completes (.redRoundTimeout site id) s fun t => (t.round site id).round = ((s.round site id).round + 1) % 16 ∧
        (t.round site id).parts = [] ∧ t.reg (fabPg site) 0 0x1AC = s.reg (fabPg site) 0 0x1AC + 1 ∧
        ∃ g : List Flit, t.fab.flits = s.fab.flits ++ g ∧ g.map (·.idx) = left ∧ ∀ x ∈ g, x.inc = true ∧ x.data = List.replicate 32 0#8)

/-! ### 11 Edge memory and slower tiers -/

/-- T1_WRITE under a loaded slot, or plain, stores exactly the bytes from its address on and gives each data unit they touch the owner, slot, generation, content and session; every other byte reads as before, but for those of a unit that was another writer's; under an empty slot nothing is stored and ERR_STAT bit 2 sets at the channel's controller. A write that is not the host's waits while the host may hold a line of it, or an earlier write of its requester waits. T1_READ of an error-free unit under the owner, slot and generation of its metadata word returns its 256 bytes and counts one unit, memory unchanged; under another owner or generation it returns nothing and sets bit 3, under an empty slot bit 2, with an uncorrectable metadata word bit 1, counting the unit's uncorrectable words; memory and key slots stay. -/
def Obligations.EdgeMemoryUnits : Prop :=
  ∀ (s : State) (owner slot req : Nat), owner < 4 → req < 7 →
    let k := keySlot s owner slot
    let gen := if owner = 0 then 0 else k.gen
    (∀ content session addr (b : List Byte), addr + b.length ≤ t1Bytes → b ≠ [] →
      let free := req = 0 ∨ (heldLines s addr b.length = [] ∧ tagWaits s (tagT1 req) = false)
      (¬ free → Completes (.t1Write owner slot content session req addr b) s fun t => t.mem = s.mem ∧ t.host.bisnp = s.host.bisnp ++
        [{ tag := tagT1 req, acc := { owner := owner, slot := slot, req := req, content := content, session := session }, addr := addr, data := b }]) ∧
      (free → (owner = 0 ∨ k.key.isSome = true) → Completes (.t1Write owner slot content session req addr b) s fun t =>
        (∀ a, if addr ≤ a ∧ a < addr + b.length then memBytes t a 1 = [b.getD (a - addr) 0]
          else let m := metaOf s (a / 256)
            (addr / 256 ≤ a / 256 → a / 256 ≤ (addr + b.length - 1) / 256 → m.owner = owner ∧ m.slot = slot ∧ m.gen = gen) →
              memBytes t a 1 = memBytes s a 1) ∧
        (∀ u, metaOf t u = if addr / 256 ≤ u ∧ u ≤ (addr + b.length - 1) / 256 then
          { owner := owner, slot := slot, gen := gen, content := content, session := session } else metaOf s u) ∧
        { t.mem with t1 := s.mem.t1, metas := s.mem.metas, junk := s.mem.junk } = s.mem ∧
        { t with mem := s.mem, regs := s.regs, free := s.free } = s) ∧
      (free → owner ≠ 0 → k.key = none → Completes (.t1Write owner slot content session req addr b) s fun t => t.mem = s.mem ∧
        (t.blk (pgEmc (addr / 2048 % 48))).errStat.getLsbD 2 = true)) ∧
    (∀ unit, 256 * unit < t1Bytes → let m := metaOf s unit; let page := pgEmc (256 * unit / 2048 % 48)
      let own := m.owner = owner ∧ m.slot = slot ∧ (owner ≠ 0 → m.gen = k.gen)
      ((owner = 0 ∨ k.key.isSome = true) → own → Completes (.t1Read (.data owner slot req) unit []) s fun t =>
        t.out = s.out ++ [.hdmData (256 * unit) (memBytes s (256 * unit) 256)] ∧ t.mem = s.mem ∧
        t.reg page 0 0x18C = s.reg page 0 0x18C + 1) ∧
      ((owner = 0 ∨ k.key.isSome = true) → ¬ own → Completes (.t1Read (.data owner slot req) unit []) s fun t =>
        t.mem = s.mem ∧ (t.blk page).errStat.getLsbD 3 = true ∧ t.reg page 0 0x188 = s.reg page 0 0x188 + 1 ∧
        ∀ a b, Out.hdmData a b ∈ t.out → Out.hdmData a b ∈ s.out) ∧
      (∀ errs, owner ≠ 0 → k.key = none → Completes (.t1Read (.data owner slot req) unit errs) s fun t =>
        t.mem = s.mem ∧ (t.blk page).errStat.getLsbD 2 = true) ∧
      (∀ errs, (owner = 0 ∨ k.key.isSome = true) → 2 ≤ metaFlips errs 8 →
        Completes (.t1Read (.data owner slot req) unit errs) s fun t => t.mem = s.mem ∧ (t.blk page).errStat.getLsbD 1 = true ∧
          t.reg page 0 0x184 = s.reg page 0 0x184 + BitVec.ofNat 32 (unitUe errs 0)))

/-- On a trained controller REFRESH counts, shows `hot` and lets a pending committed set of the running page apply; T1_PATROL_SCRUB with patrol on, the group's share of the period gone by, reads the next group, the first at first, scrub_active until the last; what it finds right it leaves as it was; earlier it does nothing. EMC_HOLD_WATCHDOG keeps the longest grant and reports one above limit_ns. An accepted write of enable 1 opens a closed T2 window with 65,536 free extents per GiB; of 0 sets draining with enable clear; T2_DRAIN_DONE, no restore reading, clears it and releases every SPILLED_T2 session with its object. A write of EMC_KEY_SEL shows whether the slot is loaded, its generation, and done. -/
def Obligations.EdgeMemoryControl : Prop :=
  ∀ (s : State) (n : Nat), n < 48 →
    let page := pgEmc n
    (∀ hot, s.fld page 0 0x100 0 1 = 1 → Completes (.refresh n hot) s fun t => t.mem = s.mem ∧
      ((s.blk page).commit = none → t.reg page 0 0x198 = s.reg page 0 0x198 + 1 ∧ t.fld page 0 0x100 1 1 = (if hot then 1 else 0)) ∧
      ((s.blk page).st = .running → (t.blk page).commit = none) ∧ ((s.blk page).st ≠ .running → (t.blk page).commit = (s.blk page).commit)) ∧
    (∀ errs, let h := s.fld page 0 0x110 0 8
      let last := SMap.find s.mem.scrubAt n
      let grp := if last = none then 0 else (s.fld page 0 0x114 0 24 + 1) % 16777216
      h ≠ 0 → s.fld page 0 0x100 0 1 = 1 →
      ((∀ a, last = some a → a + h * 3600 * sec / 16777216 ≤ s.now) → Completes (.t1PatrolScrub n errs) s fun t =>
        (errs = [] → { t.mem with scrubAt := s.mem.scrubAt } = s.mem) ∧ SMap.find t.mem.scrubAt n = some s.now ∧
        t.fld page 0 0x114 0 24 = grp ∧ t.fld page 0 0x100 2 1 = (if grp = 16777215 then 0 else 1)) ∧
      (∀ a, last = some a → s.now < a + h * 3600 * sec / 16777216 → Makes (.t1PatrolScrub n errs) s s)) ∧
    (∀ req ns, req < 8 → ns < 2 ^ 24 → Completes (.emcHoldWatchdog n req ns) s fun t => SamePlanes s t ∧
      t.fld page 0 0x10C 0 24 = max (s.fld page 0 0x10C 0 24) ns ∧
      (s.fld page 0 0x10C 0 24 < ns → t.fld page 0 0x10C 24 3 = req) ∧
      t.reg page 0 0x1A0 = s.reg page 0 0x1A0 +
        (if s.fld page 0 0x108 0 24 ≠ 0 ∧ s.fld page 0 0x108 0 24 < ns then 1#32 else 0#32)) ∧
    (∀ ag, Accepts s ag pgMap 0x11C 1 → s.fld pgMap 0 0x11C 0 2 = 0 → Completes (.t2Enable ag) s fun t => SamePlanes s t ∧
      t.fld pgMap 0 0x11C 0 1 = 1 ∧ t.regN pgMap 0 0x120 = 65536 * s.fld pgMap 0 0x118 0 13 % 2 ^ 32) ∧
    (∀ ag, Accepts s ag pgMap 0x11C 0 → s.fld pgMap 0 0x11C 0 1 = 1 → (∀ e ∈ s.serv.sess, t2Writing (s.sess e.1) = false) →
      Completes (.t2Disable ag) s fun t => t.fld pgMap 0 0x11C 0 1 = 0 ∧ t.fld pgMap 0 0x11C 1 1 = 1 ∧ t.serv = s.serv) ∧
    (s.fld pgMap 0 0x11C 1 1 = 1 →
      (∀ e ∈ s.serv.reqs, e.2.rst = true → ∀ o, (s.sess e.2.session).obj = some o → o.tier ≠ 2) →
      Completes .t2DrainDone s fun t => t.fld pgMap 0 0x11C 1 1 = 0 ∧ t.reg pgMap 0 0x120 = 0 ∧
        ∀ e ∈ s.serv.sess, (s.sess e.1).st = .t2 → ∀ o, (s.sess e.1).obj = some o → o.tier = 2 → (t.sess e.1).st = .released) ∧
    (∀ ag (v : W32), Accepts s ag pgMap 0x130 v.toNat → Completes (.keyQuery ag v) s fun t => SamePlanes s t ∧
      t.fld pgMap 0 0x134 1 1 = 1 ∧ t.fld pgMap 0 0x134 16 16 = (keySlot t (t.fld pgMap 0 0x130 12 2) (t.fld pgMap 0 0x130 0 12)).gen % 2 ^ 16 ∧
      (t.fld pgMap 0 0x134 0 1 = 1 ↔ (keySlot t (t.fld pgMap 0 0x130 12 2) (t.fld pgMap 0 0x130 0 12)).key.isSome = true))

/-! ### 12 Weights, epochs and adapters -/

/-- LOAD_BASE, LOAD_EPOCH, LOAD_ADAPTER accepted: where a check of the start fails, the load fails with the first such code of R307's order of header checks (log entry 34), ERR_STAT bit 0 sets and no partition, version or free extent changes; otherwise the load runs, busy, reading the segment at SVC_LD_ADDR, an adapter load once its blocks and a version are free; 0x4069 where they are not and no version is idle. LOAD_NEXT_SEGMENT gives a waiting load its next segment; LOAD_SEGMENT_CONSUMED takes the segment's bytes and sets need_seg; a segment that fails or cannot be read, LOAD_ABORT (0x406A) and LOAD_SEG_TIMEOUT (0x406A) end a base load with its extents free again and its partition as it was. LOAD_DONE makes the partition LOADED with its epoch, an epoch resident, or an adapter version loaded; an image whose content a check refuses ends with the first such code, a base image whose flows or trees use a link outside the partition with 0x4064, one with a tensor that R230 refuses with 0x4065. -/
def Obligations.Loads : Prop :=
  ∀ (s : State) (ag p : Nat), p < 16 →
    let arg := s.regN pgEpoch 0 0x144
    let src := s.reg64 pgEpoch 0 0x148
    let n := s.reg64 pgEpoch 0 0x150
    let b := firstSeg s
    let mirror := bitAt arg 24
    let code (op : Nat) := startCode s p op b n (bitsOf arg 16 8) (bitsOf arg 10 6) mirror
    let failed (t : State) (c : Nat) : Prop := loadOf t = none ∧ t.parts = s.parts ∧ t.reg pgEpoch 0 0x160 = BitVec.ofNat 32 (8 + c * 2 ^ 16) ∧
      (t.blk pgEpoch).errStat.getLsbD 0 = true
    (∀ e ∈ ([(.loadBase ag p, 1), (.loadEpoch ag p, 2), (.loadAdapter ag p, 3)] : List (Instr × Nat)),
      Accepts s ag pgEpoch 0x140 (e.2 + 8 * p) →
      (code e.2 ≠ 0 → Completes e.1 s fun t => failed t (code e.2) ∧ poolFree t = poolFree s ∧ t.we.vers = s.we.vers) ∧
      (code e.2 = 0 → e.2 ≠ 3 → Completes e.1 s fun t => t.reg pgEpoch 0 0x160 = 1 ∧ poolFree t = poolFree s - loadExtents b e.2 mirror ∧
        ∃ l, loadOf t = some l ∧ l.op = e.2 ∧ l.part = p ∧ l.seg = some (src, n) ∧ l.done = 0 ∧ l.length = imgN b 24 8 ∧
          l.extents = loadExtents b e.2 mirror ∧ (e.2 = 2 → (t.part p).epFill = true)) ∧
      (code e.2 = 0 → e.2 = 3 →
        let slot := bitsOf arg 0 10
        let full := 4 ≤ (versOf s p slot).length
        let place := placeBlocks s p (blocksNeeded (treeOf s p) (secsOf b) ((s.part p).imgs.map (·.core)))
        (∀ bl, ¬ full → place = some bl → Completes e.1 s fun t => t.reg pgEpoch 0 0x160 = 1 ∧
          ∃ l, loadOf t = some l ∧ l.op = 3 ∧ l.ver = nextVer s p slot ∧
            ∃ v, SMap.find t.we.vers (verKey p slot l.ver) = some v ∧ v.st = .loading ∧ v.place = bl) ∧
        (full ∨ place = none → idleVer s p (if full then some slot else none) = none → Completes e.1 s fun t => failed t 0x4069 ∧
          poolFree t = poolFree s ∧ t.we.vers = s.we.vers))) ∧
    (∀ l, loadOf s = some l → l.part < 16 →
      (Accepts s ag pgEpoch 0x140 5 → Completes (.loadNextSegment ag) s fun t => t.fld pgEpoch 0 0x160 2 1 = 0 ∧ t.parts = s.parts ∧
        loadOf t = some { l with needSince := none, seg := if l.done < l.length then some (src, n) else none }) ∧
      (Accepts s ag pgEpoch 0x140 6 → l.op = 1 → l.report = 0 → Completes (.loadAbort ag) s fun t => failed t 0x406A ∧
        poolFree t = (poolFree s + l.extents) % 2 ^ 32) ∧
      (∀ at_ m err, l.seg = some (at_, m) →
        (contentCodes.contains err = true → l.op = 1 → l.report = 0 → Completes (.loadSegmentConsumed err) s fun t =>
          failed t err ∧ poolFree t = (poolFree s + l.extents) % 2 ^ 32) ∧
        (contentCodes.contains err = false → (at_ + m ≤ hdmBytes s →
          let r := (t1Read { req := 4 } at_ (Nat.min m (l.length - l.done)) [] s).1
          (∀ d, r = .ok d → segmentCode (l.image ++ d) (l.image ++ d).length = 0 →
            Completes (.loadSegmentConsumed err) s fun t => t.parts = s.parts ∧
              (∃ k, loadOf t = some k ∧ k.image = l.image ++ d ∧ k.done = k.image.length ∧ k.seg = none ∧
                k.needSince = if k.done < l.length then some s.now else none) ∧
              t.fld pgEpoch 0 0x160 2 1 = 1) ∧
          (∀ c, r = .error c → l.op = 1 → l.report = 0 → Completes (.loadSegmentConsumed err) s fun t => failed t 0x406A)) ∧
         (hdmBytes s < at_ + m → l.op = 1 → l.report = 0 → Completes (.loadSegmentConsumed err) s fun t => failed t 0x406A))) ∧
      (∀ since, l.needSince = some since → l.op = 1 → l.report = 0 → since + s.fld pgEpoch 0 0x164 0 16 * sec < s.now →
        Completes .loadSegTimeout s fun t => failed t 0x406A) ∧
      (∀ q : Placement, l.length ≤ l.done → l.seg = none → mxKnown l.image q = true →
        let refused := q.mx.any fun m => mxRefused m (secBytes l.image m.sec)
        let stray := q.tabs.any (strays q.tiles q l.image)
        let code := doneCode s l q
        (l.op = 1 → placeOk s q l.image = true → l.report = 0 →
          (code ≠ 0 → Completes (.loadDone q) s fun t => failed t code) ∧ (stray = true → Completes (.loadDone q) s fun t => failed t 0x4064) ∧
          (stray = false → refused = true → Completes (.loadDone q) s fun t => failed t 0x4065)) ∧
        (l.op = 1 → placeOk s q l.image = true → code = 0 → Completes (.loadDone q) s fun t => loadOf t = none ∧
          (t.part l.part).ps = .loaded ∧ (t.part l.part).epCur = l.epoch ∧ t.reg pgEpoch 0 0x160 = 2) ∧
        (l.op = 2 → code = 0 → Completes (.loadDone q) s fun t => loadOf t = none ∧ (t.part l.part).epOther = l.epoch ∧
          (t.part l.part).regions = (s.part l.part).regions.set l.region l.epoch ∧ (t.part l.part).epFill = false) ∧
        (l.op = 3 → code = 0 → ∀ v, SMap.find s.we.vers (verKey l.part l.slot l.ver) = some v →
          (∀ x, (verKey l.part l.slot l.ver, x) ∈ s.we.vers → x.st = .loading) → Completes (.loadDone q) s fun t =>
          loadOf t = none ∧ ∃ n, SMap.find t.we.vers (verKey l.part l.slot l.ver) = some { v with st := .loaded, extents := n })))

/-- ADAPTER_NEWEST makes the slot's version that was loaded first newest, the newest before it old. ADAPTER_REMOVE leaves the slot's newest version old, or freed. EPOCH_RETAIN_EXPIRE at the end of the retention, no request bound, clears the timer. EPOCH_FREE of a draining epoch that no step and no request uses frees its region, with the extents of its mirror and of its edge-resident weights, and sets its bit of SVC_SOLSTICE_DONE. ADAPTER_QUERY shows the slot's newest version with done set. -/
def Obligations.EpochsAndAdapters : Prop :=
  ∀ (s : State) (ag p slot : Nat), p < 16 → slot < 1024 →
    let q := s.part p
    (∀ k v, firstLoaded ((versOf s p slot).filter fun e => e.2.st = .loaded) = some (k, v) → SMap.find s.we.vers k = some v →
      (newestVer s p slot = none → Completes (.adapterNewest p slot) s fun t =>
        SMap.find t.we.vers k = some { v with st := .newest } ∧ t.parts = s.parts) ∧
      (∀ n, newestVer s p slot = some n → k ≠ verKey p slot n → Completes (.adapterNewest p slot) s fun t =>
        SMap.find t.we.vers k = some { v with st := .newest } ∧ ∀ w, SMap.find t.we.vers (verKey p slot n) = some w → w.st = .old)) ∧
    (∀ ver, Accepts s ag pgEpoch 0x140 (4 + 8 * p) → s.fld pgEpoch 0 0x144 0 10 = slot → newestVer s p slot = some ver →
      Completes (.adapterRemove ag p) s fun t => ∀ v, SMap.find t.we.vers (verKey p slot ver) = some v → v.st = .old) ∧
    (∀ due, q.retainAt = some due → due ≤ s.now → q.epDrain ≠ 0xFF → boundToEpoch s p q.epDrain = [] →
      Completes (.epochRetainExpire p) s fun t => t.part p = { q with retainAt := none } ∧ t.serv = s.serv) ∧
    (q.epDrain ≠ 0xFF → epochInUse q q.epDrain = false → boundToEpoch s p q.epDrain = [] → Completes (.epochFree p) s fun t =>
      (t.part p).epDrain = 0xFF ∧ (t.part p).regions = q.regions.set (q.regions.idxOf q.epDrain) 0xFF ∧
      poolFree t = (poolFree s + SMap.get q.mirrors 0 (q.regions.idxOf q.epDrain) + SMap.get q.edgeExts 0 (q.regions.idxOf q.epDrain)) % 2 ^ 32 ∧
      (t.regN pgEpoch 0 0x110).testBit p = true) ∧
    (∀ v : W32, Accepts s ag pgEpoch 0x170 v.toNat → Completes (.adapterQuery ag v) s fun t => SamePlanes s t ∧
      t.fld pgEpoch 0 0x174 12 1 = 1 ∧
      t.fld pgEpoch 0 0x174 0 8 = ((newestVer s (s.fld pgEpoch 0 0x100 0 4) (v.toNat % 1024)).getD 0) % 256)

/-! ### 13 Module groups and Merdutra links -/

/-- On an UP port, LINK_FRAME with a good CRC and the expected number lets its data join the named lane and expects the next number; what it acknowledges leaves the replay buffer, and what waits there may follow; a frame of another length or CRC, or out of sequence, asks for a replay; a replay request resends and counts every frame kept; a credit frame adds its credits. PORT_RETRAIN after 8 replays of a frame or 16 uncorrectable codewords within 1 ms retrains, or takes the port DOWN. PORT_TRAIN_DONE on the right plane makes it UP, on another disables it as miswired, a failure takes it DOWN. PORT_ENABLE trains a disabled port or disables it; PORT_RETRAIN_CMD retrains an UP one. PEER_LOST of a peer not lost that has been silent, heard before or not, counts and forgets what was sent to it; PEER_HEARD makes it reachable again. -/
def Obligations.LinkPorts : Prop :=
  ∀ (s : State) (p : Nat), p < 16 →
    let q := s.mport p
    let page := pgPort p
    (∀ (b : List Byte) (ce ue : Nat), portSt s p = 2 →
      let n (o k : Nat) : Nat := leNat ((b.drop o).take k)
      let v := n 4 1 / 4 % 4
      let body := (b.drop 8).take 256
      let good := b.length = 272 ∧ crc64 (b.take 264) = n 264 8
      (good → n 4 1 % 4 = 0 → n 0 2 = q.rx → (s.lane p v).drop = 0 →
        (∀ h, ((s.lane p v).frames ++ [body]).head? = some h → kindBad h = false) →
        Completes (.linkFrame p b ce ue) s fun t => (t.lane p v).frames = (s.lane p v).frames ++ [body] ∧
          (t.mport p).rx = (q.rx + 1) % 65536 ∧ ackFrames (n 2 2) q.tx <+: (t.mport p).tx ∧
          (q.waiting = 0 → (t.mport p).tx = ackFrames (n 2 2) q.tx ∧ t.out = s.out) ∧
          t.reg page 0 0x180 = s.reg page 0 0x180 + BitVec.ofNat 32 ce ∧ t.reg page 0 0x184 = s.reg page 0 0x184 + BitVec.ofNat 32 ue) ∧
      (¬ good ∨ (good ∧ n 4 1 % 4 = 0 ∧ n 0 2 ≠ q.rx) → Completes (.linkFrame p b ce ue) s fun t =>
        (∃ l x, t.out = s.out ++ l ++ [.link p 2 x] ∧ (¬ good ∨ q.waiting = 0 → l = [])) ∧ (t.mport p).lanes = q.lanes ∧ (t.mport p).rx = q.rx) ∧
      (good → n 4 1 % 4 = 2 → Completes (.linkFrame p b ce ue) s fun t => ackFrames (n 2 2) q.tx <+: (t.mport p).tx ∧
        (∃ l : List (List Nat), t.out = s.out ++ l.map (fun x => .link p 0 x) ∧
          l.length + (ackFrames (n 2 2) q.tx).length = 2 * ((t.mport p).tx).length) ∧
        t.reg page 0 0x188 = s.reg page 0 0x188 + BitVec.ofNat 32 ((t.mport p).tx).length) ∧
      (good → n 4 1 % 4 = 3 → Completes (.linkFrame p b ce ue) s fun t =>
        SMap.get (t.mport p).credits 0 v = SMap.get q.credits 0 v + n 5 1 ∧ (t.mport p).lanes = q.lanes)) ∧
    (portSt s p = 2 → ((∃ f n, q.replayed = some (f, n) ∧ 8 ≤ n) ∨ 16 ≤ (q.ues.filter fun t => s.now < t + ms).length) →
      Completes (.portRetrain p) s fun t => (portSt t p = 3 ∨ portSt t p = 4) ∧ t.reg page 0 0x18C = s.reg page 0 0x18C + 1 ∧
        ((q.retrains.filter fun t => s.now < t + 10 * sec).length < 2 → portSt t p = 3)) ∧
    (∀ plane, plane < 16 → portSt s p = 1 →
      (plane = p → Completes (.portTrainDone p true plane) s fun t => portSt t p = 2 ∧ t.fld page 0 0x100 4 4 = p) ∧
      (plane ≠ p → Completes (.portTrainDone p true plane) s fun t => portSt t p = 0 ∧ t.fld page 0 0x100 3 1 = 1 ∧
        (t.blk page).errStat.getLsbD 1 = true) ∧
      Completes (.portTrainDone p false plane) s fun t => portSt t p = 4 ∧ (t.blk page).errStat.getLsbD 0 = true) ∧
    (∀ ag, (Accepts s ag page 0x104 1 → portSt s p = 0 → Completes (.portEnable ag p true) s fun t => portSt t p = 1) ∧
      (Accepts s ag page 0x104 0 → Completes (.portEnable ag p false) s fun t => portSt t p = 0) ∧
      (Accepts s ag page 0x104 (2 + s.fld page 0 0x104 0 1) → portSt s p = 2 → q.retrains = [] →
        Completes (.portRetrainCmd ag p) s fun t => portSt t p = 3 ∧ (t.mport p).tx = q.tx)) ∧
    (∀ m, m < 64 → m ≠ myModule s → (s.peer m).lost = false → silent s m = true → spansWith s m = [] → Completes (.peerLost m) s fun t =>
      (t.peer m).lost = true ∧ (t.peer m).reach = false ∧ t.reg pgGroup 0 0x188 = s.reg pgGroup 0 0x188 + 1 ∧
      (t.blk pgGroup).errStat.getLsbD 0 = true ∧ ∀ e ∈ t.mlk.tx, e.pkt.dst ≠ m) ∧
    (∀ m, m < 64 → (s.peer m).lost = true → silent s m = false → Completes (.peerHeard m) s fun t =>
      (t.peer m).lost = false ∧ (t.peer m).reach = true ∧ t.mlk.tx = s.mlk.tx ∧ t.parts = s.parts)

/-- MLK_WRITE of a new WRITE header at the front of a lane, nothing held of its source: if no check of R336 fails the write is in flight; else the window's rejection counter increments and neither T1 nor a core changes. MLK_WRITE_APPLY of a whole accepted write in its turn into a T1 window, of whose lines the host holds none, writes exactly its bytes under the window's key slot and leaves flight. MLK_WRITE_TIMEOUT after 100 us discards it whole, only its frames' credits going back. MLK_ACK releases the packet its tag names; MLK_NAK also counts and stores the generation. MLK_CTRL delivers a cause of a member to the head. MLK_RED puts its units into the edge router. MLK_RETRY_TIMER resends a packet that is due and counts it. -/
def Obligations.LinkPackets : Prop :=
  ∀ (s : State) (p v : Nat), p < 16 → v < 4 →
    (∀ h rest, (s.lane p v).frames = h :: rest → hKind h = 1 → kindBad h = false → (s.lane p v).checked = false →
      let k := { pktOf h with lane := v }
      standing s k = 0 → SMap.get s.mlk.held [] (srcKey k) = [] →
      (writeCheck s k (hUnits h) = none → Completes (.mlkWrite p v) s fun t => (t.lane p v).checked = true ∧
        t.mlk.flights = s.mlk.flights ++ [{ src := k.src, lane := v, e2e := k.e2e, win := k.window, since := s.now }] ∧
        t.mem = s.mem ∧ t.cores = s.cores) ∧
      (∀ c, writeCheck s k (hUnits h) = some c → Completes (.mlkWrite p v) s fun t => t.mlk.flights = s.mlk.flights ∧
        t.mem = s.mem ∧ t.cores = s.cores ∧ t.reg pgGroup k.window 0x150 = s.reg pgGroup k.window 0x150 + 1)) ∧
    (∀ h rest f, (s.lane p v).frames = h :: rest → hKind h = 1 → (s.lane p v).checked = true → hFrames h ≤ rest.length + 1 →
      let k := { pktOf h with lane := v }
      let d := (s.rwin k.window).desc
      let data := ((((s.lane p v).frames.take (hFrames h)).flatten).drop 32).take (32 * hUnits h)
      let a := wBase d + k.off
      f ∈ s.mlk.flights → f.src = k.src → f.lane = v → f.e2e = k.e2e → k.e2e = SMap.get s.mlk.want 0 (srcKey k) →
      SMap.get s.mlk.held [] (srcKey k) = [] → wKind d = 0 → (keySlot s (wOwner d) (wKey d)).key.isSome = true →
      heldLines s a data.length = [] → tagWaits s (tagT1 4) = false →
      Completes (.mlkWriteApply p v) s fun t =>
        (∀ x, SMap.get t.mem.t1 0#8 x = if a ≤ x ∧ x < a + data.length then data.getD (x - a) 0 else SMap.get s.mem.t1 0#8 x) ∧
        (∀ g ∈ t.mlk.flights, ¬ (g.src = k.src ∧ g.lane = v ∧ g.e2e = k.e2e)) ∧ t.cores = s.cores ∧
        SMap.get t.mlk.want 0 (srcKey k) = (k.e2e + 1) % 65536) ∧
    (∀ h rest f, (s.lane p v).frames = h :: rest → hKind h = 1 → (s.lane p v).checked = true →
      s.mlk.flights.find? (fun g => g.src = (pktOf h).src && g.lane = v && g.e2e = (pktOf h).e2e && !g.whole) = some f →
      f.since + 100 * us ≤ s.now → Completes (.mlkWriteTimeout p v) s fun t =>
        t.mlk.flights = s.mlk.flights.filter (fun g => !decide (g = f)) ∧ t.mem = s.mem ∧ t.cores = s.cores ∧ ∃ x, t.out = s.out ++ [.link p 3 x]) ∧
    (∀ k u e, takeFront s p 0 3 = some (k, u) → txOf s k.src k.tag = some e → e.own = none → Completes (.mlkAck p) s fun t =>
      t.mlk.tx = s.mlk.tx.filter (fun x => !(decide (x.pkt.tag = k.tag) && decide (x.pkt.dst = k.src))) ∧ t.cores = s.cores ∧
      (e.pkt.lane = 0 → (t.peer k.src).lat = Nat.min ((s.now - e.since) / 2) 0xFFFF)) ∧
    (∀ k u e, takeFront s p 0 2 = some (k, u) → txOf s k.src k.tag = some e → e.pkt.dst = k.src → k.gen < 2 ^ 16 →
      Completes (.mlkNak p) s fun t => t.reg pgGroup 0 0x184 = s.reg pgGroup 0 0x184 + 1 ∧
        t.fld pgGroup (rmapUnit k.src e.pkt.window) 0x164 16 16 = k.gen ∧
        ∀ x ∈ t.mlk.tx, ¬ (x.pkt.tag = k.tag ∧ x.pkt.dst = k.src)) ∧
    (∀ k u part bit, part < 16 → takeFront s p v 4 = some (k, u) → standing s { k with lane := v } = 0 →
      SMap.get s.mlk.held [] (k.src * 4 + v) = [] → k.e2e = SMap.get s.mlk.want 0 (k.src * 4 + v) →
      (s.part part).span.findIdx? (fun m => m = k.src) ≠ none → (s.part part).isHead = true → (s.part part).ps = .running →
      Completes (.mlkCtrl p v part (.cause bit)) s fun t => (t.part part).causes = (s.part part).causes ||| 2 ^ bit ∧
        SMap.get t.mlk.want 0 (k.src * 4 + v) = (k.e2e + 1) % 65536) ∧
    (∀ k u site, site < sites → edgeOf site = some (portEdge p) → takeFront s p 2 5 = some (k, u) →
      Completes (.mlkRed p site) s fun t => t.cores = s.cores ∧ ∃ fl : List Flit, t.fab.flits = s.fab.flits ++ fl ∧
        fl.length = pktUnits k ∧ ∀ g ∈ fl, g.vc = 2 ∧ g.loc = site ∧ g.inp = 4 ∧ g.id = k.window ∧ g.round = k.red % 16 ∧
          g.inc = bitAt k.red 4 ∧ g.data = (k.data.drop (32 * g.idx)).take 32) ∧
    (∀ tag e, tag < 2 ^ 32 → s.mlk.tx.find? (fun x => x.pkt.tag = tag) = some e →
      (e.since + s.fld pgGroup 0 0x104 0 12 * us ≤ s.now → Completes (.mlkRetryTimer tag) s fun t =>
        t.mlk.tx = s.mlk.tx.map (fun x => if x.pkt.tag = tag then { x with since := s.now } else x) ∧
        t.reg pgGroup 0 0x180 = s.reg pgGroup 0 0x180 + 1) ∧
      (s.now < e.since + s.fld pgGroup 0 0x104 0 12 * us → Makes (.mlkRetryTimer tag) s s))

/-- For every window: an accepted open command on a CLOSED window with a valid descriptor opens it with that descriptor and keeps its generation; on any other, or with an invalid descriptor, it sets err and changes nothing else. A close makes an OPEN window CLOSING, in which every WRITE header is refused with code 1. WIN_CLOSE_DONE of a CLOSING window with no write in flight makes it CLOSED with the generation incremented, 0xFFFF to 1; with one in flight it changes nothing. The loss of a source module that no span holds discards its writes in flight and leaves every window as it is. WIN_READ shows the descriptor. -/
def Obligations.RemoteWindows : Prop :=
  ∀ (s : State) (ag w : Nat), w < 256 →
    let x := s.rwin w
    let d := BitVec.ofNat 256 ((List.range 8).foldl (fun a k => a + s.regN pgGroup 0 (0x130 + 4 * k) * 2 ^ (32 * k)) 0)
    let others (t : State) : Prop := ∀ y, y ≠ w → t.rwin y = s.rwin y
    (s.fld pgGroup 0 0x120 0 8 = w →
      (Accepts s ag pgGroup 0x124 1 →
        (x.st = 0 → winValid d = true → Completes (.winOpen ag) s fun t =>
          t.rwin w = { st := 1, gen := x.gen, err := false, desc := d } ∧ others t ∧ t.mlk.flights = s.mlk.flights) ∧
        (x.st ≠ 0 ∨ winValid d = false → Completes (.winOpen ag) s fun t => t.rwin w = { x with err := true } ∧ others t)) ∧
      (Accepts s ag pgGroup 0x124 2 → x.st = 1 → Completes (.winClose ag) s fun t => t.rwin w = { x with st := 2 } ∧ others t ∧
        ∀ k units, k.window = w → writeCheck t k units = some 1) ∧
      (Accepts s ag pgGroup 0x124 3 → Completes (.winRead ag) s fun t => t.mlk = s.mlk ∧
        ∀ k, k < 8 → t.regN pgGroup 0 (0x130 + 4 * k) = dBits x.desc (32 * k) 32)) ∧
    (x.st = 2 → (∀ f ∈ s.mlk.flights, f.win ≠ w) → x.gen < 2 ^ 16 → Completes (.winCloseDone w) s fun t => others t ∧
      t.rwin w = { x with st := 0, gen := if x.gen = 0xFFFF then 1 else x.gen + 1 }) ∧
    (x.st = 2 → (∃ f ∈ s.mlk.flights, f.win = w) → Makes (.winCloseDone w) s s) ∧
    (∀ m, m < 64 → m ≠ myModule s → (s.peer m).lost = false → silent s m = true → spansWith s m = [] → Completes (.peerLost m) s fun t =>
      t.rwin w = x ∧ t.mlk.flights = s.mlk.flights.filter fun f => !decide (f.src = m)) ∧
    State.reset.rwin w = { st := 0, gen := 1, err := false, desc := 0 }

/-! ### 14 Power delivery and clocking -/

/-- Loss of lock puts a tile's generator in holdover with clock cap 14 and so every limit of the tile at 14 or below; a retry that finds lock with the reference there ends it and lifts the cap, one that does not waits 1 ms more. Loss of the reference puts every tile that is not dark in holdover and sets ref_lost, its return clears it. STEP_CHANGE_DONE makes CORE_CLK.step the island's target and counts it where the step falls or fits the rail in effect, else it only raises the rail's setpoint; droops are counted; a lower voltage is kept with its time. A telemetry sample fills PWR_MODULE, PWR_VRAIL, PWR_TILE_I and PWR_BLK_STAT and starts or ends each rail's time above warn_mv and trip_mv. A suspect rail sets contact_suspect on its tiles. None of these changes a core, a partition, a page or memory. -/
def Obligations.PowerCapsAndClocks : Prop :=
  ∀ (s : State) (tile site : Nat), tile < tiles → site < sites →
    let pg := pgPwrT tile
    let same (t : State) : Prop := t.cores = s.cores ∧ t.parts = s.parts ∧ t.kv = s.kv ∧ t.mem = s.mem ∧ t.fab = s.fab ∧ t.we = s.we
    (holdover s tile = false → tileSt s tile < 3 → Completes (.clkLockLoss tile) s fun t => holdover t tile = true ∧
      (t.tileP tile).clockCap = 14 ∧ (∀ x, siteTile x = tile → limitOf t x ≤ 14) ∧ (t.blk pg).errStat.getLsbD 5 = true ∧ same t) ∧
    (holdover s tile = true → (s.tileP tile).retryAt ≤ s.now →
      (s.fld pgPwrG 0 0x100 5 1 = 0 → Completes (.clkRelockRetry tile true) s fun t => holdover t tile = false ∧
        (t.tileP tile).clockCap = 15 ∧ same t) ∧
      Completes (.clkRelockRetry tile false) s fun t => holdover t tile = true ∧ (t.tileP tile).retryAt = s.now + ms ∧ same t) ∧
    (s.fld pgPwrG 0 0x100 5 1 = 0 → Completes .refClockLoss s fun t => t.fld pgPwrG 0 0x100 5 1 = 1 ∧
      (t.blk pgPwrG).errStat.getLsbD 0 = true ∧ same t ∧
      ∀ k, k < tiles → (tileSt s k < 3 → holdover t k = true ∧ tileSt t k < 3)) ∧
    (Completes .refClockRestore s fun t => t.fld pgPwrG 0 0x100 5 1 = 0 ∧ same t ∧ ∀ k, holdover t k = holdover s k) ∧
    (let k := targetStep s site;
      (s.core site).on = true → (s.core site).gated = false → k ≤ 15 → s.fld (pgCore site) 0 0x110 0 4 ≠ k →
      let fits := k < stepOf s site ∨ vStep (siteTile site) k + 40 ≤ (s.tileP (siteTile site)).rail
      (ampUp s = true ∨ k ≤ s.fld (pgCore site) 0 0x110 0 4) →
      (fits → Completes (.stepChangeDone site) s fun t => t.fld (pgCore site) 0 0x110 0 4 = k ∧ same t ∧
        t.reg (pgPwrT (siteTile site)) 0 0x188 = s.reg (pgPwrT (siteTile site)) 0 0x188 + 1) ∧
      (¬ fits → Completes (.stepChangeDone site) s fun t => t.reg (pgCore site) 0 0x110 = s.reg (pgCore site) 0 0x110 ∧ same t ∧
        (s.fld (pgPwrT (siteTile site)) 0 0x110 0 10 ≠ 0 → tileSt s (siteTile site) < 3 →
          t.fld (pgPwrT (siteTile site)) 0 0x110 0 10 = needed s (siteTile site)))) ∧
    (∀ permille n, (50 < permille → Completes (.supplyDroop site permille n) s fun t => same t ∧
        t.reg (pgPwrT (siteTile site)) 0 0x184 = s.reg (pgPwrT (siteTile site)) 0 0x184 + BitVec.ofNat 32 n) ∧
      (permille ≤ 50 → Makes (.supplyDroop site permille n) s s)) ∧
    (∀ mv place, mv < 1024 → place < 144 ∨ place = 255 →
      (mv < s.fld pg 0 0x118 0 10 → Completes (.vminSample tile mv place) s fun t => t.fld pg 0 0x118 0 10 = mv ∧
        t.fld pg 0 0x118 16 8 = place ∧ t.fld pg 0 0x118 31 1 = 1 ∧ t.reg64 pg 0 0x120 = s.now % 2 ^ 64 ∧ same t) ∧
      (s.fld pg 0 0x118 0 10 ≤ mv → Makes (.vminSample tile mv place) s s)) ∧
    (∀ watts rails (blocks : List (Nat × Nat)), (rails.map (·.rail)).Nodup → (blocks.map (·.1)).Nodup → (∀ x ∈ rails, x.rail < 90) →
      (∀ b ∈ blocks, b.1 < 18) → Completes (.telemetrySample watts rails blocks) s fun t =>
        t.fld pgPwrG 0 0x10C 0 16 = watts % 2 ^ 16 ∧ same t ∧
        (∀ b ∈ blocks, t.fld pgPwrG b.1 0x114 0 12 = min b.2 0xFFF) ∧
        (∀ x ∈ rails, let e := excess x.rail x.vout x.vsense x.ma;
          (t.rail x.rail).warnSince = since (decide ((s.fld pgPwrG 0 0x118 0 8 * 1000 : Int) < e)) s.now (s.rail x.rail).warnSince ∧
          (t.rail x.rail).tripSince = since (decide ((s.fld pgPwrG 0 0x118 8 8 * 1000 : Int) < e)) s.now (s.rail x.rail).tripSince ∧
          (x.rail < 72 → t.fld (pgPwrT x.rail) 0 0x110 16 10 = x.vsense / 1000 % 1024 ∧
            t.fld (pgPwrT x.rail) 0 0x114 0 10 = x.ma / 1000 % 1024))) ∧
    (∀ r, r < 90 → ampUp s = true → lasted (s.rail r).warnSince s.now (s.fld pgPwrG 0 0x118 16 8 * ms) = true → (s.rail r).warned = false →
      Completes (.contactSuspect r) s fun t => same t ∧
        ∀ k ∈ railTiles r, t.fld (pgPwrT k) 0 0x100 9 1 = 1 ∧ (t.blk (pgPwrT k)).errStat.getLsbD 1 = true)

/-- A failing trim slice is recorded in PWR_TRIM_FAIL and the fault list, and at the next governor period the tile takes the action for its whole set: up to 2, no 3 adjacent, trim_degraded; 3 to 5, a slice cap of at most 10; 6 or more or any 3 adjacent, a cap of 0 and MOVING or DARK. A contact trip caps every tile of the rail at 0 and moves or darkens it. An e-fuse trip makes a tile FUSED and takes power from every core island of it. A rail fault gates the core clocks of the tiles it affects and raises rail_fault; the rail-off that follows leaves none of their islands powered and no flit in their routers, with the VCORE power-good clear, and that of VMEM where a whole supply block is off. -/
def Obligations.PowerLost : Prop :=
  ∀ (s : State) (tile : Nat), tile < tiles →
    let pg := pgPwrT tile
    (∀ n, n < 56 → let m := s.reg64 pg 0 0x108;
      (bitAt m n = true → Makes (.trimSliceFail tile n) s s) ∧
      (bitAt m n = false → Completes (.trimSliceFail tile n) s fun t => t.reg64 pg 0 0x108 = m + 2 ^ n ∧
        (t.tileP tile).sliceDue = some n ∧ t.cores = s.cores ∧ t.parts = s.parts ∧ (s.led.faultList.length < 65536 →
          { loc := .slice tile n, code := sliceCode (m + 2 ^ n), time := s.now } ∈ t.led.faultList))) ∧
    (∀ n, (s.tileP tile).sliceDue = some n → ampUp s = true → (∀ p, (s.blk p).commit = none) →
      Completes (.governorPeriod [] []) s fun t =>
        let m := s.reg64 pg 0 0x108
        let k := sliceCount m
        (t.tileP tile).sliceDue = none ∧ (t.blk pg).errStat.getLsbD 0 = true ∧
        (6 ≤ k ∨ threeAdjacent m = true → (t.tileP tile).sliceCap = 0 ∧ (tileSt s tile < 2 → 2 ≤ tileSt t tile)) ∧
        (3 ≤ k → k < 6 → threeAdjacent m = false → (t.tileP tile).sliceCap ≤ 10) ∧
        (k < 3 → threeAdjacent m = false → t.fld pg 0 0x100 8 1 = 1)) ∧
    (∀ r, r < 90 → ampUp s = true → lasted (s.rail r).tripSince s.now (s.fld pgPwrG 0 0x118 24 8 * ms) = true → (s.rail r).tripped = false →
      Completes (.contactTrip r) s fun t => ∀ k ∈ railTiles r, (t.tileP k).contactCap = 0 ∧
        (t.blk (pgPwrT k)).errStat.getLsbD 2 = true ∧ (tileSt s k < 2 → 2 ≤ tileSt t k)) ∧
    (tileSt s tile ≠ 4 → Completes (.efuseTrip tile) s fun t => tileSt t tile = 4 ∧ (t.blk pg).errStat.getLsbD 4 = true ∧
      ∀ x, x < sites → siteTile x = tile → (t.core x).on = false) ∧
    (tileSt s tile = 4 → Makes (.efuseTrip tile) s s) ∧
    (∀ r, r < 92 → let ts := if r < 90 then railTiles r else allTiles
      Completes (.railFault r) s fun t => (∀ k ∈ ts, k ∈ t.pwr.railOff) ∧ (t.blk pgPwrG).errStat.getLsbD 1 = true ∧
        t.mem = s.mem ∧ t.parts = s.parts ∧ ∀ x, x < sites →
          if siteTile x ∈ ts then (t.core x).on = true → (t.core x).gated = true else t.core x = s.core x) ∧
    (let l := s.pwr.railOff
     l ≠ [] → Completes .railOff s fun t => t.pwr.railOff = [] ∧ t.fld pgPwrG 0 0x100 4 1 = 0 ∧
      (∀ b, b < 18 → (∀ k ∈ blockTiles b, k ∈ l) → t.fld pgPwrG 0 0x100 3 1 = 0) ∧
      (∀ x, x < sites → siteTile x ∈ l → (t.core x).on = false) ∧
      ((∀ k ∈ l, boundIn s k = []) → ∀ f ∈ t.fab.flits, siteTile f.loc ∉ l))

/-- A turn-on of a region that may be turned on, on a tile with none running, begins its stages, or where the supply block's current is above the threshold waits, counted, to run four times slower; behind another it queues. The wait ends on a current at the threshold or below, or after wait_us. Eight stages and one interval later every core island of the region is on at step 0, clock gated. A turn-off of a region without bound cores leaves no island of it on; of a region with one it changes nothing; of a region whose own turn-on is queued it is kept for its end. A short isolates the region: its cores read kind 3, a fused-out site 2 as before, and it is never turned on again. -/
def Obligations.HeaderSwitches : Prop :=
  ∀ (s : State) (tile : Nat), tile < tiles →
    let pg := pgPwrT tile
    let seqs := (s.tileP tile).seqs
    (∀ r, r < 297 → mayTurnOn s tile r = true →
      (seqs = [] → blockBusy s tile = false → Completes (.regionTurnOn tile r) s fun t =>
        (t.tileP tile).seqs = [{ region := r, start := s.now }] ∧ t.fld pg 0 0x100 11 1 = 1 ∧ t.cores = s.cores) ∧
      (seqs = [] → blockBusy s tile = true → Completes (.regionTurnOn tile r) s fun t =>
        (t.tileP tile).seqs = [{ region := r, waitFrom := some s.now, slow := true }] ∧ t.cores = s.cores ∧
        t.reg pg 0 0x180 = s.reg pg 0 0x180 + 1) ∧
      (seqs ≠ [] → Completes (.regionTurnOn tile r) s fun t =>
        (t.tileP tile).seqs = seqs ++ [{ region := r }] ∧ t.cores = s.cores ∧ t.regs = s.regs)) ∧
    (∀ q rest w, seqs = q :: rest → q.waitFrom = some w →
      (blockBusy s tile = false ∨ w + s.fld pgPwrG 0 0x104 16 16 * us ≤ s.now → Completes (.regionTurnOnWaitEnd tile) s fun t =>
        (t.tileP tile).seqs = { q with waitFrom := none, start := s.now } :: rest ∧ t.cores = s.cores) ∧
      (blockBusy s tile = true → s.now < w + s.fld pgPwrG 0 0x104 16 16 * us → Makes (.regionTurnOnWaitEnd tile) s s)) ∧
    (∀ q rest, seqs = q :: rest → q.waitFrom = none → q.off = false → (s.tileP tile).reset = none →
      q.start + 9 * (s.fld pgPwrG 0 0x104 0 4 * us) * (if q.slow then 4 else 1) ≤ s.now → Completes (.regionPowered tile) s fun t =>
        (t.tileP tile).seqs.length = rest.length ∧ t.reg pg 0 0x18C = s.reg pg 0 0x18C + 1 ∧
        (∀ x ∈ regionSites tile q.region, siteKind s x < 2 → (s.core x).on = false →
          (t.core x).on = true ∧ (t.core x).gated = true ∧ t.fld (pgCore x) 0 0x110 0 4 = 0) ∧
        (∀ x, x ∉ regionSites tile q.region → t.core x = s.core x)) ∧
    (∀ r, r < 297 → (∀ q ∈ seqs, q.region ≠ r) →
      ((∃ x ∈ regionSites tile r, (s.core x).on = true) → (∀ x ∈ regionSites tile r, boundAt s x = none) →
        Completes (.regionTurnOff tile r) s fun t => t.reg pg 0 0x18C = s.reg pg 0 0x18C + 1 ∧
          (∀ x ∈ regionSites tile r, (t.core x).on = false ∧ (t.core x).spad = [] ∧ (t.core x).acc = []) ∧
          (∀ x, x ∉ regionSites tile r → t.core x = s.core x)) ∧
      ((∃ x ∈ regionSites tile r, (boundAt s x).isSome = true) → Makes (.regionTurnOff tile r) s s)) ∧
    (∀ r, r < 297 → (∃ q ∈ seqs, q.region = r) → Completes (.regionTurnOff tile r) s fun t => t.cores = s.cores ∧
      ∀ q ∈ (t.tileP tile).seqs, q.region = r → q.off = true) ∧
    (∀ q rest, seqs = q :: rest → q.waitFrom = none → (s.tileP tile).reset = none → Completes (.regionShort tile) s fun t =>
      (∀ x ∈ regionSites tile q.region, siteKind t x = if siteKind s x = 2 then 2 else 3) ∧ mayTurnOn t tile q.region = false ∧
      (t.blk pg).errStat.getLsbD 3 = true ∧ t.cores = s.cores)

/-! ### 15 Thermal control and cooling -/

/-- A governor period takes the samples in; no island's thermal cap falls by more than a step and in a tile at most one island's falls; with no committed set, power above the cap lowers the power cap of the hungriest tile by a step and of no other. A junction trip of a clocked island gates it, faults its core, marks it tripped, counts it, leaves its kind. HEAT_DARK of a tile that is due: in no partition, every island off and every local port as fenced; with room, MOVING under holder bit 1; without, no_move_site alone. The way back frees the ports and makes the tile a reserve tile. A pair that has differed is flagged. Recalibration of an idle tile gates its cores; after 50 ms it judges diodes and ring oscillators and sets the model. -/
def Obligations.ThermalTiles : Prop :=
  ∀ (s : State) (tile site : Nat), tile < tiles → site < sites →
    let pg := pgThmT tile
    let tl := siteTile site
    (ampUp s = true → (∀ x, (s.isl x).tcap ≤ 15) → ∀ (islands : List IslSample) (diodes : List DiodeSample),
      (islands.map (·.site)).Nodup → (diodes.map fun d => (d.tile, d.diode)).Nodup → (∀ i ∈ islands, i.site < sites) →
      (∀ d ∈ diodes, d.tile < tiles ∧ d.diode < 12) → Completes (.governorPeriod islands diodes) s fun t =>
        ((∀ k, (s.tileP k).sliceDue = none) → (∀ i ∈ islands, (t.isl i.site).mw = i.mw) ∧ t.kv = s.kv) ∧
        (∀ d ∈ diodes, diodeTemp t d.tile d.diode = min d.temp 0x7FF) ∧ (∀ x, (s.isl x).tcap ≤ (t.isl x).tcap + 1) ∧
        (∀ x y, siteTile x = siteTile y → (t.isl x).tcap < (s.isl x).tcap → (t.isl y).tcap < (s.isl y).tcap → x = y) ∧
        ((∀ q ∈ pwrPages, (s.blk q).commit = none) → capWatts s < s.fld pgPwrG 0 0x10C 0 16 → t.fld pgPwrG 0 0x100 6 1 = 1 ∧
          ∀ k, (t.tileP k).powerCap = (s.tileP k).powerCap - if k = hungriest s then 1 else 0)) ∧
    (∀ temp diode, (s.core site).on = true → (s.core site).gated = false →
      (tripDue s site temp diode = true → Completes (.junctionTrip site temp diode) s fun t => (t.core site).gated = true ∧
        (t.core site).fcode = 0x5051 ∧ (t.blk (pgCore site)).st = .faulted ∧ (t.isl site).tripped = true ∧
        (t.blk (pgThmT tl)).errStat.getLsbD 0 = true ∧ siteKind t site = siteKind s site ∧
        t.reg (pgThmT tl) 0 0x184 = s.reg (pgThmT tl) 0 0x184 + 1) ∧
      (tripDue s site temp diode = false → Makes (.junctionTrip site temp diode) s s)) ∧
    (ampUp s = true → heatDue s tile = true → (s.tileP tile).heat = 0 → tileSt s tile < 2 →
      (servingPart s tile = none → Completes (.heatDark tile) s fun t => (t.tileP tile).heat = 2 ∧ tileSt t tile = 1 ∧
        t.fld (pgPwrT tile) 0 0x100 4 4 = 0 ∧ (t.blk pg).errStat.getLsbD 3 = true ∧
        ∀ x ∈ tileSites tile, (t.core x).on = false ∧ bitAt (routerCfg t x) 38 = true) ∧
      (∀ p, servingPart s tile = some p → roomToMove s p tile = true → Completes (.heatDark tile) s fun t =>
        (t.tileP tile).heat = 1 ∧ (t.part p).holders.testBit 1 = true ∧ t.cores = s.cores) ∧
      (∀ p, servingPart s tile = some p → roomToMove s p tile = false → (s.tileP tile).noMove = false →
        Completes (.heatDark tile) s fun t => (t.tileP tile).heat = 0 ∧ (t.blk pg).errStat.getLsbD 4 = true ∧
          t.parts = s.parts ∧ t.cores = s.cores)) ∧
    (ampUp s = true → (s.tileP tile).heat = 2 → lasted (s.tileP tile).coolAt s.now (100 * ms) = true → coolState s ≤ 1 →
      Completes (.heatDarkExit tile) s fun t => (t.tileP tile).heat = 0 ∧
        (∀ x ∈ tileSites tile, bitAt (routerCfg t x) 38 = false) ∧
        ∀ p, tilePart s tile = some p → tile ∈ (t.part p).reserve ∧ t.fld (pgSched p) 0 (0x114 + 4 * (tile / 32)) (tile % 32) 1 = 1) ∧
    (ampUp s = true → lasted (s.isl site).diffSince s.now (sec + 1) = true → (s.isl site).disagree = false →
      Completes (.sensorDisagree site) s fun t => (t.isl site).disagree = true ∧ (t.blk (pgThmT tl)).errStat.getLsbD 1 = true ∧
        t.fld (pgThmT tl) 0 (diodeOff (coverDiode site)) 12 1 = 1 ∧ t.cores = s.cores) ∧
    (∀ ag, Accepts s ag pg 0x160 1 →
      (tileIdle s tile = true → (s.tileP tile).recalAt = none → Completes (.recalReq ag tile) s fun t =>
        (t.tileP tile).recalAt = some s.now ∧ t.fld pg 0 0x160 1 1 = 1 ∧
        ∀ x ∈ tileSites tile, (t.core x).on = true → (t.core x).gated = true) ∧
      (tileIdle s tile = false → Completes (.recalReq ag tile) s fun t => t.pwr = s.pwr ∧ t.cores = s.cores ∧
        (t.blk pg).errStat.getLsbD 31 = true)) ∧
    (∀ t0 (ds ros : List Nat), (s.tileP tile).recalAt = some t0 → t0 + 50 * ms ≤ s.now → ds.length = 12 → ros.length = 144 →
      Completes (.recalDone tile ds ros) s fun t => (t.tileP tile).recalAt = none ∧ t.fld pg 0 0x160 1 1 = 0 ∧ t.cores = s.cores ∧
        (∀ d, d < 12 → let v := 12 * ds.getD d 0; let sum := ds.foldl (· + ·) 0;
          diodeFailed t tile d = (decide (v + 360 < sum) || decide (sum + 360 < v)) ∧ diodeTemp t tile d = min (ds.getD d 0) 0x7FF) ∧
        (∀ n, n < 144 → let x := siteOf tile n; diodeFailed t tile (coverDiode x) = false →
          let o : Int := (diodeTemp t tile (coverDiode x) : Int) - ros.getD n 0;
          (t.isl x).roFail = (decide (80 < o) || decide (o < -80)) ∧ (t.isl x).model = protective t x * 100))

/-- A sample that is a sudden stop, or COOL_FAIL_N asserted, in any state but STOPPED: STOPPED, every core clock gated, every partition LOST, sudden_stop set. Else below SHUTDOWN: an average below half of nominal, or the inlet above 45 degrees for 10 s, begins an orderly shutdown with every island's cap 0; from NORMAL or ALARM an average below Q_full goes to DERATE with the coolant cap of R369; from NORMAL one below 90 per cent or an inlet outside 15 to 40 degrees to ALARM; a second of good conditions returns DERATE to ALARM with the cap 27,000 W, ALARM to NORMAL. COOL_FAIL_N released clears its bit alone. The shutdown's end, after 1.5 s or once every partition is PAUSED, makes every partition LOST with rail-off due; before it nothing changes. -/
def Obligations.CoolantStates : Prop :=
  ∀ (s : State) (flow dp inlet outlet : Nat),
    let st := coolState s
    let u := s.modPwr fun p => { p with flows := (p.flows.filter fun x => decide (s.now < x.1 + 100 * ms)) ++ [(s.now, flow)], tin := inlet }
    let sud : Prop := 100 * flow < 25 * qNom s ∨ s.fld pgThmG 0 0x104 24 1 = 1 ∨ ∃ x ∈ s.pwr.flows, s.now < x.1 + 100 * ms ∧ 2 * flow < x.2
    let low : Prop := qBelow u 50 = true ∨ lasted (since (decide (450 < inlet)) s.now s.pwr.hotSince) s.now (10 * sec) = true
    let i : Instr := .coolantSample flow dp inlet outlet
    let lostAll (t : State) : Prop := ∀ p ∈ livePartsList s, partLost t p = true
    let stopped (t : State) : Prop := coolState t = 4 ∧ (t.blk pgThmG).errStat.getLsbD 3 = true ∧ lostAll t ∧
      (waferBusy s = false → t.pwr.railOff = allTiles) ∧ ∀ x, (t.core x).on = true → (t.core x).gated = true
    Completes i s (fun t => t.fld pgThmG 0 0x100 0 11 = inlet % 2 ^ 11 ∧ t.fld pgThmG 0 0x100 16 11 = outlet % 2 ^ 11 ∧
      (st = 4 → coolState t = 4 ∧ t.cores = s.cores ∧ t.parts = s.parts)) ∧
    (st ≠ 4 → sud → Completes i s stopped) ∧
    (¬ sud →
      (st ≤ 2 → low → Completes i s fun t => 3 ≤ coolState t ∧ (waferBusy s = false → coolState t = 3) ∧
        t.pwr.shutAt = some s.now ∧ (t.blk pgThmG).errStat.getLsbD 2 = true ∧ ∀ x, (s.core x).on = true → (t.isl x).tcap = 0) ∧
      (¬ low → st ≤ 1 → qShort u = true → Completes i s fun t => coolState t = 2 ∧ t.fld pgThmG 0 0x10C 16 16 = coolCap u ∧
        (t.blk pgThmG).errStat.getLsbD 1 = true ∧ t.parts = s.parts) ∧
      (¬ low → qShort u = false →
        (st = 0 → fine u = false → Completes i s fun t => coolState t = 1 ∧ (t.blk pgThmG).errStat.getLsbD 0 = true ∧
          t.cores = s.cores ∧ t.parts = s.parts) ∧
        (∀ t0, s.pwr.okSince = some t0 → t0 + sec ≤ s.now →
          (st = 2 → Completes i s fun t => coolState t = 1 ∧ t.fld pgThmG 0 0x10C 16 16 = 27000 ∧ t.cores = s.cores) ∧
          (st = 1 → fine u = true → Completes i s fun t => coolState t = 0 ∧ t.cores = s.cores)))) ∧
    (st ≠ 4 → Completes .coolFailAssert s fun t => t.fld pgThmG 0 0x104 24 1 = 1 ∧ stopped t) ∧
    (Completes .coolFailRelease s fun t => t.fld pgThmG 0 0x104 24 1 = 0 ∧ coolState t = st ∧ t.cores = s.cores ∧ t.parts = s.parts) ∧
    (∀ t0, s.pwr.shutAt = some t0 →
      (t0 + 1500 * ms ≤ s.now ∨ (∀ p ∈ livePartsList s, (s.part p).ps = .paused) → Completes .shutdownTimeout s fun t =>
        t.pwr.shutAt = none ∧ t.pwr.railOff = allTiles ∧ lostAll t) ∧
      (s.now < t0 + 1500 * ms → (∃ p ∈ livePartsList s, (s.part p).ps ≠ .paused) → Makes .shutdownTimeout s s))

/-! ### 16 Errors, faults and recovery -/

/-- A core whose corrected words grew by more than ce_limit since the last sample sets ce_rate, not within a minute of the last time; every sample takes the count. RELOCATION_DONE on a paused partition with a core to retire moves it to the first candidate and makes the old site kind 3; in no other pause or state does it change anything but a relocation. A heartbeat is noted. Its absence makes the Steward dead with 0x4028, and with stw_reset_en begins a warm wafer reset of cause 4. The AMP's watchdog restarts it from ROM, counted, with a crash record, its cores and partitions as before. The wafer watchdog begins a warm wafer reset of cause 3 that restarts the AMP. -/
def Obligations.FaultsAndRecovery : Prop :=
  ∀ (s : State) (site p : Nat), site < sites → p < 16 →
    let n := s.regN (pgCore site) 0 0x210
    let c := s.core site
    let lim := s.fld pgFault 0 0x104 16 16
    let rate : Prop := lim ≠ 0 ∧ lim < (n + 2 ^ 32 - c.ceMark) % 2 ^ 32 ∧ ∀ t0, c.ceSaid = some t0 → t0 + 60 * sec ≤ s.now
    let wiped (t : State) (kind cause : Nat) : Prop := stageNow t = 1 ∧ t.fld pgGlob 0 0x144 0 2 = kind ∧
      t.fld pgGlob 0 0x144 2 3 = cause ∧ t.parts = [] ∧ t.cores = [] ∧ t.led.kinds = s.led.kinds
    (ampUp s = true → (rate → Completes (.ceRateSample site) s fun t => (t.core site).ceMark = n ∧ (t.core site).ceSaid = some s.now ∧
        (t.blk pgFault).errStat.getLsbD 3 = true ∧ (s.now, site, (n + 2 ^ 32 - c.ceMark) % 2 ^ 32) ∈ t.led.ceRate) ∧
      (¬ rate → Completes (.ceRateSample site) s fun t => (t.core site).ceMark = n ∧ t.blocks = s.blocks ∧ t.regs = s.regs ∧ t.led = s.led)) ∧
    (∀ fails bad k old new rest, ampUp s = true → (s.part p).ps = .paused → coolState s < 3 → (s.part p).retireDue = [k] →
      siteOfLogical s p k = some old → candidates s p k old true = new :: rest → new ∉ fails →
      (∀ x ∈ (s.part p).tiles, waitsMove s x = false) → Completes (.relocationDone p fails bad) s fun t =>
        siteOfLogical t p k = some new ∧ ledgerKind t old = 3 ∧ t.reg pgFault 0 0x188 = s.reg pgFault 0 0x188 + 1) ∧
    (∀ fails bad, ampUp s = false ∨ ((s.part p).ps ≠ .paused ∧ (s.part p).ps ≠ .relocating) → Makes (.relocationDone p fails bad) s s) ∧
    (Completes .stwHeartbeat s fun t => t.mg.hbAt = s.now ∧ t.cores = s.cores ∧ t.parts = s.parts ∧ t.blocks = s.blocks) ∧
    (ampUp s = true → stageNow s = 6 → s.mg.stwDead = false → s.mg.hbAt + s.fld pgFault 0 0x100 8 8 * ms ≤ s.now →
      (s.fld pgFault 0 0x100 1 1 = 0 → Completes .stwWdogExpire s fun t => t.mg.stwDead = true ∧
        (t.blk pgFault).errStat.getLsbD 2 = true ∧ t.cores = s.cores ∧ t.parts = s.parts) ∧
      (s.fld pgFault 0 0x100 1 1 = 1 → coolState s ≠ 4 → Completes .stwWdogExpire s fun t => wiped t 1 4 ∧ t.mg.amp = .up)) ∧
    (s.now < s.mg.hbAt + s.fld pgFault 0 0x100 8 8 * ms → Completes .stwWdogExpire s fun t => t.regs = s.regs ∧
      t.parts = s.parts ∧ t.cores = s.cores ∧ t.mg.stwDead = s.mg.stwDead) ∧
    (s.mg.amp ≠ .off → Completes .ampWatchdog s fun t => t.mg.amp = .rom ∧ t.mg.sess = [] ∧ t.cores = s.cores ∧ t.parts = s.parts ∧
      t.fld pgMgmt 0 0x100 4 8 = min (s.fld pgMgmt 0 0x100 4 8 + 1) 0xFF ∧ (t.mg.crash.head?).map (·.cause) = some 1 ∧
      (2 ≤ stageNow s → stageNow s ≤ 5 → stageNow t = 2 ∧ t.mg.warm = true) ∧
      (stageNow s < 2 ∨ 5 < stageNow s → stageNow t = stageNow s)) ∧
    (s.mg.amp ≠ .off → coolState s ≠ 4 → Completes .waferWatchdog s fun t => wiped t 1 3 ∧ t.mg.amp = .rom ∧
      (t.mg.crash.head?).map (·.cause) = some 2)

/-! ### 17 Management, security and the ledger -/

/-- A sideband read of a node is answered with its word, a write stores it and no other word and is answered too, a broadcast reaches all 84 nodes; a frame with another CRC-8 than its own changes nothing at the node. A response ends the AMP's command. A silent command goes out once more on the other ring; a second silence makes the node unreachable, a compute tile dark. A time-sync frame sets one node's copy, hop latency added, which events of its blocks and SYSRD 3 show. The clock gate gates every core. A calendar write stores the offset and sets cal_valid. A window that is over empties into its queue, count record first. EVT_LOST carries the counts and clears them. The BMC path, a polled event, an event ring and the ledger each take the next record. A checkpoint keeps the words due to it. The window copies the selected 2 KiB. CRASH_READ, sensors, FRU and MCTP control answer. -/
def Obligations.SidebandEventsLedger : Prop :=
  ∀ (s : State) (ag src dst idx : Nat) (data : W32), src < 84 → dst < 84 → idx < 4096 →
    let up := ampUp s = true
    let tells (t : State) (o : Out) : Prop := t.out = s.out ++ [o]
    let still (t : State) : Prop := t.cores = s.cores ∧ t.parts = s.parts ∧ t.mem = s.mem ∧ t.regs = s.regs
    (Completes (.sbRead src dst idx (sbCrc dst src 0 idx 0)) s fun t => still t ∧ t.mg.nodeReg = s.mg.nodeReg ∧
      tells t (.frame (shorter dst) (sbFrame src dst 2 idx (nodeWord s dst idx)))) ∧
    (Completes (.sbRead src 0xFF idx (sbCrc 0xFF src 0 idx 0)) s fun t => still t ∧ t.mg.nodeReg = s.mg.nodeReg ∧
      t.out = s.out ++ (List.range nodes).map fun n => .frame (shorter n) (sbFrame src n 2 idx (nodeWord s n idx))) ∧
    (Completes (.sbWrite src 0xFF idx data (sbCrc 0xFF src 1 idx data)) s fun t => still t ∧ ∀ n, n < nodes → nodeWord t n idx = data) ∧
    (Completes (.sbWrite src dst idx data (sbCrc dst src 1 idx data)) s fun t => nodeWord t dst idx = data ∧ still t ∧
      tells t (.frame (shorter dst) (sbFrame src dst 2 idx data)) ∧
      ∀ n i, i < 4096 → ¬ (n = dst ∧ i = idx) → nodeWord t n i = nodeWord s n i) ∧
    (∀ crc, crc ≠ sbCrc dst src 0 idx 0 → Completes (.sbRead src dst idx crc) s fun t => t.out = s.out ∧ still t ∧ t.mg.nodeReg = s.mg.nodeReg) ∧
    (∀ crc, crc ≠ sbCrc dst src 1 idx data → Completes (.sbWrite src dst idx data crc) s fun t => t.out = s.out ∧ still t ∧ t.mg.nodeReg = s.mg.nodeReg) ∧
    (Completes (.sbResponse src idx data (sbCrc nodeAmp src 2 idx data)) s fun t => tells t (.readData agAmp data.toNat) ∧ still t ∧
      t.mg.cmds = s.mg.cmds.filter fun c => !(c.node = src && c.idx = idx)) ∧
    (Completes (.sbClockGate (sbCrc 0xFF nodeAmp 3 0 0)) s fun t => t.regs = s.regs ∧ t.parts = s.parts ∧ ∀ x, (t.core x).on = (s.core x).on ∧
      ((t.core x).on = true → (t.core x).gated = true)) ∧
    (∀ hops v, hops ≤ 83 → Completes (.sbTimeSync dst hops v (sbCrc 0xFF nodeAmp 4 0 (BitVec.ofNat 32 v))) s fun t =>
      t.nodeNow dst = (v + 144 * hops) % 2 ^ 64 ∧ still t ∧ ∀ n, n ≠ dst → t.nodeNow n = s.nodeNow n) ∧
    (Completes (.sbAlarm src idx data (sbCrc nodeAmp src 5 idx data)) s fun t => tells t (.notice src agAmp 5 [idx, data.toNat]) ∧ still t) ∧
    (up → s.mg.syncAt + ms ≤ s.now → Completes .timeSyncTimer s fun t => t.mg.syncAt = s.now ∧ still t ∧
      t.out = s.out ++ [.frame 0 (sbTime s.now), .frame 1 (sbTime s.now)]) ∧
    (∀ c, up → s.mg.cmds.find? (fun c => c.node = dst && c.idx = idx) = some c → c.sent + 20 * us ≤ s.now →
      (c.tries < 2 → Completes (.sbRetryTimer dst idx) s fun t => tells t (.frame (1 - c.ring) (sbFrame dst nodeAmp c.cmd idx c.data)) ∧
        t.fld pgMgmt 0 0x100 3 1 = 1 ∧ t.cores = s.cores) ∧
      (2 ≤ c.tries → dst ≠ nodeE0 → Completes (.sbRetryTimer dst idx) s fun t => dst ∈ t.mg.dead ∧
        (t.blk pgMgmt).errStat.getLsbD 0 = true ∧ (dst < tiles → 3 ≤ tileSt t dst) ∧ (tiles ≤ dst → t.cores = s.cores))) ∧
    (∀ v : BitVec 64, Accepts s ag pgMgmt 0x110 v.toNat → Completes (.calOffsetWrite ag v) s fun t =>
      t.reg64 pgMgmt 0 0x110 = v.toNat ∧ t.fld pgMgmt 0 0x118 0 1 = 1 ∧ t.cores = s.cores) ∧
    (∀ q w, 0 < q → q < 2 + 2 ^ 20 → (s.path q).wins = [w] → w.opened + sec ≤ s.now →
      (s.path q).queue.length + w.held.length + 1 ≤ pathCap q → Completes (.evtWindowClose q) s fun t => (t.path q).wins = [] ∧ still t ∧
        (t.path q).queue = (s.path q).queue ++ (if w.omitted = 0 then [] else [w.countRecord]) ++
          w.held.map (fun e => { e with flags := e.flags ||| 4 }) ∧ ∀ r, r ≠ q → t.path r = s.path r) ∧
    (∀ q, q < 2 + 2 ^ 20 → up → lostDue (s.path q) s.now = true → Completes (.evtLost q) s fun t => still t ∧
      (t.path q).lost = some (lostRecord q (s.path q) s.now) ∧ (t.path q).lostN = 0 ∧ (t.path q).lostT = 0 ∧ (t.path q).lostA = 0 ∧
      (t.path q).queue = (s.path q).queue ∧ (t.blk pgMgmt).errStat.getLsbD 4 = true) ∧
    (∀ r g, nextRing s = some r → s.ring r = some g → 0 < g.space → g.failNext = false → Completes .eventRingPass s fun t =>
      t.serv.evtLast = r ∧ (t.path (2 + r)).waiting < (s.path (2 + r)).waiting ∧ t.cores = s.cores ∧ t.parts = s.parts) ∧
    (∀ e q, up → (s.path 0).next = some (e, q) →
      let one (t : State) : Prop := tells t (.mctp 1 (0xF0 :: (recBytes e none).map (·.toNat))) ∧ t.path 0 = q ∧ still t
      (bmcAsync s = true → Completes .bmcEventSend s one) ∧ (bmcAsync s = false → Makes .bmcEventSend s s) ∧
      (bmcAsync s = true ∨ (∀ m, m < 64 → bmcWaits s m = false) → Completes .pldmPollEvent s one)) ∧
    (∀ e q, up → (s.path 1).next = some (e, q) →
      (logStopped s = false → Completes .ledgerRecordWrite s fun t => t.led.log = (e :: s.led.log).take logCap ∧
        t.led.written = s.led.written + 1 ∧ t.cores = s.cores ∧ (s.led.written % 2048 ≠ 0 → t.path 1 = q)) ∧
      (logStopped s = true → Completes .ledgerRecordWrite s fun t => t.path 1 = q.discard e s.now ∧ t.led = s.led ∧ still t)) ∧
    (up → s.led.ckptAt + 60 * sec ≤ s.now → Completes .ledgerCheckpoint s fun t => t.led.ckptAt = s.now ∧ t.led.ckpt = ckptWords t ∧
      t.led.erases = s.led.erases + 1 ∧ t.led.log = s.led.log ∧ t.cores = s.cores) ∧
    (∀ region off, region < 5 → off < 2 ^ 15 → uploadOpen s = false → Accepts s ag pgEarly 0x200 (region + off * 2 ^ 4) →
      Completes (.ledgerWindowCopy ag region off) s fun t => t.fld pgEarly 0 0x200 31 1 = 1 ∧ ∀ i, i < 512 →
        t.regN pgEarly 0 (0x800 + 4 * i) = leNat ((List.range 4).map fun b => ledgerByte s region (2048 * off + 4 * i + b))) ∧
    (∀ off len, s.mg.amp ≠ .off → len ≤ 64 → off + len ≤ 2 ^ 22 → Completes (.crashRead off len) s fun t => still t ∧
      tells t (.mctp 0x7E (1 :: (List.range len).map fun i => (crashByte s (off + i)).toNat))) ∧
    (∀ eid, s.mg.amp ≠ .off → Completes (.mctpControl 1 eid) s fun t => t.mg.eid = eid % 256 ∧ still t) ∧
    (∀ id v, up → sensor s id = some v → Completes (.pldmSensorRead false id) s fun t => tells t (.mctp 1 [2, 0, v]) ∧ still t) ∧
    (∀ off len, up → Completes (.pldmFruRead off len) s fun t => still t ∧
      tells t (.mctp 1 (4 :: 0 :: (List.range len).map fun i => (Config.fruByte (off + i)).toNat)))

/-- The ROM boots the active slot, or the other with fallback set, or enters recovery at stage 15; the key that signed the package run is not revoked by it. An update, by the host in the HDM range, by blocks through the window or by the BMC, goes into the slot that does not run and is marked active where every component verifies; one offered while another runs leaves all as it was. A transfer without a block for 10 s closes. AMP_CTRL.restart starts the AMP from ROM with its sessions gone, cores and partitions as before. SEC_MEAS_SEL loads the measurement. SPDM: version, capabilities, algorithms in that order; digests, certificate, challenge and measurements only then; key exchange adds a session, at most two on a transport; FINISH establishes it or, failing, ends it with spdm_auth; heartbeat, key update and end act on that session. -/
def Obligations.FirmwareAndSpdm : Prop :=
  ∀ (s : State) (ag tr : Nat), tr < 2 →
    let up := ampUp s = true
    let a := s.mg.active
    let o := inactive s
    let say1 (t : State) (code : Nat) : Prop := ∃ d, t.out = s.out ++ [.spdm tr code d]
    let still (t : State) : Prop := t.cores = s.cores ∧ t.parts = s.parts ∧ t.regs = s.regs ∧ t.mem = s.mem
    let placed (g : Pkg) (t : State) : Prop := SMap.find t.mg.slots o = some g ∧ t.mg.updating = false ∧ t.mg.upload = none ∧
      (slotCode t o = 0 → t.mg.active = o ∧ t.mg.fresh = true) ∧ (slotCode t o ≠ 0 → t.mg.active = a) ∧
      (∀ k, k ≠ o → SMap.find t.mg.slots k = SMap.find s.mg.slots k) ∧ t.mg.running = s.mg.running ∧ still t
    (s.mg.amp = .rom → s.mg.manifestOk = true → a < 2 →
      (slotCode s a = 0 → Completes .romBoot s fun t => t.mg.amp = .up ∧ t.mg.running = a ∧ t.fld pgMgmt 0 0x100 1 1 = 0 ∧ t.cores = s.cores ∧
        ∀ k ∈ ((SMap.find s.mg.slots a).getD {}).keys, k < 16 → bitAt (fuses t) k = bitAt (fuses s) k) ∧
      (slotCode s a ≠ 0 → slotCode s (1 - a) = 0 → Completes .romBoot s fun t => t.mg.amp = .up ∧ t.mg.running = 1 - a ∧
        t.fld pgMgmt 0 0x100 1 1 = 1 ∧ (t.blk pgSec).errStat.getLsbD 0 = true) ∧
      (slotCode s a ≠ 0 → slotCode s (1 - a) ≠ 0 → Completes .romBoot s fun t => t.mg.amp = .recovery ∧ stageNow t = 15 ∧
        t.fld pgGlob 0 0x100 16 16 = 0x7002)) ∧
    (∀ off len g, up → 4 ≤ stageNow s → stageNow s ≤ 6 → updBusy s = false → 0 < len → len ≤ slotBytes24 → off + len ≤ hdmSize s →
      Completes (.update off len g) s (placed g)) ∧
    (∀ off len g, up → 4 ≤ stageNow s → stageNow s ≤ 6 → updBusy s = true → Completes (.update off len g) s fun t => t.mg = s.mg ∧ still t) ∧
    (∀ len, s.mg.amp ≠ .off → s.mg.amp = .recovery ∨ stageNow s < 4 → updBusy s = false → 0 < len → len ≤ slotBytes24 →
      Completes (.updateStart len) s fun t => t.mg.upload = some { len := len, last := s.now } ∧ t.mg.slots = s.mg.slots ∧ still t) ∧
    (∀ u g, s.mg.amp ≠ .off → s.mg.upload = some u → s.now < u.last + 10 * sec →
      (u.len ≤ 2048 * (u.next + 1) → Completes (.updateBlock u.next g) s (placed g)) ∧
      (2048 * (u.next + 1) < u.len → Completes (.updateBlock u.next g) s fun t => t.mg.slots = s.mg.slots ∧ still t ∧
        t.mg.upload = some { u with next := u.next + 1, last := s.now, data := u.data ++ winBytes s })) ∧
    (∀ u, s.mg.upload = some u → u.last + 10 * sec ≤ s.now → Completes .updateTransferTimeout s fun t => t.mg.upload = none ∧
      t.mg.slots = s.mg.slots ∧ still t) ∧
    (∀ len g, up ∨ s.mg.amp = .recovery → updBusy s = false → 0 < len → len ≤ slotBytes24 → Completes (.pldmFwUpdate len g) s (placed g)) ∧
    (s.mg.amp ≠ .off → Accepts s ag pgMgmt 0x104 1 → Completes (.ampRestart ag) s fun t => t.mg.amp = .rom ∧ t.mg.sess = [] ∧
      t.mg.conns = [] ∧ t.mg.updating = false ∧ still t) ∧
    (∀ ix, 1 ≤ ix → ix ≤ 6 → Accepts s ag pgSec 0x110 ix → Completes (.measSelect ag ix) s fun t => t.cores = s.cores ∧
      ∀ k, k < 8 → t.regN pgSec 0 (0x114 + 4 * k) = (measurement s ix).toNat / 2 ^ (32 * k) % 2 ^ 32) ∧
    (up →
      Completes (.getVersion tr) s (fun t => (conn t tr).phase = 1 ∧ say1 t 0x04 ∧ still t) ∧
      ((conn s tr).phase = 1 → Completes (.getCapabilities tr) s fun t => (conn t tr).phase = 2 ∧ say1 t 0x61 ∧ still t) ∧
      ((conn s tr).phase = 2 → Completes (.negotiateAlgorithms tr true) s fun t => (conn t tr).phase = 3 ∧ say1 t 0x63 ∧ still t) ∧
      (∀ off len ix sign, ix ≤ 6 →
        ∀ e ∈ ([(.getDigests tr, 0x01), (.getCertificate tr 0 off len, 0x02), (.challenge tr 0, 0x03), (.getMeasurements tr ix sign, 0x60)] :
          List (Instr × Nat)), ((conn s tr).phase = 3 → Completes e.1 s fun t => say1 t e.2 ∧ t.mg = s.mg ∧ still t) ∧
            ((conn s tr).phase ≠ 3 → Completes e.1 s fun t => say1 t 0x7F ∧ t.mg = s.mg ∧ still t)) ∧
      ((conn s tr).phase = 3 → (∀ both, ((s.mg.sess.filter fun x => x.tr = tr).length < 2 → Completes (.keyExchange tr 0 both) s fun t =>
          t.mg.sess = s.mg.sess ++ [{ id := freeSess s, tr := tr, wantBoth := both }] ∧ say1 t 0x64 ∧ still t) ∧
          (2 ≤ (s.mg.sess.filter fun x => x.tr = tr).length → Completes (.keyExchange tr 0 both) s fun t => t.mg = s.mg ∧ say1 t 0x7F)) ∧
        (∀ h b, (conn s tr).chunkIn = none → Completes (.chunkSend tr h 0 b false) s fun t =>
          (conn t tr).chunkIn = some (h, 1, b) ∧ say1 t 0x05 ∧ still t) ∧
        (∀ h, (conn s tr).chunkOut = none → Completes (.chunkGet tr h 0) s fun t =>
          (conn t tr).chunkOut = some (h, 1, 0) ∧ say1 t 0x06 ∧ still t)) ∧
      (∀ i x, sessOf s i = some x → x.tr = tr →
        (x.est = false →
          (∀ root, Completes (.finish i true root) s fun t => say1 t 0x65 ∧ still t ∧
            sessOf t i = some { x with est := true, both := x.wantBoth, root := if x.wantBoth then root else 0 }) ∧
          (∀ root, Completes (.finish i false root) s fun t => sessOf t i = none ∧ (t.blk pgSec).errStat.getLsbD 1 = true)) ∧
        (x.est = true →
          Completes (.heartbeat i) s (fun t => say1 t 0x68 ∧ t.mg = s.mg ∧ still t) ∧
          Completes (.keyUpdate i) s (fun t => say1 t 0x69 ∧ sessOf t i = some { x with updates := x.updates + 1 } ∧ still t) ∧
          Completes (.endSession i) s (fun t => say1 t 0x6C ∧ sessOf t i = none ∧ still t))))

/-- In an established session of the operator KEY_LOAD loads an empty slot with the next generation, leaves a loaded one, and loads nothing while TAMPER_N is asserted; KEY_CLEAR empties a loaded slot with the next generation and leaves an empty one; ZEROISE, a tamper assertion and the armed SEC_ZEROISE sequence empty every tenant and model-owner slot, each generation rising, empty slots too. A session that is not the operator's changes no key and no operator and sets key_refused; SET_OPERATOR is accepted while none is provisioned. Arming lasts 1 ms; any other code disarms. An IDE key is programmed, started and stopped in a DOE session. -/
def Obligations.KeysAndZeroise : Prop :=
  ∀ (s : State) (ag i : Nat) (x : SpSess), ampUp s = true → sessOf s i = some x → x.est = true →
    let nx (k : KeySlot) : KeySlot := { key := none, gen := nextGen k.gen }
    let same (t : State) : Prop := t.mem = s.mem ∧ t.cores = s.cores ∧ t.serv = s.serv
    let all (t : State) : Prop := (∀ n, n < 4096 → keySlot t 1 n = nx (keySlot s 1 n)) ∧ (∀ n, n < 64 → keySlot t 2 n = nx (keySlot s 2 n)) ∧
      keySlot t 3 0 = keySlot s 3 0 ∧ (t.blk pgSec).errStat.getLsbD 3 = true
    (∀ root, (operatorOk s x = true ∨ (x.both = true ∧ s.mg.operator = none) → Completes (.setOperator i root) s fun t =>
        t.mg.operator = some root ∧ same t) ∧
      (operatorOk s x = false → x.both = false ∨ s.mg.operator ≠ none → Completes (.setOperator i root) s fun t =>
        t.mg.operator = s.mg.operator ∧ same t ∧ (t.blk pgSec).errStat.getLsbD 2 = true)) ∧
    (∀ kind slot key, slotExists kind slot = true → operatorOk s x = true →
      (s.mg.tamper = false → (keySlot s kind slot).key = none → Completes (.keyLoad i kind slot key) s fun t =>
        keySlot t kind slot = { key := some key, gen := nextGen (keySlot s kind slot).gen } ∧ t.mem.t1 = s.mem.t1 ∧ t.serv = s.serv ∧
        ∀ k n, k = 1 ∨ k = 2 → ¬ (k = kind ∧ n = slot) → keySlot t k n = keySlot s k n) ∧
      ((keySlot s kind slot).key ≠ none ∨ s.mg.tamper = true → Completes (.keyLoad i kind slot key) s same) ∧
      ((keySlot s kind slot).key ≠ none → Completes (.keyClear i kind slot) s fun t =>
        keySlot t kind slot = nx (keySlot s kind slot) ∧
        ∀ k n, k = 1 ∨ k = 2 → ¬ (k = kind ∧ n = slot) → keySlot t k n = keySlot s k n) ∧
      ((keySlot s kind slot).key = none → Completes (.keyClear i kind slot) s same)) ∧
    (operatorOk s x = true → Completes (.zeroise i) s all) ∧
    (operatorOk s x = false → ∀ kind slot key, ∀ c ∈ ([.keyLoad i kind slot key, .keyClear i kind slot, .zeroise i] : List Instr),
      Completes c s fun t => same t ∧ (t.blk pgSec).errStat.getLsbD 2 = true) ∧
    (s.mg.tamper = false → Completes .tamperAssert s fun t => all t ∧ t.mg.tamper = true ∧ (t.blk pgSec).errStat.getLsbD 4 = true) ∧
    (s.mg.tamper = true → Completes .tamperAssert s same) ∧
    (Completes .tamperRelease s fun t => t.mg.tamper = false ∧ same t) ∧
    (Accepts s ag pgSec 0x144 0x5A5A → Completes (.zeroiseArm ag) s fun t => t.mg.armedAt = some s.now ∧ same t) ∧
    (Accepts s ag pgSec 0x144 0xA5A5 →
      (armed s = true → Completes (.zeroiseRun ag) s fun t => all t ∧ t.mg.armedAt = none) ∧
      (armed s = false → Completes (.zeroiseRun ag) s fun t => same t ∧ t.mg.armedAt = none)) ∧
    (∀ v, v < 2 ^ 16 → v ≠ 0x5A5A → v ≠ 0xA5A5 → Accepts s ag pgSec 0x144 v → Completes (.zeroiseDisarm ag v) s fun t =>
      t.mg.armedAt = none ∧ same t) ∧
    (∀ t0, s.mg.armedAt = some t0 → (t0 + ms ≤ s.now → Completes .zeroiseArmExpire s fun t => t.mg.armedAt = none ∧ same t) ∧
      (s.now < t0 + ms → Makes .zeroiseArmExpire s s)) ∧
    (x.tr = 0 → ∀ cm key, let n := if cm then 1 else 0; let inForce (t : State) := if cm then t.host.ideCm else t.host.ideIo;
      Completes (.ideKm i cm 2 key) s (fun t => SMap.find t.mg.ideProg n = some key ∧ same t) ∧
      (∀ k, SMap.find s.mg.ideProg n = some k → Completes (.ideKm i cm 4 key) s fun t => inForce t = some k ∧ same t) ∧
      Completes (.ideKm i cm 5 key) s (fun t => inForce t = none ∧ same t))

/-! ### 18 Bring-up and reset, 19 the module's inputs; 17 replay -/

/-- A stage that is ready and finds nothing fatal gives way to the next, 5 to 6; a fatal finding of the stage, or its limit passed, gives stage 15 with the code, compute rails off. GLB_RESET by an agent that the coolant permits: stage 1, its kind and cause kept, partitions, cores, requests and locks gone, every tenant and owner key gone, cold with T1 zeroed and the AMP from ROM, warm with HDM of unchanged size kept. In STOPPED with the coolant out of bounds it is refused; from another agent than the AMP in DERATE or SHUTDOWN it is discarded. A cluster reset that is permitted switches its islands off; while a turn-on runs it waits; not permitted it is rejected. A tile reset does so for the tile and resets its fabric page. -/
def Obligations.BringupAndResets : Prop :=
  ∀ (s : State) (ag tile : Nat), tile < tiles →
    let n := stageNow s
    let busy := waferBusy s = true
    let failed (t : State) (c : Nat) : Prop := stageNow t = 15 ∧ t.fld pgGlob 0 0x100 16 16 = c ∧ t.fld pgPwrG 0 0x100 3 1 = 0 ∧
      t.fld pgPwrG 0 0x100 4 1 = 0 ∧ ∀ x, x < sites → (t.core x).on = false
    let wiped (t : State) (kind : Nat) : Prop := stageNow t = 1 ∧ t.fld pgGlob 0 0x144 0 2 = kind ∧
      t.fld pgGlob 0 0x144 2 3 = (if ag = agBmc then 2 else 1) ∧ t.parts = [] ∧ t.cores = [] ∧ t.serv.reqs = [] ∧ t.serv.rings = [] ∧
      t.led.kinds = s.led.kinds ∧ (∀ pg, (t.blk pg).locked = false) ∧
      (∀ k, k < 4096 → (keySlot t 1 k).key = none) ∧ (∀ k, k < 64 → (keySlot t 2 k).key = none)
    let hdm := s.fld pgGlob 0 0x108 0 9
    let warm := 1 + 0x7A5E * 2 ^ 16
    let cold := 2 + 0x7A5E * 2 ^ 16
    let rejected (t : State) : Prop := (t.blk pgGlob).errStat.getLsbD 31 = true ∧ t.parts = s.parts ∧ t.cores = s.cores ∧ t.serv.reqs = s.serv.reqs
    (∀ fs, fs.all foundOk = true → busy → stageReady s = true →
      ((∀ f ∈ fs, foundStage f = n → foundFatal f = none) → (n = 3 → s.mg.mainBad = false) → (n = 4 → s.host.flit256 = true) →
        Completes (.bringupStageDone fs) s fun t => stageNow t = n + 1 ∧ t.mg.stageAt = s.now) ∧
      (∀ f c, f ∈ fs → foundStage f = n → foundFatal f = some c → (∀ h ∈ fs, foundStage h = n → foundFatal h = none ∨ h = f) →
        Completes (.bringupStageDone fs) s fun t => failed t c)) ∧
    (busy → s.mg.stageAt + stageLimits.getD n 0 * sec < s.now → Completes .bringupStageTimeout s fun t => failed t 0x4080) ∧
    (s.now ≤ s.mg.stageAt + stageLimits.getD n 0 * sec → Completes .bringupStageTimeout s fun t => stageNow t = n ∧ t.cores = s.cores) ∧
    (coolState s ≠ 4 → coolState s ≤ 1 ∨ ag = agAmp →
      (Accepts s ag pgGlob 0x140 warm → Completes (.warmReset ag) s fun t => wiped t 1 ∧ t.mg.amp = s.mg.amp ∧
        (hdm = s.fld pgGlob 0 0x108 16 9 → s.mg.t1Lost = false → ∀ a, a < hdm * 2 ^ 30 →
          SMap.get t.mem.t1 0#8 a = SMap.get s.mem.t1 0#8 a)) ∧
      (Accepts s ag pgGlob 0x140 cold → Completes (.coldReset ag) s fun t => wiped t 2 ∧ t.mg.amp = .rom ∧ t.mem.t1 = [])) ∧
    (coolState s = 4 → coolGood s = false →
      (Accepts s ag pgGlob 0x140 warm → Completes (.warmReset ag) s fun t => t.fld pgGlob 0 0x144 6 1 = 1 ∧ t.parts = s.parts) ∧
      (Accepts s ag pgGlob 0x140 cold → Completes (.coldReset ag) s fun t => t.fld pgGlob 0 0x144 6 1 = 1 ∧ t.parts = s.parts)) ∧
    (ag ≠ agAmp → coolState s = 2 ∨ coolState s = 3 → (Accepts s ag pgGlob 0x140 warm → Completes (.warmReset ag) s rejected) ∧
      (Accepts s ag pgGlob 0x140 cold → Completes (.coldReset ag) s rejected)) ∧
    (∀ m, 0 < m → m < 512 → Accepts s ag (pgTile tile) 0x100 m →
      (tileResetOk ag tile m s = true → (s.tileP tile).seqs = [] → Completes (.clusterReset ag tile m) s fun t =>
        ∀ k ∈ clusterMask m, ∀ x ∈ clusterSites tile k, (t.core x).on = false ∧ ((s.core x).on = true → (t.core x).spad = [])) ∧
      (tileResetOk ag tile m s = true → (s.tileP tile).seqs ≠ [] → Completes (.clusterReset ag tile m) s fun t => t.cores = s.cores ∧
        (t.tileP tile).reset = some m ∧ t.fld (pgTile tile) 0 0x100 16 1 = 1) ∧
      (tileResetOk ag tile m s = false → Completes (.clusterReset ag tile m) s fun t => t.cores = s.cores ∧ t.pwr = s.pwr ∧
        (t.blk (pgTile tile)).errStat.getLsbD 31 = true)) ∧
    (Accepts s ag (pgTile tile) 0x100 512 → tileResetOk ag tile 512 s = true → (s.tileP tile).seqs = [] →
      Completes (.tileReset ag tile) s fun t => (t.blk (pgFab tile)).st = .reset ∧ ∀ x ∈ tileSites tile, (t.core x).on = false)

/-- A replay that nothing refuses runs with its target marked and the pages as before; one refused leaves replay and partitions as they were with its code in SVC_RP_STAT and replay_refused. An abort ends it with 0x4074, and once no step is left its end leaves code 0; the target is free either way. PERST# asserted takes the link down and closes every ring; released, the function is not ready for at most 100 ms. Loss of 12V_MAIN ends every partition and loses T1; of 12V_AUX gates every core with rail-off due; of PA_PG with rails on does so as a rail fault. Each input's return is noted and changes no core. -/
def Obligations.ReplayAndInputs : Prop :=
  ∀ (s : State) (ag : Nat),
    let p := s.fld pgReplay 0 0x100 0 4
    let q := s.fld pgReplay 0 0x100 4 4
    let c := replayCode s p q (s.regN pgReplay 0 0x104) (s.regN pgReplay 0 0x108)
    let gone (t : State) : Prop := t.rp.busy = false ∧ t.rp.steps = [] ∧ (t.part s.rp.tgt).replayOf = false ∧ t.fld pgReplay 0 0x120 0 2 = 2
    let gatedAll (t : State) : Prop := (∀ k, k < tiles → k ∈ t.pwr.railOff) ∧ ∀ x, x < sites → (t.core x).on = true → (t.core x).gated = true
    (Accepts s ag pgReplay 0x11C 1 →
      (c = 0 → Completes (.replayStart ag) s fun t => t.rp.busy = true ∧ t.rp.src = p ∧ t.rp.tgt = q ∧ (t.part q).replayOf = true ∧
        t.fld pgReplay 0 0x120 0 2 = 1 ∧ t.kv = s.kv ∧ t.cores = s.cores) ∧
      (c ≠ 0 → Completes (.replayStart ag) s fun t => t.rp = s.rp ∧ t.parts = s.parts ∧ t.kv = s.kv ∧
        t.fld pgReplay 0 0x120 16 16 = c ∧ (t.blk pgReplay).errStat.getLsbD 0 = true)) ∧
    (Accepts s ag pgReplay 0x11C 2 → (s.rp.busy = true → Completes (.replayAbort ag) s fun t => gone t ∧
        t.fld pgReplay 0 0x120 16 16 = 0x4074 ∧ (t.blk pgReplay).errStat.getLsbD 1 = true) ∧
      (s.rp.busy = false → Makes (.replayAbort ag) s s)) ∧
    (s.rp.busy = true → s.rp.steps = [] → rpWarm s = none → s.rp.flying = [] → Completes .replayDone s fun t => gone t ∧
      t.fld pgReplay 0 0x120 16 16 = 0) ∧
    (s.rp.steps ≠ [] → Makes .replayDone s s) ∧
    (s.mg.perst = false → Completes (.perstAssert true) s fun t => t.mg.perst = true ∧ t.host.trained = false ∧ t.serv.rings = []) ∧
    (s.mg.perst = true → Completes (.perstAssert false) s fun t => t.mg.perst = false ∧ t.host.crsUntil = s.now + 100 * ms ∧
      t.cores = s.cores ∧ t.serv = s.serv) ∧
    Makes (.perstAssert s.mg.perst) s s ∧
    (s.mg.mainBad = false → s.mg.auxBad = false → Completes .main12vFail s fun t => t.mg.mainBad = true ∧ t.mg.t1Lost = true ∧
      (∀ k ∈ livePartsList s, partLost t k = true) ∧
      (s.mg.stwDead = true ∨ s.fld pgFault 0 0x100 1 1 = 0 → t.mg.stwDead = true ∧ ∀ k, k < 48 → (t.blk (pgEmc k)).st = .faulted)) ∧
    (Completes .main12vRestore s fun t => t.mg.mainBad = false ∧ t.cores = s.cores ∧ t.mg.t1Lost = s.mg.t1Lost) ∧
    (s.fld pgPwrG 0 0x100 3 1 = 1 ∨ s.fld pgPwrG 0 0x100 4 1 = 1 → Completes .paPgLoss s fun t => t.mg.paPg = false ∧ gatedAll t ∧
      (t.blk pgPwrG).errStat.getLsbD 1 = true ∧ (t.mg.crash.head?).map (·.cause) = some 5) ∧
    (s.fld pgPwrG 0 0x100 3 1 = 0 → s.fld pgPwrG 0 0x100 4 1 = 0 → Completes .paPgLoss s fun t => t.mg.paPg = false ∧ t.cores = s.cores ∧
      t.pwr = s.pwr) ∧
    (Completes .paPgRestore s fun t => t.mg.paPg = true ∧ t.cores = s.cores ∧ t.pwr = s.pwr) ∧
    (s.mg.auxBad = false → Completes .aux12vFail s fun t => t.mg.auxBad = true ∧ gatedAll t ∧ t.parts = s.parts)
end

