-- ==== Sys2Proof/Laws/Maps.lean ====
section
/-! SUPPORT. Sparse maps and memories: what a read gives after a write, that every write keeps the canonical form. -/

namespace Sys2Proof

variable {α : Type}

theorem SMap.find_put (m : SMap α) (i j : Nat) (x : α) :
    SMap.find (SMap.put m i x) j = if j = i then some x else SMap.find m j := by
  induction m with
  | nil => simp [SMap.put, SMap.find]
  | cons e r ih =>
    obtain ⟨k, v⟩ := e
    simp only [SMap.put]
    split
    · simp only [SMap.find]
    · split
      · subst k; simp only [SMap.find]; split <;> simp_all
      · simp only [SMap.find, ih]; split <;> split <;> simp_all

theorem SMap.find_del (m : SMap α) (i j : Nat) :
    SMap.find (SMap.del m i) j = if j = i then none else SMap.find m j := by
  induction m with
  | nil => simp [SMap.del, SMap.find]
  | cons e r ih =>
    obtain ⟨k, v⟩ := e
    simp only [SMap.del]
    split
    · subst k; rw [ih]; simp only [SMap.find]; split <;> simp_all
    · simp only [SMap.find, ih]; split <;> split <;> simp_all

theorem SMap.get_set [DecidableEq α] (m : SMap α) (d : α) (i j : Nat) (x : α) :
    SMap.get (SMap.set m d i x) d j = if j = i then x else SMap.get m d j := by
  unfold SMap.get SMap.set
  split
  · rw [SMap.find_del]; split <;> simp_all
  · rw [SMap.find_put]; split <;> simp_all

@[simp] theorem SMap.get_set_same [DecidableEq α] (m : SMap α) (d : α) (i : Nat) (x : α) :
    SMap.get (SMap.set m d i x) d i = x := by simp [SMap.get_set]

theorem SMap.get_set_other [DecidableEq α] (m : SMap α) (d : α) {i j : Nat} (x : α) (h : j ≠ i) :
    SMap.get (SMap.set m d i x) d j = SMap.get m d j := by simp [SMap.get_set, h]

theorem SMap.get_upd [DecidableEq α] (m : SMap α) (d : α) (i j : Nat) (f : α → α) :
    SMap.get (SMap.upd m d i f) d j = if j = i then f (SMap.get m d i) else SMap.get m d j := SMap.get_set ..

theorem SMap.find_mod (m : SMap α) (i j : Nat) (f : α → α) :
    SMap.find (SMap.mod m i f) j = if j = i then (SMap.find m i).map f else SMap.find m j := by
  induction m with
  | nil => simp [SMap.mod, SMap.find]
  | cons e r ih =>
    obtain ⟨k, v⟩ := e
    simp only [SMap.mod]
    split
    · subst k; simp only [SMap.find]; split <;> simp_all
    · simp only [SMap.find, ih]; split <;> split <;> simp_all

@[simp] theorem SMap.find_nil (j : Nat) : SMap.find ([] : SMap α) j = none := rfl
@[simp] theorem SMap.get_nil (d : α) (j : Nat) : SMap.get ([] : SMap α) d j = d := rfl

/-! ### The canonical form -/

theorem SMap.above_mono {m : SMap α} {a b : Nat} (h : a ≤ b) (hb : SMap.above b m = true) : SMap.above a m = true := by
  cases m with
  | nil => rfl
  | cons e r =>
    obtain ⟨k, v⟩ := e
    simp only [SMap.above, Bool.and_eq_true, decide_eq_true_eq] at *
    exact ⟨by omega, hb.2⟩

theorem SMap.above_put {m : SMap α} {lo i : Nat} (x : α) (hi : lo < i) (h : SMap.above lo m = true) :
    SMap.above lo (SMap.put m i x) = true := by
  induction m generalizing lo with
  | nil => simp [SMap.put, SMap.above, hi]
  | cons e r ih =>
    obtain ⟨k, v⟩ := e
    simp only [SMap.above, Bool.and_eq_true, decide_eq_true_eq] at h
    simp only [SMap.put]
    split
    · simp [SMap.above, hi, h.2, ‹i < k›]
    · split
      · subst k; simpa [SMap.above, hi] using h.2
      · have : k < i := by omega
        simp [SMap.above, h.1, ih this h.2]

theorem SMap.sorted_put {m : SMap α} (i : Nat) (x : α) (h : SMap.sorted m = true) : SMap.sorted (SMap.put m i x) = true := by
  cases m with
  | nil => rfl
  | cons e r =>
    obtain ⟨k, v⟩ := e
    simp only [SMap.sorted] at h
    simp only [SMap.put]
    split
    · simp [SMap.sorted, SMap.above, h, ‹i < k›]
    · split
      · subst k; simpa [SMap.sorted] using h
      · have : k < i := by omega
        simpa [SMap.sorted] using SMap.above_put x this h

theorem SMap.above_del {m : SMap α} {lo : Nat} (i : Nat) (h : SMap.above lo m = true) :
    SMap.above lo (SMap.del m i) = true := by
  induction m generalizing lo with
  | nil => rfl
  | cons e r ih =>
    obtain ⟨k, v⟩ := e
    simp only [SMap.above, Bool.and_eq_true, decide_eq_true_eq] at h
    simp only [SMap.del]
    split
    · exact ih (SMap.above_mono (Nat.le_of_lt h.1) h.2)
    · simp [SMap.above, h.1, ih h.2]

theorem SMap.sorted_del {m : SMap α} (i : Nat) (h : SMap.sorted m = true) : SMap.sorted (SMap.del m i) = true := by
  induction m with
  | nil => rfl
  | cons e r ih =>
    obtain ⟨k, v⟩ := e
    simp only [SMap.sorted] at h
    simp only [SMap.del]
    split
    · cases r with
      | nil => rfl
      | cons f r' =>
        obtain ⟨k', v'⟩ := f
        simp only [SMap.above, Bool.and_eq_true, decide_eq_true_eq] at h
        exact ih (by simpa [SMap.sorted] using h.2)
    · simpa [SMap.sorted] using SMap.above_del i h

theorem SMap.mem_put {m : SMap α} {i : Nat} {x : α} {e : Nat × α} (h : e ∈ SMap.put m i x) : e.2 = x ∨ e ∈ m := by
  induction m with
  | nil => simp [SMap.put] at h; simp [h]
  | cons f r ih =>
    obtain ⟨k, v⟩ := f
    simp only [SMap.put] at h
    split at h
    · simp at h; rcases h with h | h | h <;> simp [h]
    · split at h
      · simp at h; rcases h with h | h <;> simp [h]
      · simp at h; rcases h with h | h
        · simp [h]
        · rcases ih h with h | h <;> simp [h]

theorem SMap.mem_del {m : SMap α} {i : Nat} {e : Nat × α} (h : e ∈ SMap.del m i) : e ∈ m := by
  induction m with
  | nil => simp [SMap.del] at h
  | cons f r ih =>
    obtain ⟨k, v⟩ := f
    simp only [SMap.del] at h
    split at h
    · simp [ih h]
    · simp at h; rcases h with h | h
      · simp [h]
      · simp [ih h]

theorem SMap.canon_set [DecidableEq α] {m : SMap α} {d : α} (i : Nat) (x : α) (h : SMap.canon m d = true) :
    SMap.canon (SMap.set m d i x) d = true := by
  simp only [SMap.canon, Bool.and_eq_true, List.all_eq_true, Bool.not_eq_true', decide_eq_false_iff_not] at *
  unfold SMap.set
  split
  · exact ⟨SMap.sorted_del i h.1, fun e he => h.2 e (SMap.mem_del he)⟩
  · refine ⟨SMap.sorted_put i x h.1, fun e he => ?_⟩
    rcases SMap.mem_put he with h1 | h1
    · rw [h1]; assumption
    · exact h.2 e h1

theorem SMap.canon_upd [DecidableEq α] {m : SMap α} {d : α} (i : Nat) (f : α → α) (h : SMap.canon m d = true) :
    SMap.canon (SMap.upd m d i f) d = true := SMap.canon_set i _ h

/-! ### Memory -/

/-- A byte after a write: the bytes written at their addresses, every other one as before. -/
theorem Mem.get_write (m : Mem) (a : Nat) (b : List Byte) (k : Nat) :
    SMap.get (Mem.write m a b) 0#8 k = if a ≤ k ∧ k < a + b.length then b.getD (k - a) 0 else SMap.get m 0#8 k := by
  induction b generalizing m a with
  | nil => rw [if_neg (by rw [List.length_nil]; omega)]; rfl
  | cons x r ih =>
    rw [Mem.write, ih, SMap.get_set]
    by_cases h : k = a
    · subst h; rw [if_neg (by omega), if_pos rfl, if_pos (by simp)]; simp
    · by_cases h2 : a + 1 ≤ k ∧ k < a + 1 + r.length
      · have : k - a = (k - (a + 1)) + 1 := by omega
        rw [if_pos h2, if_pos (by simp; omega), this]; simp
      · rw [if_neg h2, if_neg h, if_neg (by simp; omega)]

/-- Every write keeps the canonical form. -/
theorem Mem.wf_write {m : Mem} (a : Nat) (b : List Byte) (h : Mem.wf m = true) : Mem.wf (Mem.write m a b) = true := by
  induction b generalizing m a with
  | nil => exact h
  | cons x r ih => exact ih (a + 1) (SMap.canon_set a x h)

theorem Mem.wf_nil : Mem.wf [] = true := rfl

@[simp] theorem Mem.length_read (m : Mem) (a n : Nat) : (Mem.read m a n).length = n := by simp [Mem.read]

/-- What a write stored reads back. -/
theorem Mem.read_write (m : Mem) (a : Nat) (b : List Byte) : Mem.read (Mem.write m a b) a b.length = b := by
  apply List.ext_getElem
  · simp
  · intro i h1 h2
    simp only [Mem.read, List.getElem_map, List.getElem_range, Mem.get_write]
    rw [if_pos (by omega)]
    simp [List.getD, h2]

/-- A read beside the bytes that a write stores. -/
theorem Mem.read_write_apart (m : Mem) (a : Nat) (b : List Byte) (c n : Nat) (h : c + n ≤ a ∨ a + b.length ≤ c) :
    Mem.read (Mem.write m a b) c n = Mem.read m c n := by
  apply List.ext_getElem
  · simp
  · intro i h1 h2
    simp only [Mem.length_read] at h1
    simp only [Mem.read, List.getElem_map, List.getElem_range, Mem.get_write]
    rw [if_neg (by omega)]

@[simp] theorem length_leBytes (n v : Nat) : (leBytes n v).length = n := by
  induction n generalizing v with
  | zero => rfl
  | succ n ih => simp [leBytes, ih]

/-- A number's bytes give the number back. -/
theorem leNat_leBytes (n v : Nat) : leNat (leBytes n v) = v % 256 ^ n := by
  induction n generalizing v with
  | zero => simp [leBytes, leNat, Nat.mod_one]
  | succ n ih =>
    simp only [leBytes, leNat, ih, BitVec.toNat_ofNat]
    rw [show 256 ^ (n + 1) = 256 * 256 ^ n from by rw [Nat.pow_succ, Nat.mul_comm]]
    exact Nat.mod_mul.symm

end Sys2Proof
end

