-- ==== Sys2Proof/Laws/State.lean ====
section
/-! SUPPORT. What each named update of the state leaves alone: one lemma per field, true by unfolding once. -/

namespace Sys2Proof.Machine

variable (s : State)

/-! ### State.withPending -/

@[simp] theorem withPending_now (q : List Instr) : (s.withPending q).now = s.now := rfl
@[simp] theorem withPending_regs (q : List Instr) : (s.withPending q).regs = s.regs := rfl
@[simp] theorem withPending_shadow (q : List Instr) : (s.withPending q).shadow = s.shadow := rfl
@[simp] theorem withPending_blocks (q : List Instr) : (s.withPending q).blocks = s.blocks := rfl
@[simp] theorem withPending_stage64 (q : List Instr) : (s.withPending q).stage64 = s.stage64 := rfl
@[simp] theorem withPending_snap64 (q : List Instr) : (s.withPending q).snap64 = s.snap64 := rfl
@[simp] theorem withPending_paths (q : List Instr) : (s.withPending q).paths = s.paths := rfl
@[simp] theorem withPending_host (q : List Instr) : (s.withPending q).host = s.host := rfl
@[simp] theorem withPending_mbx (q : List Instr) : (s.withPending q).mbx = s.mbx := rfl
@[simp] theorem withPending_serv (q : List Instr) : (s.withPending q).serv = s.serv := rfl
@[simp] theorem withPending_parts (q : List Instr) : (s.withPending q).parts = s.parts := rfl
@[simp] theorem withPending_spec (q : List Instr) : (s.withPending q).spec = s.spec := rfl
@[simp] theorem withPending_kv (q : List Instr) : (s.withPending q).kv = s.kv := rfl
@[simp] theorem withPending_we (q : List Instr) : (s.withPending q).we = s.we := rfl
@[simp] theorem withPending_mem (q : List Instr) : (s.withPending q).mem = s.mem := rfl
@[simp] theorem withPending_cores (q : List Instr) : (s.withPending q).cores = s.cores := rfl
@[simp] theorem withPending_fab (q : List Instr) : (s.withPending q).fab = s.fab := rfl
@[simp] theorem withPending_mlk (q : List Instr) : (s.withPending q).mlk = s.mlk := rfl
@[simp] theorem withPending_pwr (q : List Instr) : (s.withPending q).pwr = s.pwr := rfl
@[simp] theorem withPending_fr (q : List Instr) : (s.withPending q).fr = s.fr := rfl
@[simp] theorem withPending_rp (q : List Instr) : (s.withPending q).rp = s.rp := rfl
@[simp] theorem withPending_led (q : List Instr) : (s.withPending q).led = s.led := rfl
@[simp] theorem withPending_mg (q : List Instr) : (s.withPending q).mg = s.mg := rfl
@[simp] theorem withPending_b0 (q : List Instr) : (s.withPending q).b0 = s.b0 := rfl
@[simp] theorem withPending_out (q : List Instr) : (s.withPending q).out = s.out := rfl
@[simp] theorem withPending_free (q : List Instr) : (s.withPending q).free = s.free := rfl
@[simp] theorem withPending_fresh (q : List Instr) : (s.withPending q).fresh = s.fresh := rfl
@[simp] theorem withPending_pending (q : List Instr) : (s.withPending q).pending = q := rfl

/-! ### State.idle -/

@[simp] theorem idle_now : (s.idle).now = (s.now + 40) % 2 ^ 64 := rfl
@[simp] theorem idle_regs : (s.idle).regs = s.regs := rfl
@[simp] theorem idle_shadow : (s.idle).shadow = s.shadow := rfl
@[simp] theorem idle_blocks : (s.idle).blocks = s.blocks := rfl
@[simp] theorem idle_stage64 : (s.idle).stage64 = s.stage64 := rfl
@[simp] theorem idle_snap64 : (s.idle).snap64 = s.snap64 := rfl
@[simp] theorem idle_paths : (s.idle).paths = s.paths := rfl
@[simp] theorem idle_host : (s.idle).host = s.host := rfl
@[simp] theorem idle_mbx : (s.idle).mbx = s.mbx := rfl
@[simp] theorem idle_serv : (s.idle).serv = s.serv := rfl
@[simp] theorem idle_parts : (s.idle).parts = s.parts := rfl
@[simp] theorem idle_spec : (s.idle).spec = s.spec := rfl
@[simp] theorem idle_kv : (s.idle).kv = s.kv := rfl
@[simp] theorem idle_we : (s.idle).we = s.we := rfl
@[simp] theorem idle_mem : (s.idle).mem = s.mem := rfl
@[simp] theorem idle_cores : (s.idle).cores = s.cores := rfl
@[simp] theorem idle_fab : (s.idle).fab = s.fab := rfl
@[simp] theorem idle_mlk : (s.idle).mlk = s.mlk := rfl
@[simp] theorem idle_pwr : (s.idle).pwr = s.pwr := rfl
@[simp] theorem idle_fr : (s.idle).fr = s.fr := rfl
@[simp] theorem idle_rp : (s.idle).rp = s.rp := rfl
@[simp] theorem idle_led : (s.idle).led = s.led := rfl
@[simp] theorem idle_mg : (s.idle).mg = s.mg := rfl
@[simp] theorem idle_b0 : (s.idle).b0 = s.b0 := rfl
@[simp] theorem idle_out : (s.idle).out = s.out := rfl
@[simp] theorem idle_free : (s.idle).free = s.free := rfl
@[simp] theorem idle_fresh : (s.idle).fresh = s.fresh := rfl
@[simp] theorem idle_pending : (s.idle).pending = s.pending := rfl

/-! ### State.emit -/

@[simp] theorem emit_now (o : Out) : (s.emit o).now = s.now := rfl
@[simp] theorem emit_regs (o : Out) : (s.emit o).regs = s.regs := rfl
@[simp] theorem emit_shadow (o : Out) : (s.emit o).shadow = s.shadow := rfl
@[simp] theorem emit_blocks (o : Out) : (s.emit o).blocks = s.blocks := rfl
@[simp] theorem emit_stage64 (o : Out) : (s.emit o).stage64 = s.stage64 := rfl
@[simp] theorem emit_snap64 (o : Out) : (s.emit o).snap64 = s.snap64 := rfl
@[simp] theorem emit_paths (o : Out) : (s.emit o).paths = s.paths := rfl
@[simp] theorem emit_host (o : Out) : (s.emit o).host = s.host := rfl
@[simp] theorem emit_mbx (o : Out) : (s.emit o).mbx = s.mbx := rfl
@[simp] theorem emit_serv (o : Out) : (s.emit o).serv = s.serv := rfl
@[simp] theorem emit_parts (o : Out) : (s.emit o).parts = s.parts := rfl
@[simp] theorem emit_spec (o : Out) : (s.emit o).spec = s.spec := rfl
@[simp] theorem emit_kv (o : Out) : (s.emit o).kv = s.kv := rfl
@[simp] theorem emit_we (o : Out) : (s.emit o).we = s.we := rfl
@[simp] theorem emit_mem (o : Out) : (s.emit o).mem = s.mem := rfl
@[simp] theorem emit_cores (o : Out) : (s.emit o).cores = s.cores := rfl
@[simp] theorem emit_fab (o : Out) : (s.emit o).fab = s.fab := rfl
@[simp] theorem emit_mlk (o : Out) : (s.emit o).mlk = s.mlk := rfl
@[simp] theorem emit_pwr (o : Out) : (s.emit o).pwr = s.pwr := rfl
@[simp] theorem emit_fr (o : Out) : (s.emit o).fr = s.fr := rfl
@[simp] theorem emit_rp (o : Out) : (s.emit o).rp = s.rp := rfl
@[simp] theorem emit_led (o : Out) : (s.emit o).led = s.led := rfl
@[simp] theorem emit_mg (o : Out) : (s.emit o).mg = s.mg := rfl
@[simp] theorem emit_b0 (o : Out) : (s.emit o).b0 = s.b0 := rfl
@[simp] theorem emit_out (o : Out) : (s.emit o).out = s.out ++ [o] := rfl
@[simp] theorem emit_free (o : Out) : (s.emit o).free = s.free := rfl
@[simp] theorem emit_fresh (o : Out) : (s.emit o).fresh = s.fresh := rfl
@[simp] theorem emit_pending (o : Out) : (s.emit o).pending = s.pending := rfl

/-! ### State.draw -/

@[simp] theorem draw_now : (s.draw).now = s.now := rfl
@[simp] theorem draw_regs : (s.draw).regs = s.regs := rfl
@[simp] theorem draw_shadow : (s.draw).shadow = s.shadow := rfl
@[simp] theorem draw_blocks : (s.draw).blocks = s.blocks := rfl
@[simp] theorem draw_stage64 : (s.draw).stage64 = s.stage64 := rfl
@[simp] theorem draw_snap64 : (s.draw).snap64 = s.snap64 := rfl
@[simp] theorem draw_paths : (s.draw).paths = s.paths := rfl
@[simp] theorem draw_host : (s.draw).host = s.host := rfl
@[simp] theorem draw_mbx : (s.draw).mbx = s.mbx := rfl
@[simp] theorem draw_serv : (s.draw).serv = s.serv := rfl
@[simp] theorem draw_parts : (s.draw).parts = s.parts := rfl
@[simp] theorem draw_spec : (s.draw).spec = s.spec := rfl
@[simp] theorem draw_kv : (s.draw).kv = s.kv := rfl
@[simp] theorem draw_we : (s.draw).we = s.we := rfl
@[simp] theorem draw_mem : (s.draw).mem = s.mem := rfl
@[simp] theorem draw_cores : (s.draw).cores = s.cores := rfl
@[simp] theorem draw_fab : (s.draw).fab = s.fab := rfl
@[simp] theorem draw_mlk : (s.draw).mlk = s.mlk := rfl
@[simp] theorem draw_pwr : (s.draw).pwr = s.pwr := rfl
@[simp] theorem draw_fr : (s.draw).fr = s.fr := rfl
@[simp] theorem draw_rp : (s.draw).rp = s.rp := rfl
@[simp] theorem draw_led : (s.draw).led = s.led := rfl
@[simp] theorem draw_mg : (s.draw).mg = s.mg := rfl
@[simp] theorem draw_b0 : (s.draw).b0 = s.b0 := rfl
@[simp] theorem draw_out : (s.draw).out = s.out := rfl
@[simp] theorem draw_free : (s.draw).free = s.free + 1 := rfl
@[simp] theorem draw_fresh : (s.draw).fresh = s.fresh := rfl
@[simp] theorem draw_pending : (s.draw).pending = s.pending := rfl

/-! ### State.setRegK -/

@[simp] theorem setRegK_now (k : Nat) (v : W32) : (s.setRegK k v).now = s.now := rfl
@[simp] theorem setRegK_shadow (k : Nat) (v : W32) : (s.setRegK k v).shadow = s.shadow := rfl
@[simp] theorem setRegK_blocks (k : Nat) (v : W32) : (s.setRegK k v).blocks = s.blocks := rfl
@[simp] theorem setRegK_stage64 (k : Nat) (v : W32) : (s.setRegK k v).stage64 = s.stage64 := rfl
@[simp] theorem setRegK_snap64 (k : Nat) (v : W32) : (s.setRegK k v).snap64 = s.snap64 := rfl
@[simp] theorem setRegK_paths (k : Nat) (v : W32) : (s.setRegK k v).paths = s.paths := rfl
@[simp] theorem setRegK_host (k : Nat) (v : W32) : (s.setRegK k v).host = s.host := rfl
@[simp] theorem setRegK_mbx (k : Nat) (v : W32) : (s.setRegK k v).mbx = s.mbx := rfl
@[simp] theorem setRegK_serv (k : Nat) (v : W32) : (s.setRegK k v).serv = s.serv := rfl
@[simp] theorem setRegK_parts (k : Nat) (v : W32) : (s.setRegK k v).parts = s.parts := rfl
@[simp] theorem setRegK_spec (k : Nat) (v : W32) : (s.setRegK k v).spec = s.spec := rfl
@[simp] theorem setRegK_kv (k : Nat) (v : W32) : (s.setRegK k v).kv = s.kv := rfl
@[simp] theorem setRegK_we (k : Nat) (v : W32) : (s.setRegK k v).we = s.we := rfl
@[simp] theorem setRegK_mem (k : Nat) (v : W32) : (s.setRegK k v).mem = s.mem := rfl
@[simp] theorem setRegK_cores (k : Nat) (v : W32) : (s.setRegK k v).cores = s.cores := rfl
@[simp] theorem setRegK_fab (k : Nat) (v : W32) : (s.setRegK k v).fab = s.fab := rfl
@[simp] theorem setRegK_mlk (k : Nat) (v : W32) : (s.setRegK k v).mlk = s.mlk := rfl
@[simp] theorem setRegK_pwr (k : Nat) (v : W32) : (s.setRegK k v).pwr = s.pwr := rfl
@[simp] theorem setRegK_fr (k : Nat) (v : W32) : (s.setRegK k v).fr = s.fr := rfl
@[simp] theorem setRegK_rp (k : Nat) (v : W32) : (s.setRegK k v).rp = s.rp := rfl
@[simp] theorem setRegK_led (k : Nat) (v : W32) : (s.setRegK k v).led = s.led := rfl
@[simp] theorem setRegK_mg (k : Nat) (v : W32) : (s.setRegK k v).mg = s.mg := rfl
@[simp] theorem setRegK_b0 (k : Nat) (v : W32) : (s.setRegK k v).b0 = s.b0 := rfl
@[simp] theorem setRegK_out (k : Nat) (v : W32) : (s.setRegK k v).out = s.out := rfl
@[simp] theorem setRegK_free (k : Nat) (v : W32) : (s.setRegK k v).free = s.free := rfl
@[simp] theorem setRegK_fresh (k : Nat) (v : W32) : (s.setRegK k v).fresh = s.fresh := rfl
@[simp] theorem setRegK_pending (k : Nat) (v : W32) : (s.setRegK k v).pending = s.pending := rfl

/-! ### State.setReg -/

@[simp] theorem setReg_now (pg u off : Nat) (v : W32) : (s.setReg pg u off v).now = s.now := setRegK_now s (regKey pg u off) v
@[simp] theorem setReg_shadow (pg u off : Nat) (v : W32) : (s.setReg pg u off v).shadow = s.shadow := setRegK_shadow s (regKey pg u off) v
@[simp] theorem setReg_blocks (pg u off : Nat) (v : W32) : (s.setReg pg u off v).blocks = s.blocks := setRegK_blocks s (regKey pg u off) v
@[simp] theorem setReg_stage64 (pg u off : Nat) (v : W32) : (s.setReg pg u off v).stage64 = s.stage64 := setRegK_stage64 s (regKey pg u off) v
@[simp] theorem setReg_snap64 (pg u off : Nat) (v : W32) : (s.setReg pg u off v).snap64 = s.snap64 := setRegK_snap64 s (regKey pg u off) v
@[simp] theorem setReg_paths (pg u off : Nat) (v : W32) : (s.setReg pg u off v).paths = s.paths := setRegK_paths s (regKey pg u off) v
@[simp] theorem setReg_host (pg u off : Nat) (v : W32) : (s.setReg pg u off v).host = s.host := setRegK_host s (regKey pg u off) v
@[simp] theorem setReg_mbx (pg u off : Nat) (v : W32) : (s.setReg pg u off v).mbx = s.mbx := setRegK_mbx s (regKey pg u off) v
@[simp] theorem setReg_serv (pg u off : Nat) (v : W32) : (s.setReg pg u off v).serv = s.serv := setRegK_serv s (regKey pg u off) v
@[simp] theorem setReg_parts (pg u off : Nat) (v : W32) : (s.setReg pg u off v).parts = s.parts := setRegK_parts s (regKey pg u off) v
@[simp] theorem setReg_spec (pg u off : Nat) (v : W32) : (s.setReg pg u off v).spec = s.spec := setRegK_spec s (regKey pg u off) v
@[simp] theorem setReg_kv (pg u off : Nat) (v : W32) : (s.setReg pg u off v).kv = s.kv := setRegK_kv s (regKey pg u off) v
@[simp] theorem setReg_we (pg u off : Nat) (v : W32) : (s.setReg pg u off v).we = s.we := setRegK_we s (regKey pg u off) v
@[simp] theorem setReg_mem (pg u off : Nat) (v : W32) : (s.setReg pg u off v).mem = s.mem := setRegK_mem s (regKey pg u off) v
@[simp] theorem setReg_cores (pg u off : Nat) (v : W32) : (s.setReg pg u off v).cores = s.cores := setRegK_cores s (regKey pg u off) v
@[simp] theorem setReg_fab (pg u off : Nat) (v : W32) : (s.setReg pg u off v).fab = s.fab := setRegK_fab s (regKey pg u off) v
@[simp] theorem setReg_mlk (pg u off : Nat) (v : W32) : (s.setReg pg u off v).mlk = s.mlk := setRegK_mlk s (regKey pg u off) v
@[simp] theorem setReg_pwr (pg u off : Nat) (v : W32) : (s.setReg pg u off v).pwr = s.pwr := setRegK_pwr s (regKey pg u off) v
@[simp] theorem setReg_fr (pg u off : Nat) (v : W32) : (s.setReg pg u off v).fr = s.fr := setRegK_fr s (regKey pg u off) v
@[simp] theorem setReg_rp (pg u off : Nat) (v : W32) : (s.setReg pg u off v).rp = s.rp := setRegK_rp s (regKey pg u off) v
@[simp] theorem setReg_led (pg u off : Nat) (v : W32) : (s.setReg pg u off v).led = s.led := setRegK_led s (regKey pg u off) v
@[simp] theorem setReg_mg (pg u off : Nat) (v : W32) : (s.setReg pg u off v).mg = s.mg := setRegK_mg s (regKey pg u off) v
@[simp] theorem setReg_b0 (pg u off : Nat) (v : W32) : (s.setReg pg u off v).b0 = s.b0 := setRegK_b0 s (regKey pg u off) v
@[simp] theorem setReg_out (pg u off : Nat) (v : W32) : (s.setReg pg u off v).out = s.out := setRegK_out s (regKey pg u off) v
@[simp] theorem setReg_free (pg u off : Nat) (v : W32) : (s.setReg pg u off v).free = s.free := setRegK_free s (regKey pg u off) v
@[simp] theorem setReg_fresh (pg u off : Nat) (v : W32) : (s.setReg pg u off v).fresh = s.fresh := setRegK_fresh s (regKey pg u off) v
@[simp] theorem setReg_pending (pg u off : Nat) (v : W32) : (s.setReg pg u off v).pending = s.pending := setRegK_pending s (regKey pg u off) v

/-! ### State.setRegN -/

@[simp] theorem setRegN_now (pg u off v : Nat) : (s.setRegN pg u off v).now = s.now := setReg_now s pg u off _
@[simp] theorem setRegN_shadow (pg u off v : Nat) : (s.setRegN pg u off v).shadow = s.shadow := setReg_shadow s pg u off _
@[simp] theorem setRegN_blocks (pg u off v : Nat) : (s.setRegN pg u off v).blocks = s.blocks := setReg_blocks s pg u off _
@[simp] theorem setRegN_stage64 (pg u off v : Nat) : (s.setRegN pg u off v).stage64 = s.stage64 := setReg_stage64 s pg u off _
@[simp] theorem setRegN_snap64 (pg u off v : Nat) : (s.setRegN pg u off v).snap64 = s.snap64 := setReg_snap64 s pg u off _
@[simp] theorem setRegN_paths (pg u off v : Nat) : (s.setRegN pg u off v).paths = s.paths := setReg_paths s pg u off _
@[simp] theorem setRegN_host (pg u off v : Nat) : (s.setRegN pg u off v).host = s.host := setReg_host s pg u off _
@[simp] theorem setRegN_mbx (pg u off v : Nat) : (s.setRegN pg u off v).mbx = s.mbx := setReg_mbx s pg u off _
@[simp] theorem setRegN_serv (pg u off v : Nat) : (s.setRegN pg u off v).serv = s.serv := setReg_serv s pg u off _
@[simp] theorem setRegN_parts (pg u off v : Nat) : (s.setRegN pg u off v).parts = s.parts := setReg_parts s pg u off _
@[simp] theorem setRegN_spec (pg u off v : Nat) : (s.setRegN pg u off v).spec = s.spec := setReg_spec s pg u off _
@[simp] theorem setRegN_kv (pg u off v : Nat) : (s.setRegN pg u off v).kv = s.kv := setReg_kv s pg u off _
@[simp] theorem setRegN_we (pg u off v : Nat) : (s.setRegN pg u off v).we = s.we := setReg_we s pg u off _
@[simp] theorem setRegN_mem (pg u off v : Nat) : (s.setRegN pg u off v).mem = s.mem := setReg_mem s pg u off _
@[simp] theorem setRegN_cores (pg u off v : Nat) : (s.setRegN pg u off v).cores = s.cores := setReg_cores s pg u off _
@[simp] theorem setRegN_fab (pg u off v : Nat) : (s.setRegN pg u off v).fab = s.fab := setReg_fab s pg u off _
@[simp] theorem setRegN_mlk (pg u off v : Nat) : (s.setRegN pg u off v).mlk = s.mlk := setReg_mlk s pg u off _
@[simp] theorem setRegN_pwr (pg u off v : Nat) : (s.setRegN pg u off v).pwr = s.pwr := setReg_pwr s pg u off _
@[simp] theorem setRegN_fr (pg u off v : Nat) : (s.setRegN pg u off v).fr = s.fr := setReg_fr s pg u off _
@[simp] theorem setRegN_rp (pg u off v : Nat) : (s.setRegN pg u off v).rp = s.rp := setReg_rp s pg u off _
@[simp] theorem setRegN_led (pg u off v : Nat) : (s.setRegN pg u off v).led = s.led := setReg_led s pg u off _
@[simp] theorem setRegN_mg (pg u off v : Nat) : (s.setRegN pg u off v).mg = s.mg := setReg_mg s pg u off _
@[simp] theorem setRegN_b0 (pg u off v : Nat) : (s.setRegN pg u off v).b0 = s.b0 := setReg_b0 s pg u off _
@[simp] theorem setRegN_out (pg u off v : Nat) : (s.setRegN pg u off v).out = s.out := setReg_out s pg u off _
@[simp] theorem setRegN_free (pg u off v : Nat) : (s.setRegN pg u off v).free = s.free := setReg_free s pg u off _
@[simp] theorem setRegN_fresh (pg u off v : Nat) : (s.setRegN pg u off v).fresh = s.fresh := setReg_fresh s pg u off _
@[simp] theorem setRegN_pending (pg u off v : Nat) : (s.setRegN pg u off v).pending = s.pending := setReg_pending s pg u off _

/-! ### State.setFld -/

@[simp] theorem setFld_now (pg u off lo w x : Nat) : (s.setFld pg u off lo w x).now = s.now := setRegN_now s pg u off _
@[simp] theorem setFld_shadow (pg u off lo w x : Nat) : (s.setFld pg u off lo w x).shadow = s.shadow := setRegN_shadow s pg u off _
@[simp] theorem setFld_blocks (pg u off lo w x : Nat) : (s.setFld pg u off lo w x).blocks = s.blocks := setRegN_blocks s pg u off _
@[simp] theorem setFld_stage64 (pg u off lo w x : Nat) : (s.setFld pg u off lo w x).stage64 = s.stage64 := setRegN_stage64 s pg u off _
@[simp] theorem setFld_snap64 (pg u off lo w x : Nat) : (s.setFld pg u off lo w x).snap64 = s.snap64 := setRegN_snap64 s pg u off _
@[simp] theorem setFld_paths (pg u off lo w x : Nat) : (s.setFld pg u off lo w x).paths = s.paths := setRegN_paths s pg u off _
@[simp] theorem setFld_host (pg u off lo w x : Nat) : (s.setFld pg u off lo w x).host = s.host := setRegN_host s pg u off _
@[simp] theorem setFld_mbx (pg u off lo w x : Nat) : (s.setFld pg u off lo w x).mbx = s.mbx := setRegN_mbx s pg u off _
@[simp] theorem setFld_serv (pg u off lo w x : Nat) : (s.setFld pg u off lo w x).serv = s.serv := setRegN_serv s pg u off _
@[simp] theorem setFld_parts (pg u off lo w x : Nat) : (s.setFld pg u off lo w x).parts = s.parts := setRegN_parts s pg u off _
@[simp] theorem setFld_spec (pg u off lo w x : Nat) : (s.setFld pg u off lo w x).spec = s.spec := setRegN_spec s pg u off _
@[simp] theorem setFld_kv (pg u off lo w x : Nat) : (s.setFld pg u off lo w x).kv = s.kv := setRegN_kv s pg u off _
@[simp] theorem setFld_we (pg u off lo w x : Nat) : (s.setFld pg u off lo w x).we = s.we := setRegN_we s pg u off _
@[simp] theorem setFld_mem (pg u off lo w x : Nat) : (s.setFld pg u off lo w x).mem = s.mem := setRegN_mem s pg u off _
@[simp] theorem setFld_cores (pg u off lo w x : Nat) : (s.setFld pg u off lo w x).cores = s.cores := setRegN_cores s pg u off _
@[simp] theorem setFld_fab (pg u off lo w x : Nat) : (s.setFld pg u off lo w x).fab = s.fab := setRegN_fab s pg u off _
@[simp] theorem setFld_mlk (pg u off lo w x : Nat) : (s.setFld pg u off lo w x).mlk = s.mlk := setRegN_mlk s pg u off _
@[simp] theorem setFld_pwr (pg u off lo w x : Nat) : (s.setFld pg u off lo w x).pwr = s.pwr := setRegN_pwr s pg u off _
@[simp] theorem setFld_fr (pg u off lo w x : Nat) : (s.setFld pg u off lo w x).fr = s.fr := setRegN_fr s pg u off _
@[simp] theorem setFld_rp (pg u off lo w x : Nat) : (s.setFld pg u off lo w x).rp = s.rp := setRegN_rp s pg u off _
@[simp] theorem setFld_led (pg u off lo w x : Nat) : (s.setFld pg u off lo w x).led = s.led := setRegN_led s pg u off _
@[simp] theorem setFld_mg (pg u off lo w x : Nat) : (s.setFld pg u off lo w x).mg = s.mg := setRegN_mg s pg u off _
@[simp] theorem setFld_b0 (pg u off lo w x : Nat) : (s.setFld pg u off lo w x).b0 = s.b0 := setRegN_b0 s pg u off _
@[simp] theorem setFld_out (pg u off lo w x : Nat) : (s.setFld pg u off lo w x).out = s.out := setRegN_out s pg u off _
@[simp] theorem setFld_free (pg u off lo w x : Nat) : (s.setFld pg u off lo w x).free = s.free := setRegN_free s pg u off _
@[simp] theorem setFld_fresh (pg u off lo w x : Nat) : (s.setFld pg u off lo w x).fresh = s.fresh := setRegN_fresh s pg u off _
@[simp] theorem setFld_pending (pg u off lo w x : Nat) : (s.setFld pg u off lo w x).pending = s.pending := setRegN_pending s pg u off _

/-! ### State.setReg64 -/

@[simp] theorem setReg64_now (pg u off v : Nat) : (s.setReg64 pg u off v).now = s.now := (setRegN_now _ pg u (off + 4) _).trans (setRegN_now s pg u off v)
@[simp] theorem setReg64_shadow (pg u off v : Nat) : (s.setReg64 pg u off v).shadow = s.shadow := (setRegN_shadow _ pg u (off + 4) _).trans (setRegN_shadow s pg u off v)
@[simp] theorem setReg64_blocks (pg u off v : Nat) : (s.setReg64 pg u off v).blocks = s.blocks := (setRegN_blocks _ pg u (off + 4) _).trans (setRegN_blocks s pg u off v)
@[simp] theorem setReg64_stage64 (pg u off v : Nat) : (s.setReg64 pg u off v).stage64 = s.stage64 := (setRegN_stage64 _ pg u (off + 4) _).trans (setRegN_stage64 s pg u off v)
@[simp] theorem setReg64_snap64 (pg u off v : Nat) : (s.setReg64 pg u off v).snap64 = s.snap64 := (setRegN_snap64 _ pg u (off + 4) _).trans (setRegN_snap64 s pg u off v)
@[simp] theorem setReg64_paths (pg u off v : Nat) : (s.setReg64 pg u off v).paths = s.paths := (setRegN_paths _ pg u (off + 4) _).trans (setRegN_paths s pg u off v)
@[simp] theorem setReg64_host (pg u off v : Nat) : (s.setReg64 pg u off v).host = s.host := (setRegN_host _ pg u (off + 4) _).trans (setRegN_host s pg u off v)
@[simp] theorem setReg64_mbx (pg u off v : Nat) : (s.setReg64 pg u off v).mbx = s.mbx := (setRegN_mbx _ pg u (off + 4) _).trans (setRegN_mbx s pg u off v)
@[simp] theorem setReg64_serv (pg u off v : Nat) : (s.setReg64 pg u off v).serv = s.serv := (setRegN_serv _ pg u (off + 4) _).trans (setRegN_serv s pg u off v)
@[simp] theorem setReg64_parts (pg u off v : Nat) : (s.setReg64 pg u off v).parts = s.parts := (setRegN_parts _ pg u (off + 4) _).trans (setRegN_parts s pg u off v)
@[simp] theorem setReg64_spec (pg u off v : Nat) : (s.setReg64 pg u off v).spec = s.spec := (setRegN_spec _ pg u (off + 4) _).trans (setRegN_spec s pg u off v)
@[simp] theorem setReg64_kv (pg u off v : Nat) : (s.setReg64 pg u off v).kv = s.kv := (setRegN_kv _ pg u (off + 4) _).trans (setRegN_kv s pg u off v)
@[simp] theorem setReg64_we (pg u off v : Nat) : (s.setReg64 pg u off v).we = s.we := (setRegN_we _ pg u (off + 4) _).trans (setRegN_we s pg u off v)
@[simp] theorem setReg64_mem (pg u off v : Nat) : (s.setReg64 pg u off v).mem = s.mem := (setRegN_mem _ pg u (off + 4) _).trans (setRegN_mem s pg u off v)
@[simp] theorem setReg64_cores (pg u off v : Nat) : (s.setReg64 pg u off v).cores = s.cores := (setRegN_cores _ pg u (off + 4) _).trans (setRegN_cores s pg u off v)
@[simp] theorem setReg64_fab (pg u off v : Nat) : (s.setReg64 pg u off v).fab = s.fab := (setRegN_fab _ pg u (off + 4) _).trans (setRegN_fab s pg u off v)
@[simp] theorem setReg64_mlk (pg u off v : Nat) : (s.setReg64 pg u off v).mlk = s.mlk := (setRegN_mlk _ pg u (off + 4) _).trans (setRegN_mlk s pg u off v)
@[simp] theorem setReg64_pwr (pg u off v : Nat) : (s.setReg64 pg u off v).pwr = s.pwr := (setRegN_pwr _ pg u (off + 4) _).trans (setRegN_pwr s pg u off v)
@[simp] theorem setReg64_fr (pg u off v : Nat) : (s.setReg64 pg u off v).fr = s.fr := (setRegN_fr _ pg u (off + 4) _).trans (setRegN_fr s pg u off v)
@[simp] theorem setReg64_rp (pg u off v : Nat) : (s.setReg64 pg u off v).rp = s.rp := (setRegN_rp _ pg u (off + 4) _).trans (setRegN_rp s pg u off v)
@[simp] theorem setReg64_led (pg u off v : Nat) : (s.setReg64 pg u off v).led = s.led := (setRegN_led _ pg u (off + 4) _).trans (setRegN_led s pg u off v)
@[simp] theorem setReg64_mg (pg u off v : Nat) : (s.setReg64 pg u off v).mg = s.mg := (setRegN_mg _ pg u (off + 4) _).trans (setRegN_mg s pg u off v)
@[simp] theorem setReg64_b0 (pg u off v : Nat) : (s.setReg64 pg u off v).b0 = s.b0 := (setRegN_b0 _ pg u (off + 4) _).trans (setRegN_b0 s pg u off v)
@[simp] theorem setReg64_out (pg u off v : Nat) : (s.setReg64 pg u off v).out = s.out := (setRegN_out _ pg u (off + 4) _).trans (setRegN_out s pg u off v)
@[simp] theorem setReg64_free (pg u off v : Nat) : (s.setReg64 pg u off v).free = s.free := (setRegN_free _ pg u (off + 4) _).trans (setRegN_free s pg u off v)
@[simp] theorem setReg64_fresh (pg u off v : Nat) : (s.setReg64 pg u off v).fresh = s.fresh := (setRegN_fresh _ pg u (off + 4) _).trans (setRegN_fresh s pg u off v)
@[simp] theorem setReg64_pending (pg u off v : Nat) : (s.setReg64 pg u off v).pending = s.pending := (setRegN_pending _ pg u (off + 4) _).trans (setRegN_pending s pg u off v)

/-! ### State.bump -/

@[simp] theorem bump_now (pg u off n : Nat) : (s.bump pg u off n).now = s.now := setReg_now s pg u off _
@[simp] theorem bump_shadow (pg u off n : Nat) : (s.bump pg u off n).shadow = s.shadow := setReg_shadow s pg u off _
@[simp] theorem bump_blocks (pg u off n : Nat) : (s.bump pg u off n).blocks = s.blocks := setReg_blocks s pg u off _
@[simp] theorem bump_stage64 (pg u off n : Nat) : (s.bump pg u off n).stage64 = s.stage64 := setReg_stage64 s pg u off _
@[simp] theorem bump_snap64 (pg u off n : Nat) : (s.bump pg u off n).snap64 = s.snap64 := setReg_snap64 s pg u off _
@[simp] theorem bump_paths (pg u off n : Nat) : (s.bump pg u off n).paths = s.paths := setReg_paths s pg u off _
@[simp] theorem bump_host (pg u off n : Nat) : (s.bump pg u off n).host = s.host := setReg_host s pg u off _
@[simp] theorem bump_mbx (pg u off n : Nat) : (s.bump pg u off n).mbx = s.mbx := setReg_mbx s pg u off _
@[simp] theorem bump_serv (pg u off n : Nat) : (s.bump pg u off n).serv = s.serv := setReg_serv s pg u off _
@[simp] theorem bump_parts (pg u off n : Nat) : (s.bump pg u off n).parts = s.parts := setReg_parts s pg u off _
@[simp] theorem bump_spec (pg u off n : Nat) : (s.bump pg u off n).spec = s.spec := setReg_spec s pg u off _
@[simp] theorem bump_kv (pg u off n : Nat) : (s.bump pg u off n).kv = s.kv := setReg_kv s pg u off _
@[simp] theorem bump_we (pg u off n : Nat) : (s.bump pg u off n).we = s.we := setReg_we s pg u off _
@[simp] theorem bump_mem (pg u off n : Nat) : (s.bump pg u off n).mem = s.mem := setReg_mem s pg u off _
@[simp] theorem bump_cores (pg u off n : Nat) : (s.bump pg u off n).cores = s.cores := setReg_cores s pg u off _
@[simp] theorem bump_fab (pg u off n : Nat) : (s.bump pg u off n).fab = s.fab := setReg_fab s pg u off _
@[simp] theorem bump_mlk (pg u off n : Nat) : (s.bump pg u off n).mlk = s.mlk := setReg_mlk s pg u off _
@[simp] theorem bump_pwr (pg u off n : Nat) : (s.bump pg u off n).pwr = s.pwr := setReg_pwr s pg u off _
@[simp] theorem bump_fr (pg u off n : Nat) : (s.bump pg u off n).fr = s.fr := setReg_fr s pg u off _
@[simp] theorem bump_rp (pg u off n : Nat) : (s.bump pg u off n).rp = s.rp := setReg_rp s pg u off _
@[simp] theorem bump_led (pg u off n : Nat) : (s.bump pg u off n).led = s.led := setReg_led s pg u off _
@[simp] theorem bump_mg (pg u off n : Nat) : (s.bump pg u off n).mg = s.mg := setReg_mg s pg u off _
@[simp] theorem bump_b0 (pg u off n : Nat) : (s.bump pg u off n).b0 = s.b0 := setReg_b0 s pg u off _
@[simp] theorem bump_out (pg u off n : Nat) : (s.bump pg u off n).out = s.out := setReg_out s pg u off _
@[simp] theorem bump_free (pg u off n : Nat) : (s.bump pg u off n).free = s.free := setReg_free s pg u off _
@[simp] theorem bump_fresh (pg u off n : Nat) : (s.bump pg u off n).fresh = s.fresh := setReg_fresh s pg u off _
@[simp] theorem bump_pending (pg u off n : Nat) : (s.bump pg u off n).pending = s.pending := setReg_pending s pg u off _

/-! ### State.setBlk -/

@[simp] theorem setBlk_now (pg : Nat) (b : Block) : (s.setBlk pg b).now = s.now := rfl
@[simp] theorem setBlk_regs (pg : Nat) (b : Block) : (s.setBlk pg b).regs = s.regs := rfl
@[simp] theorem setBlk_shadow (pg : Nat) (b : Block) : (s.setBlk pg b).shadow = s.shadow := rfl
@[simp] theorem setBlk_stage64 (pg : Nat) (b : Block) : (s.setBlk pg b).stage64 = s.stage64 := rfl
@[simp] theorem setBlk_snap64 (pg : Nat) (b : Block) : (s.setBlk pg b).snap64 = s.snap64 := rfl
@[simp] theorem setBlk_paths (pg : Nat) (b : Block) : (s.setBlk pg b).paths = s.paths := rfl
@[simp] theorem setBlk_host (pg : Nat) (b : Block) : (s.setBlk pg b).host = s.host := rfl
@[simp] theorem setBlk_mbx (pg : Nat) (b : Block) : (s.setBlk pg b).mbx = s.mbx := rfl
@[simp] theorem setBlk_serv (pg : Nat) (b : Block) : (s.setBlk pg b).serv = s.serv := rfl
@[simp] theorem setBlk_parts (pg : Nat) (b : Block) : (s.setBlk pg b).parts = s.parts := rfl
@[simp] theorem setBlk_spec (pg : Nat) (b : Block) : (s.setBlk pg b).spec = s.spec := rfl
@[simp] theorem setBlk_kv (pg : Nat) (b : Block) : (s.setBlk pg b).kv = s.kv := rfl
@[simp] theorem setBlk_we (pg : Nat) (b : Block) : (s.setBlk pg b).we = s.we := rfl
@[simp] theorem setBlk_mem (pg : Nat) (b : Block) : (s.setBlk pg b).mem = s.mem := rfl
@[simp] theorem setBlk_cores (pg : Nat) (b : Block) : (s.setBlk pg b).cores = s.cores := rfl
@[simp] theorem setBlk_fab (pg : Nat) (b : Block) : (s.setBlk pg b).fab = s.fab := rfl
@[simp] theorem setBlk_mlk (pg : Nat) (b : Block) : (s.setBlk pg b).mlk = s.mlk := rfl
@[simp] theorem setBlk_pwr (pg : Nat) (b : Block) : (s.setBlk pg b).pwr = s.pwr := rfl
@[simp] theorem setBlk_fr (pg : Nat) (b : Block) : (s.setBlk pg b).fr = s.fr := rfl
@[simp] theorem setBlk_rp (pg : Nat) (b : Block) : (s.setBlk pg b).rp = s.rp := rfl
@[simp] theorem setBlk_led (pg : Nat) (b : Block) : (s.setBlk pg b).led = s.led := rfl
@[simp] theorem setBlk_mg (pg : Nat) (b : Block) : (s.setBlk pg b).mg = s.mg := rfl
@[simp] theorem setBlk_b0 (pg : Nat) (b : Block) : (s.setBlk pg b).b0 = s.b0 := rfl
@[simp] theorem setBlk_out (pg : Nat) (b : Block) : (s.setBlk pg b).out = s.out := rfl
@[simp] theorem setBlk_free (pg : Nat) (b : Block) : (s.setBlk pg b).free = s.free := rfl
@[simp] theorem setBlk_fresh (pg : Nat) (b : Block) : (s.setBlk pg b).fresh = s.fresh := rfl
@[simp] theorem setBlk_pending (pg : Nat) (b : Block) : (s.setBlk pg b).pending = s.pending := rfl

/-! ### State.modBlk -/

@[simp] theorem modBlk_now (pg : Nat) (f : Block → Block) : (s.modBlk pg f).now = s.now := rfl
@[simp] theorem modBlk_regs (pg : Nat) (f : Block → Block) : (s.modBlk pg f).regs = s.regs := rfl
@[simp] theorem modBlk_shadow (pg : Nat) (f : Block → Block) : (s.modBlk pg f).shadow = s.shadow := rfl
@[simp] theorem modBlk_stage64 (pg : Nat) (f : Block → Block) : (s.modBlk pg f).stage64 = s.stage64 := rfl
@[simp] theorem modBlk_snap64 (pg : Nat) (f : Block → Block) : (s.modBlk pg f).snap64 = s.snap64 := rfl
@[simp] theorem modBlk_paths (pg : Nat) (f : Block → Block) : (s.modBlk pg f).paths = s.paths := rfl
@[simp] theorem modBlk_host (pg : Nat) (f : Block → Block) : (s.modBlk pg f).host = s.host := rfl
@[simp] theorem modBlk_mbx (pg : Nat) (f : Block → Block) : (s.modBlk pg f).mbx = s.mbx := rfl
@[simp] theorem modBlk_serv (pg : Nat) (f : Block → Block) : (s.modBlk pg f).serv = s.serv := rfl
@[simp] theorem modBlk_parts (pg : Nat) (f : Block → Block) : (s.modBlk pg f).parts = s.parts := rfl
@[simp] theorem modBlk_spec (pg : Nat) (f : Block → Block) : (s.modBlk pg f).spec = s.spec := rfl
@[simp] theorem modBlk_kv (pg : Nat) (f : Block → Block) : (s.modBlk pg f).kv = s.kv := rfl
@[simp] theorem modBlk_we (pg : Nat) (f : Block → Block) : (s.modBlk pg f).we = s.we := rfl
@[simp] theorem modBlk_mem (pg : Nat) (f : Block → Block) : (s.modBlk pg f).mem = s.mem := rfl
@[simp] theorem modBlk_cores (pg : Nat) (f : Block → Block) : (s.modBlk pg f).cores = s.cores := rfl
@[simp] theorem modBlk_fab (pg : Nat) (f : Block → Block) : (s.modBlk pg f).fab = s.fab := rfl
@[simp] theorem modBlk_mlk (pg : Nat) (f : Block → Block) : (s.modBlk pg f).mlk = s.mlk := rfl
@[simp] theorem modBlk_pwr (pg : Nat) (f : Block → Block) : (s.modBlk pg f).pwr = s.pwr := rfl
@[simp] theorem modBlk_fr (pg : Nat) (f : Block → Block) : (s.modBlk pg f).fr = s.fr := rfl
@[simp] theorem modBlk_rp (pg : Nat) (f : Block → Block) : (s.modBlk pg f).rp = s.rp := rfl
@[simp] theorem modBlk_led (pg : Nat) (f : Block → Block) : (s.modBlk pg f).led = s.led := rfl
@[simp] theorem modBlk_mg (pg : Nat) (f : Block → Block) : (s.modBlk pg f).mg = s.mg := rfl
@[simp] theorem modBlk_b0 (pg : Nat) (f : Block → Block) : (s.modBlk pg f).b0 = s.b0 := rfl
@[simp] theorem modBlk_out (pg : Nat) (f : Block → Block) : (s.modBlk pg f).out = s.out := rfl
@[simp] theorem modBlk_free (pg : Nat) (f : Block → Block) : (s.modBlk pg f).free = s.free := rfl
@[simp] theorem modBlk_fresh (pg : Nat) (f : Block → Block) : (s.modBlk pg f).fresh = s.fresh := rfl
@[simp] theorem modBlk_pending (pg : Nat) (f : Block → Block) : (s.modBlk pg f).pending = s.pending := rfl

/-! ### State.reject -/

@[simp] theorem reject_now (pg off cls r : Nat) : (s.reject pg off cls r).now = s.now := rfl
@[simp] theorem reject_regs (pg off cls r : Nat) : (s.reject pg off cls r).regs = s.regs := rfl
@[simp] theorem reject_shadow (pg off cls r : Nat) : (s.reject pg off cls r).shadow = s.shadow := rfl
@[simp] theorem reject_stage64 (pg off cls r : Nat) : (s.reject pg off cls r).stage64 = s.stage64 := rfl
@[simp] theorem reject_snap64 (pg off cls r : Nat) : (s.reject pg off cls r).snap64 = s.snap64 := rfl
@[simp] theorem reject_paths (pg off cls r : Nat) : (s.reject pg off cls r).paths = s.paths := rfl
@[simp] theorem reject_host (pg off cls r : Nat) : (s.reject pg off cls r).host = s.host := rfl
@[simp] theorem reject_mbx (pg off cls r : Nat) : (s.reject pg off cls r).mbx = s.mbx := rfl
@[simp] theorem reject_serv (pg off cls r : Nat) : (s.reject pg off cls r).serv = s.serv := rfl
@[simp] theorem reject_parts (pg off cls r : Nat) : (s.reject pg off cls r).parts = s.parts := rfl
@[simp] theorem reject_spec (pg off cls r : Nat) : (s.reject pg off cls r).spec = s.spec := rfl
@[simp] theorem reject_kv (pg off cls r : Nat) : (s.reject pg off cls r).kv = s.kv := rfl
@[simp] theorem reject_we (pg off cls r : Nat) : (s.reject pg off cls r).we = s.we := rfl
@[simp] theorem reject_mem (pg off cls r : Nat) : (s.reject pg off cls r).mem = s.mem := rfl
@[simp] theorem reject_cores (pg off cls r : Nat) : (s.reject pg off cls r).cores = s.cores := rfl
@[simp] theorem reject_fab (pg off cls r : Nat) : (s.reject pg off cls r).fab = s.fab := rfl
@[simp] theorem reject_mlk (pg off cls r : Nat) : (s.reject pg off cls r).mlk = s.mlk := rfl
@[simp] theorem reject_pwr (pg off cls r : Nat) : (s.reject pg off cls r).pwr = s.pwr := rfl
@[simp] theorem reject_fr (pg off cls r : Nat) : (s.reject pg off cls r).fr = s.fr := rfl
@[simp] theorem reject_rp (pg off cls r : Nat) : (s.reject pg off cls r).rp = s.rp := rfl
@[simp] theorem reject_led (pg off cls r : Nat) : (s.reject pg off cls r).led = s.led := rfl
@[simp] theorem reject_mg (pg off cls r : Nat) : (s.reject pg off cls r).mg = s.mg := rfl
@[simp] theorem reject_b0 (pg off cls r : Nat) : (s.reject pg off cls r).b0 = s.b0 := rfl
@[simp] theorem reject_out (pg off cls r : Nat) : (s.reject pg off cls r).out = s.out := rfl
@[simp] theorem reject_free (pg off cls r : Nat) : (s.reject pg off cls r).free = s.free := rfl
@[simp] theorem reject_fresh (pg off cls r : Nat) : (s.reject pg off cls r).fresh = s.fresh := rfl
@[simp] theorem reject_pending (pg off cls r : Nat) : (s.reject pg off cls r).pending = s.pending := rfl

/-! ### State.offerTo -/

@[simp] theorem offerTo_now (p : Nat) (e : Event) : (s.offerTo p e).now = s.now := rfl
@[simp] theorem offerTo_regs (p : Nat) (e : Event) : (s.offerTo p e).regs = s.regs := rfl
@[simp] theorem offerTo_shadow (p : Nat) (e : Event) : (s.offerTo p e).shadow = s.shadow := rfl
@[simp] theorem offerTo_blocks (p : Nat) (e : Event) : (s.offerTo p e).blocks = s.blocks := rfl
@[simp] theorem offerTo_stage64 (p : Nat) (e : Event) : (s.offerTo p e).stage64 = s.stage64 := rfl
@[simp] theorem offerTo_snap64 (p : Nat) (e : Event) : (s.offerTo p e).snap64 = s.snap64 := rfl
@[simp] theorem offerTo_host (p : Nat) (e : Event) : (s.offerTo p e).host = s.host := rfl
@[simp] theorem offerTo_mbx (p : Nat) (e : Event) : (s.offerTo p e).mbx = s.mbx := rfl
@[simp] theorem offerTo_serv (p : Nat) (e : Event) : (s.offerTo p e).serv = s.serv := rfl
@[simp] theorem offerTo_parts (p : Nat) (e : Event) : (s.offerTo p e).parts = s.parts := rfl
@[simp] theorem offerTo_spec (p : Nat) (e : Event) : (s.offerTo p e).spec = s.spec := rfl
@[simp] theorem offerTo_kv (p : Nat) (e : Event) : (s.offerTo p e).kv = s.kv := rfl
@[simp] theorem offerTo_we (p : Nat) (e : Event) : (s.offerTo p e).we = s.we := rfl
@[simp] theorem offerTo_mem (p : Nat) (e : Event) : (s.offerTo p e).mem = s.mem := rfl
@[simp] theorem offerTo_cores (p : Nat) (e : Event) : (s.offerTo p e).cores = s.cores := rfl
@[simp] theorem offerTo_fab (p : Nat) (e : Event) : (s.offerTo p e).fab = s.fab := rfl
@[simp] theorem offerTo_mlk (p : Nat) (e : Event) : (s.offerTo p e).mlk = s.mlk := rfl
@[simp] theorem offerTo_pwr (p : Nat) (e : Event) : (s.offerTo p e).pwr = s.pwr := rfl
@[simp] theorem offerTo_fr (p : Nat) (e : Event) : (s.offerTo p e).fr = s.fr := rfl
@[simp] theorem offerTo_rp (p : Nat) (e : Event) : (s.offerTo p e).rp = s.rp := rfl
@[simp] theorem offerTo_led (p : Nat) (e : Event) : (s.offerTo p e).led = s.led := rfl
@[simp] theorem offerTo_mg (p : Nat) (e : Event) : (s.offerTo p e).mg = s.mg := rfl
@[simp] theorem offerTo_b0 (p : Nat) (e : Event) : (s.offerTo p e).b0 = s.b0 := rfl
@[simp] theorem offerTo_out (p : Nat) (e : Event) : (s.offerTo p e).out = s.out := rfl
@[simp] theorem offerTo_free (p : Nat) (e : Event) : (s.offerTo p e).free = s.free := rfl
@[simp] theorem offerTo_fresh (p : Nat) (e : Event) : (s.offerTo p e).fresh = s.fresh := rfl
@[simp] theorem offerTo_pending (p : Nat) (e : Event) : (s.offerTo p e).pending = s.pending := rfl

end Sys2Proof.Machine
end

