-- ==== Sys2Proof/Laws/Registers.lean ====
section
/-! SUPPORT. What a register word, a field and a block header read as after a write, and how register keys differ. -/

namespace Sys2Proof.Machine

variable (s : State)

theorem regKey_page {pg u off : Nat} (h : u * 2 ^ 12 + off < 2 ^ 20) : regKey pg u off / 2 ^ 20 = pg := by
  unfold regKey; omega

theorem regKey_inj {pg u off off' : Nat} : regKey pg u off = regKey pg u off' ↔ off = off' := by
  unfold regKey; omega

theorem regKey_page_ne {p q u v o o' : Nat} (h : p ≠ q) (h1 : u * 2 ^ 12 + o < 2 ^ 20) (h2 : v * 2 ^ 12 + o' < 2 ^ 20) :
    regKey p u o ≠ regKey q v o' := by
  unfold regKey; omega

theorem regK_setRegK (k j : Nat) (v : W32) : (s.setRegK k v).regK j = if j = k then v else s.regK j := by
  unfold State.regK State.setRegK
  by_cases h : j = k
  · subst h; simp
  · simp only [if_neg h]; unfold SMap.get SMap.set
    split
    · rw [SMap.find_del, if_neg h]
    · rw [SMap.find_put, if_neg h]

@[simp] theorem reg_setReg_same (pg u off : Nat) (v : W32) : (s.setReg pg u off v).reg pg u off = v := by
  simp [State.reg, State.setReg, regK_setRegK]

theorem reg_setReg (pg u off p w o : Nat) (v : W32) :
    (s.setReg pg u off v).reg p w o = if regKey p w o = regKey pg u off then v else s.reg p w o := by
  simp only [State.reg, State.setReg, regK_setRegK]

theorem reg_setReg_off (pg u off o : Nat) (v : W32) (h : o ≠ off) : (s.setReg pg u off v).reg pg u o = s.reg pg u o := by
  rw [reg_setReg, if_neg (by rw [regKey_inj]; exact h)]

@[simp] theorem regN_setRegN_same (pg u off v : Nat) : (s.setRegN pg u off v).regN pg u off = v % 2 ^ 32 := by
  simp [State.regN, State.setRegN]

theorem reg_setRegN_off (pg u off o v : Nat) (h : o ≠ off) : (s.setRegN pg u off v).reg pg u o = s.reg pg u o :=
  reg_setReg_off s pg u off o _ h

theorem bitsOf_lt (v lo w : Nat) : bitsOf v lo w < 2 ^ w := Nat.mod_lt _ (Nat.two_pow_pos w)

/-- A bit of `v` with a field replaced. -/
theorem putBits_eq (v lo w x : Nat) :
    putBits v lo w x = v / 2 ^ (lo + w) * 2 ^ (lo + w) + x % 2 ^ w * 2 ^ lo + v % 2 ^ lo := by
  unfold putBits bitsOf
  rw [Nat.shiftRight_eq_div_pow]
  have h1 : v = v / 2 ^ lo * 2 ^ lo + v % 2 ^ lo := by rw [Nat.mul_comm]; exact (Nat.div_add_mod v (2 ^ lo)).symm
  have h2 : v / 2 ^ lo = v / 2 ^ (lo + w) * 2 ^ w + v / 2 ^ lo % 2 ^ w := by
    rw [Nat.pow_add, ← Nat.div_div_eq_div_mul, Nat.mul_comm]; exact (Nat.div_add_mod _ _).symm
  have h3 : v / 2 ^ lo * 2 ^ lo = v / 2 ^ (lo + w) * 2 ^ (lo + w) + v / 2 ^ lo % 2 ^ w * 2 ^ lo := by
    conv => lhs; rw [h2]
    rw [Nat.add_mul, Nat.mul_assoc, ← Nat.pow_add, Nat.add_comm w lo]
  omega

/-- The field that was written reads as what was written to it. -/
@[simp] theorem bitsOf_putBits_same (v lo w x : Nat) : bitsOf (putBits v lo w x) lo w = x % 2 ^ w := by
  have hp : 0 < 2 ^ lo := Nat.two_pow_pos lo
  have hl : v % 2 ^ lo < 2 ^ lo := Nat.mod_lt _ hp
  have h : putBits v lo w x = 2 ^ lo * (v / 2 ^ (lo + w) * 2 ^ w + x % 2 ^ w) + v % 2 ^ lo := by
    rw [putBits_eq, Nat.pow_add, Nat.mul_add]
    generalize v / (2 ^ lo * 2 ^ w) = a, x % 2 ^ w = y, 2 ^ lo = p, 2 ^ w = q
    ac_rfl
  unfold bitsOf
  rw [Nat.shiftRight_eq_div_pow, h, Nat.mul_add_div hp, Nat.div_eq_of_lt hl, Nat.add_zero, Nat.add_comm, Nat.add_mul_mod_self_right,
    Nat.mod_mod]

theorem fld_setFld_same (pg u off lo w x : Nat) (h : lo + w ≤ 32) :
    (s.setFld pg u off lo w x).fld pg u off lo w = x % 2 ^ w := by
  unfold State.fld State.setFld
  rw [regN_setRegN_same, Nat.mod_eq_of_lt, bitsOf_putBits_same]
  have hv : s.regN pg u off < 2 ^ 32 := (s.reg pg u off).isLt
  have hl : s.regN pg u off % 2 ^ lo < 2 ^ lo := Nat.mod_lt _ (Nat.two_pow_pos lo)
  have hx : x % 2 ^ w < 2 ^ w := Nat.mod_lt _ (Nat.two_pow_pos w)
  have h32 : (2 : Nat) ^ 32 = 2 ^ (32 - (lo + w)) * 2 ^ (lo + w) := by rw [← Nat.pow_add]; congr 1; omega
  have hq : s.regN pg u off / 2 ^ (lo + w) < 2 ^ (32 - (lo + w)) := by
    apply Nat.div_lt_of_lt_mul; rw [Nat.mul_comm, ← h32]; exact hv
  have hw : x % 2 ^ w * 2 ^ lo + 2 ^ lo ≤ 2 ^ (lo + w) := by
    rw [Nat.pow_add, Nat.mul_comm (2 ^ lo), ← Nat.succ_mul]; exact Nat.mul_le_mul_right _ hx
  have hm : (s.regN pg u off / 2 ^ (lo + w) + 1) * 2 ^ (lo + w) ≤ 2 ^ 32 := by
    rw [h32]; exact Nat.mul_le_mul_right _ hq
  rw [putBits_eq]
  rw [Nat.add_mul, Nat.one_mul] at hm
  omega

@[simp] theorem blk_setBlk_same (pg : Nat) (b : Block) : (s.setBlk pg b).blk pg = b := by
  simp [State.blk, State.setBlk]

theorem blk_setBlk (pg q : Nat) (b : Block) : (s.setBlk pg b).blk q = if q = pg then b else s.blk q := by
  simp [State.blk, State.setBlk, SMap.get_set]

@[simp] theorem blk_modBlk_same (pg : Nat) (f : Block → Block) : (s.modBlk pg f).blk pg = f (s.blk pg) :=
  blk_setBlk_same s pg _

theorem blk_modBlk_other (pg q : Nat) (f : Block → Block) (h : q ≠ pg) : (s.modBlk pg f).blk q = s.blk q := by
  unfold State.modBlk; rw [blk_setBlk, if_neg h]

@[simp] theorem regK_setBlk (pg k : Nat) (b : Block) : (s.setBlk pg b).regK k = s.regK k := rfl
@[simp] theorem regK_modBlk (pg k : Nat) (f : Block → Block) : (s.modBlk pg f).regK k = s.regK k := rfl
@[simp] theorem regK_emit (k : Nat) (o : Out) : (s.emit o).regK k = s.regK k := rfl
@[simp] theorem blk_emit (pg : Nat) (o : Out) : (s.emit o).blk pg = s.blk pg := rfl
@[simp] theorem blk_setRegK (pg k : Nat) (v : W32) : (s.setRegK k v).blk pg = s.blk pg := rfl

end Sys2Proof.Machine
end

