-- ==== Sys2Proof/Laws/Frames.lean ====
section
/-! SUPPORT. What the shared frames of a command answer, what an event and an error leave alone, what a step does. -/

namespace Sys2Proof.Machine

variable (s : State)

theorem run_eq (f : State → State) : run f s = .next (settled s (f s)) := rfl
@[simp] theorem act_true (f : State → State) : act true f s = .next (settled s (f s)) := rfl
@[simp] theorem act_false (f : State → State) : act false f s = .fault .noSuchUnit := rfl
@[simp] theorem when_true (f : State → State) : when true f s = f s := rfl
@[simp] theorem when_false (f : State → State) : when false f s = s := rfl

theorem act_next {ok : Bool} {f : State → State} {t : State} (h : act ok f s = .next t) : ok = true ∧ t = settled s (f s) := by
  cases ok
  · simp at h
  · simp at h; exact ⟨rfl, h.symm⟩

@[simp] theorem settled_self : settled s s = s := rfl
@[simp] theorem settled_now (t : State) : (settled s t).now = s.now := rfl
@[simp] theorem settled_pending (t : State) : (settled s t).pending = s.pending := rfl

theorem step_front (c : Instr) (rest : List Instr) : step (s.withPending (c :: rest)) = exec c (s.withPending rest) := rfl

theorem step_cons {c : Instr} {rest : List Instr} (h : s.pending = c :: rest) : step s = exec c (s.withPending rest) := by
  unfold step; rw [h]

theorem step_nil (h : s.pending = []) : step s = .next s.idle := by
  unfold step; rw [h]

/-! ### Writes to a field that acts -/

theorem regCmd_accepts {ag pg off v : Nat} (f : State → State) (h : Accepts s ag pg off v) : regCmd ag pg off v f s = f s := by
  obtain ⟨-, hl, w, hw, hf⟩ := h
  simp [regCmd, hl, hw, hf]

/-- What a write to a field that acts can do. -/
theorem regCmd_cases (ag pg off v : Nat) (f : State → State) :
    regCmd ag pg off v f s = s ∨ regCmd ag pg off v f s = f s ∨ regCmd ag pg off v f s = dropEarly s ∨
    ∃ o c r, regCmd ag pg off v f s = s.reject pg o c r := by
  unfold regCmd
  split
  · split
    · exact .inl rfl
    · split
      · exact .inr (.inr (.inr ⟨_, _, _, rfl⟩))
      · exact .inr (.inl rfl)
  · split
    · exact .inr (.inr (.inl rfl))
    · exact .inl rfl

/-! ### Events and errors -/

/-- State `t` but for what an event changes: the paths, the records kept for a crash, MSI-X pending bits, outputs. -/
def eventsOf (s t : State) : State :=
  { t with paths := s.paths, led := { t.led with recent := s.led.recent }, host := { t.host with msixPend := s.host.msixPend }, out := s.out }

theorem eventsOf_self : eventsOf s s = s := rfl

theorem eventsOf_trans {s t u : State} (h1 : eventsOf s t = s) (h2 : eventsOf t u = t) : eventsOf s u = s := by
  rw [← h1]
  conv => rhs; rw [← h2]
  rfl

theorem eventsOf_msix (v : Nat) : eventsOf s (s.msix v) = s := by
  unfold State.msix; split <;> rfl

theorem eventsOf_rings (e : Event) (l : List Nat) : eventsOf s (l.foldl (fun t r => t.offerTo (2 + r) e) s) = s := by
  induction l generalizing s with
  | nil => rfl
  | cons r l ih => exact eventsOf_trans (t := s.offerTo (2 + r) e) rfl (ih _)

theorem eventsOf_recent (f : List Event → List Event) : eventsOf s { s with led := { s.led with recent := f s.led.recent } } = s := rfl

theorem eventsOf_toLedger (e : Event) : eventsOf s (s.toLedger e) = s :=
  eventsOf_trans (t := s.offerTo 1 e) rfl (eventsOf_recent _ fun l => (l ++ [e]).drop (l.length + 1 - 1024))

/-- An offered event changes nothing but the paths, the crash records, the MSI-X pending bits and the outputs. -/
theorem eventsOf_offer (e : Event) (only : Option (Option Nat)) : eventsOf s (s.offer e only) = s := by
  unfold State.offer
  dsimp only
  have h1 : eventsOf s (if e.sev ≠ 0 ∧ bmcMin s ≤ e.sev then s.offerTo 0 e else s) = s := by split <;> rfl
  generalize (if e.sev ≠ 0 ∧ bmcMin s ≤ e.sev then s.offerTo 0 e else s) = s1 at h1 ⊢
  have h2 : eventsOf s (if e.sev ≠ 0 ∧ ledgerMin s ≤ e.sev then s1.toLedger e else s1) = s := by
    split
    · exact eventsOf_trans h1 (eventsOf_toLedger s1 e)
    · exact h1
  generalize (if e.sev ≠ 0 ∧ ledgerMin s ≤ e.sev then s1.toLedger e else s1) = s2 at h2 ⊢
  have h3 := fun l => eventsOf_trans h2 (eventsOf_rings s2 e l)
  split
  · exact eventsOf_trans (h3 _) (eventsOf_msix _ _)
  · exact h3 _

/-- State `t` but for block headers and what an event changes. -/
def errorsOf (s t : State) : State := { eventsOf s t with blocks := s.blocks }

theorem errorsOf_trans {s t u : State} (h1 : errorsOf s t = s) (h2 : errorsOf t u = t) : errorsOf s u = s := by
  rw [← h1]
  conv => rhs; rw [← h2]
  rfl

theorem errorsOf_offer (e : Event) (only : Option (Option Nat)) : errorsOf s (s.offer e only) = s := by
  unfold errorsOf; rw [eventsOf_offer]

/-- An event raised counts in its page's header and is offered. -/
theorem errorsOf_raise (pg src code : Nat) (data : BitVec 128) (only : Option (Option Nat)) :
    errorsOf s (s.raiseFrom pg src code data only) = s :=
  errorsOf_trans (t := s.modBlk pg fun b => { b with evtCnt := b.evtCnt + 1 }) rfl (errorsOf_offer _ _ only)

/-- An error changes nothing but block headers and what an event changes. -/
theorem errorsOf_err (pg bit code loc : Nat) (data : BitVec 128) (quiet : Bool) (only : Option (Option Nat)) :
    errorsOf s (s.err pg bit code loc data quiet only) = s := by
  unfold State.err
  dsimp only
  generalize hf : (fun b : Block => b.error bit code (BitVec.ofNat 64 loc) (data.truncate 32)) = f
  split
  · rfl
  · exact errorsOf_trans (t := s.modBlk pg f) rfl (errorsOf_raise _ pg (pageSrc pg) code data only)

theorem errors_at {α : Type} (f : State → α) {s t : State} (h : errorsOf s t = s) (hf : f (errorsOf s t) = f t) : f t = f s :=
  hf.symm.trans (congrArg f h)

section
variable (pg bit code loc src : Nat) (data : BitVec 128) (quiet : Bool) (only : Option (Option Nat))

@[simp] theorem err_now : (s.err pg bit code loc data quiet only).now = s.now := errors_at State.now (errorsOf_err ..) rfl
@[simp] theorem raise_now : (s.raiseFrom pg src code data only).now = s.now := errors_at State.now (errorsOf_raise ..) rfl
@[simp] theorem err_regs : (s.err pg bit code loc data quiet only).regs = s.regs := errors_at State.regs (errorsOf_err ..) rfl
@[simp] theorem raise_regs : (s.raiseFrom pg src code data only).regs = s.regs := errors_at State.regs (errorsOf_raise ..) rfl
@[simp] theorem err_shadow : (s.err pg bit code loc data quiet only).shadow = s.shadow := errors_at State.shadow (errorsOf_err ..) rfl
@[simp] theorem raise_shadow : (s.raiseFrom pg src code data only).shadow = s.shadow := errors_at State.shadow (errorsOf_raise ..) rfl
@[simp] theorem err_stage64 : (s.err pg bit code loc data quiet only).stage64 = s.stage64 := errors_at State.stage64 (errorsOf_err ..) rfl
@[simp] theorem raise_stage64 : (s.raiseFrom pg src code data only).stage64 = s.stage64 := errors_at State.stage64 (errorsOf_raise ..) rfl
@[simp] theorem err_snap64 : (s.err pg bit code loc data quiet only).snap64 = s.snap64 := errors_at State.snap64 (errorsOf_err ..) rfl
@[simp] theorem raise_snap64 : (s.raiseFrom pg src code data only).snap64 = s.snap64 := errors_at State.snap64 (errorsOf_raise ..) rfl
@[simp] theorem err_mbx : (s.err pg bit code loc data quiet only).mbx = s.mbx := errors_at State.mbx (errorsOf_err ..) rfl
@[simp] theorem raise_mbx : (s.raiseFrom pg src code data only).mbx = s.mbx := errors_at State.mbx (errorsOf_raise ..) rfl
@[simp] theorem err_serv : (s.err pg bit code loc data quiet only).serv = s.serv := errors_at State.serv (errorsOf_err ..) rfl
@[simp] theorem raise_serv : (s.raiseFrom pg src code data only).serv = s.serv := errors_at State.serv (errorsOf_raise ..) rfl
@[simp] theorem err_parts : (s.err pg bit code loc data quiet only).parts = s.parts := errors_at State.parts (errorsOf_err ..) rfl
@[simp] theorem raise_parts : (s.raiseFrom pg src code data only).parts = s.parts := errors_at State.parts (errorsOf_raise ..) rfl
@[simp] theorem err_spec : (s.err pg bit code loc data quiet only).spec = s.spec := errors_at State.spec (errorsOf_err ..) rfl
@[simp] theorem raise_spec : (s.raiseFrom pg src code data only).spec = s.spec := errors_at State.spec (errorsOf_raise ..) rfl
@[simp] theorem err_kv : (s.err pg bit code loc data quiet only).kv = s.kv := errors_at State.kv (errorsOf_err ..) rfl
@[simp] theorem raise_kv : (s.raiseFrom pg src code data only).kv = s.kv := errors_at State.kv (errorsOf_raise ..) rfl
@[simp] theorem err_we : (s.err pg bit code loc data quiet only).we = s.we := errors_at State.we (errorsOf_err ..) rfl
@[simp] theorem raise_we : (s.raiseFrom pg src code data only).we = s.we := errors_at State.we (errorsOf_raise ..) rfl
@[simp] theorem err_mem : (s.err pg bit code loc data quiet only).mem = s.mem := errors_at State.mem (errorsOf_err ..) rfl
@[simp] theorem raise_mem : (s.raiseFrom pg src code data only).mem = s.mem := errors_at State.mem (errorsOf_raise ..) rfl
@[simp] theorem err_cores : (s.err pg bit code loc data quiet only).cores = s.cores := errors_at State.cores (errorsOf_err ..) rfl
@[simp] theorem raise_cores : (s.raiseFrom pg src code data only).cores = s.cores := errors_at State.cores (errorsOf_raise ..) rfl
@[simp] theorem err_fab : (s.err pg bit code loc data quiet only).fab = s.fab := errors_at State.fab (errorsOf_err ..) rfl
@[simp] theorem raise_fab : (s.raiseFrom pg src code data only).fab = s.fab := errors_at State.fab (errorsOf_raise ..) rfl
@[simp] theorem err_mlk : (s.err pg bit code loc data quiet only).mlk = s.mlk := errors_at State.mlk (errorsOf_err ..) rfl
@[simp] theorem raise_mlk : (s.raiseFrom pg src code data only).mlk = s.mlk := errors_at State.mlk (errorsOf_raise ..) rfl
@[simp] theorem err_pwr : (s.err pg bit code loc data quiet only).pwr = s.pwr := errors_at State.pwr (errorsOf_err ..) rfl
@[simp] theorem raise_pwr : (s.raiseFrom pg src code data only).pwr = s.pwr := errors_at State.pwr (errorsOf_raise ..) rfl
@[simp] theorem err_fr : (s.err pg bit code loc data quiet only).fr = s.fr := errors_at State.fr (errorsOf_err ..) rfl
@[simp] theorem raise_fr : (s.raiseFrom pg src code data only).fr = s.fr := errors_at State.fr (errorsOf_raise ..) rfl
@[simp] theorem err_rp : (s.err pg bit code loc data quiet only).rp = s.rp := errors_at State.rp (errorsOf_err ..) rfl
@[simp] theorem raise_rp : (s.raiseFrom pg src code data only).rp = s.rp := errors_at State.rp (errorsOf_raise ..) rfl
@[simp] theorem err_mg : (s.err pg bit code loc data quiet only).mg = s.mg := errors_at State.mg (errorsOf_err ..) rfl
@[simp] theorem raise_mg : (s.raiseFrom pg src code data only).mg = s.mg := errors_at State.mg (errorsOf_raise ..) rfl
@[simp] theorem err_free : (s.err pg bit code loc data quiet only).free = s.free := errors_at State.free (errorsOf_err ..) rfl
@[simp] theorem raise_free : (s.raiseFrom pg src code data only).free = s.free := errors_at State.free (errorsOf_raise ..) rfl
@[simp] theorem err_pending : (s.err pg bit code loc data quiet only).pending = s.pending := errors_at State.pending (errorsOf_err ..) rfl
@[simp] theorem raise_pending : (s.raiseFrom pg src code data only).pending = s.pending := errors_at State.pending (errorsOf_raise ..) rfl
end

theorem reset_queue : State.reset.pending = [] := rfl
theorem reset_mem_wf : Mem.wf State.reset.mem.t1 = true := rfl

end Sys2Proof.Machine
end

