-- ==== Sys2Proof/Laws/Links.lean ====
section
/-! SUPPORT. Link frames: the check field of a frame that is sent is that of its other 264 bytes. -/

namespace Sys2Proof.Machine

theorem crcBit_lt {c : Nat} (h : c < 2 ^ 64) : crcBit c < 2 ^ 64 := by
  unfold crcBit
  split
  · exact Nat.xor_lt_two_pow (Nat.mod_lt _ (by decide)) (by decide)
  · omega

theorem crcByte_lt {c : Nat} (b : Byte) (h : c < 2 ^ 64) : crcByte c b < 2 ^ 64 := by
  unfold crcByte
  have h0 : c ^^^ (b.toNat * 2 ^ 56) < 2 ^ 64 := Nat.xor_lt_two_pow h (by have := b.isLt; omega)
  generalize c ^^^ (b.toNat * 2 ^ 56) = x at h0 ⊢
  generalize List.range 8 = l
  induction l generalizing x with
  | nil => exact h0
  | cons _ l ih => exact ih _ (crcBit_lt h0)

/-- A bound that a function keeps is kept by a fold of it. -/
theorem foldl_lt (f : Nat → Byte → Nat) (n : Nat) (hf : ∀ c b, c < n → f c b < n) (l : List Byte) :
    ∀ c, c < n → l.foldl f c < n := by
  induction l with
  | nil => exact fun c h => h
  | cons b l ih => exact fun c h => ih _ (hf c b h)

theorem crc64_lt (l : List Byte) : crc64 l < 2 ^ 64 :=
  foldl_lt crcByte _ (fun _ b h => crcByte_lt b h) l 0 (Nat.two_pow_pos 64)

@[simp] theorem length_padTo (n : Nat) (l : List Byte) : (padTo n l).length = n := by
  simp [padTo]; omega

/-- A frame is 272 bytes; its last 8 are the CRC of the others (13 R323). -/
theorem frameBytes_good (seq ack kind lane credits : Nat) (body : List Byte) :
    let b := frameBytes seq ack kind lane credits body
    b.length = 272 ∧ crc64 (b.take 264) = leNat ((b.drop 264).take 8) := by
  intro b
  have hb : ∃ h : List Byte, h.length = 264 ∧ b = h ++ leBytes 8 (crc64 h) := ⟨_, by simp, rfl⟩
  obtain ⟨h, hl, he⟩ := hb
  refine ⟨by simp [he, hl], ?_⟩
  rw [he, ← hl, List.take_left, List.drop_left, List.take_of_length_le (by simp), leNat_leBytes]
  exact (Nat.mod_eq_of_lt (by simpa using crc64_lt h)).symm

end Sys2Proof.Machine
end

