-- ==== Sys2Proof/Laws/Planes.lean ====
section
/-! SUPPORT. What an update of one plane of the state leaves alone: one lemma per field and update, true by unfolding. -/

namespace Sys2Proof.Machine

variable (s : State)

/-! ### State.setPart -/

@[simp] theorem setPart_now (p : Nat) (q : Part) : (s.setPart p q).now = s.now := rfl
@[simp] theorem setPart_regs (p : Nat) (q : Part) : (s.setPart p q).regs = s.regs := rfl
@[simp] theorem setPart_shadow (p : Nat) (q : Part) : (s.setPart p q).shadow = s.shadow := rfl
@[simp] theorem setPart_blocks (p : Nat) (q : Part) : (s.setPart p q).blocks = s.blocks := rfl
@[simp] theorem setPart_stage64 (p : Nat) (q : Part) : (s.setPart p q).stage64 = s.stage64 := rfl
@[simp] theorem setPart_snap64 (p : Nat) (q : Part) : (s.setPart p q).snap64 = s.snap64 := rfl
@[simp] theorem setPart_paths (p : Nat) (q : Part) : (s.setPart p q).paths = s.paths := rfl
@[simp] theorem setPart_host (p : Nat) (q : Part) : (s.setPart p q).host = s.host := rfl
@[simp] theorem setPart_mbx (p : Nat) (q : Part) : (s.setPart p q).mbx = s.mbx := rfl
@[simp] theorem setPart_serv (p : Nat) (q : Part) : (s.setPart p q).serv = s.serv := rfl
@[simp] theorem setPart_spec (p : Nat) (q : Part) : (s.setPart p q).spec = s.spec := rfl
@[simp] theorem setPart_kv (p : Nat) (q : Part) : (s.setPart p q).kv = s.kv := rfl
@[simp] theorem setPart_we (p : Nat) (q : Part) : (s.setPart p q).we = s.we := rfl
@[simp] theorem setPart_mem (p : Nat) (q : Part) : (s.setPart p q).mem = s.mem := rfl
@[simp] theorem setPart_cores (p : Nat) (q : Part) : (s.setPart p q).cores = s.cores := rfl
@[simp] theorem setPart_fab (p : Nat) (q : Part) : (s.setPart p q).fab = s.fab := rfl
@[simp] theorem setPart_mlk (p : Nat) (q : Part) : (s.setPart p q).mlk = s.mlk := rfl
@[simp] theorem setPart_pwr (p : Nat) (q : Part) : (s.setPart p q).pwr = s.pwr := rfl
@[simp] theorem setPart_fr (p : Nat) (q : Part) : (s.setPart p q).fr = s.fr := rfl
@[simp] theorem setPart_rp (p : Nat) (q : Part) : (s.setPart p q).rp = s.rp := rfl
@[simp] theorem setPart_led (p : Nat) (q : Part) : (s.setPart p q).led = s.led := rfl
@[simp] theorem setPart_mg (p : Nat) (q : Part) : (s.setPart p q).mg = s.mg := rfl
@[simp] theorem setPart_b0 (p : Nat) (q : Part) : (s.setPart p q).b0 = s.b0 := rfl
@[simp] theorem setPart_out (p : Nat) (q : Part) : (s.setPart p q).out = s.out := rfl
@[simp] theorem setPart_free (p : Nat) (q : Part) : (s.setPart p q).free = s.free := rfl
@[simp] theorem setPart_fresh (p : Nat) (q : Part) : (s.setPart p q).fresh = s.fresh := rfl
@[simp] theorem setPart_pending (p : Nat) (q : Part) : (s.setPart p q).pending = s.pending := rfl

/-! ### State.modPart -/

@[simp] theorem modPart_now (p : Nat) (f : Part → Part) : (s.modPart p f).now = s.now := rfl
@[simp] theorem modPart_regs (p : Nat) (f : Part → Part) : (s.modPart p f).regs = s.regs := rfl
@[simp] theorem modPart_shadow (p : Nat) (f : Part → Part) : (s.modPart p f).shadow = s.shadow := rfl
@[simp] theorem modPart_blocks (p : Nat) (f : Part → Part) : (s.modPart p f).blocks = s.blocks := rfl
@[simp] theorem modPart_stage64 (p : Nat) (f : Part → Part) : (s.modPart p f).stage64 = s.stage64 := rfl
@[simp] theorem modPart_snap64 (p : Nat) (f : Part → Part) : (s.modPart p f).snap64 = s.snap64 := rfl
@[simp] theorem modPart_paths (p : Nat) (f : Part → Part) : (s.modPart p f).paths = s.paths := rfl
@[simp] theorem modPart_host (p : Nat) (f : Part → Part) : (s.modPart p f).host = s.host := rfl
@[simp] theorem modPart_mbx (p : Nat) (f : Part → Part) : (s.modPart p f).mbx = s.mbx := rfl
@[simp] theorem modPart_serv (p : Nat) (f : Part → Part) : (s.modPart p f).serv = s.serv := rfl
@[simp] theorem modPart_spec (p : Nat) (f : Part → Part) : (s.modPart p f).spec = s.spec := rfl
@[simp] theorem modPart_kv (p : Nat) (f : Part → Part) : (s.modPart p f).kv = s.kv := rfl
@[simp] theorem modPart_we (p : Nat) (f : Part → Part) : (s.modPart p f).we = s.we := rfl
@[simp] theorem modPart_mem (p : Nat) (f : Part → Part) : (s.modPart p f).mem = s.mem := rfl
@[simp] theorem modPart_cores (p : Nat) (f : Part → Part) : (s.modPart p f).cores = s.cores := rfl
@[simp] theorem modPart_fab (p : Nat) (f : Part → Part) : (s.modPart p f).fab = s.fab := rfl
@[simp] theorem modPart_mlk (p : Nat) (f : Part → Part) : (s.modPart p f).mlk = s.mlk := rfl
@[simp] theorem modPart_pwr (p : Nat) (f : Part → Part) : (s.modPart p f).pwr = s.pwr := rfl
@[simp] theorem modPart_fr (p : Nat) (f : Part → Part) : (s.modPart p f).fr = s.fr := rfl
@[simp] theorem modPart_rp (p : Nat) (f : Part → Part) : (s.modPart p f).rp = s.rp := rfl
@[simp] theorem modPart_led (p : Nat) (f : Part → Part) : (s.modPart p f).led = s.led := rfl
@[simp] theorem modPart_mg (p : Nat) (f : Part → Part) : (s.modPart p f).mg = s.mg := rfl
@[simp] theorem modPart_b0 (p : Nat) (f : Part → Part) : (s.modPart p f).b0 = s.b0 := rfl
@[simp] theorem modPart_out (p : Nat) (f : Part → Part) : (s.modPart p f).out = s.out := rfl
@[simp] theorem modPart_free (p : Nat) (f : Part → Part) : (s.modPart p f).free = s.free := rfl
@[simp] theorem modPart_fresh (p : Nat) (f : Part → Part) : (s.modPart p f).fresh = s.fresh := rfl
@[simp] theorem modPart_pending (p : Nat) (f : Part → Part) : (s.modPart p f).pending = s.pending := rfl

/-! ### State.setPool -/

@[simp] theorem setPool_now (p : Nat) (q : KvPool) : (s.setPool p q).now = s.now := rfl
@[simp] theorem setPool_regs (p : Nat) (q : KvPool) : (s.setPool p q).regs = s.regs := rfl
@[simp] theorem setPool_shadow (p : Nat) (q : KvPool) : (s.setPool p q).shadow = s.shadow := rfl
@[simp] theorem setPool_blocks (p : Nat) (q : KvPool) : (s.setPool p q).blocks = s.blocks := rfl
@[simp] theorem setPool_stage64 (p : Nat) (q : KvPool) : (s.setPool p q).stage64 = s.stage64 := rfl
@[simp] theorem setPool_snap64 (p : Nat) (q : KvPool) : (s.setPool p q).snap64 = s.snap64 := rfl
@[simp] theorem setPool_paths (p : Nat) (q : KvPool) : (s.setPool p q).paths = s.paths := rfl
@[simp] theorem setPool_host (p : Nat) (q : KvPool) : (s.setPool p q).host = s.host := rfl
@[simp] theorem setPool_mbx (p : Nat) (q : KvPool) : (s.setPool p q).mbx = s.mbx := rfl
@[simp] theorem setPool_serv (p : Nat) (q : KvPool) : (s.setPool p q).serv = s.serv := rfl
@[simp] theorem setPool_parts (p : Nat) (q : KvPool) : (s.setPool p q).parts = s.parts := rfl
@[simp] theorem setPool_spec (p : Nat) (q : KvPool) : (s.setPool p q).spec = s.spec := rfl
@[simp] theorem setPool_we (p : Nat) (q : KvPool) : (s.setPool p q).we = s.we := rfl
@[simp] theorem setPool_mem (p : Nat) (q : KvPool) : (s.setPool p q).mem = s.mem := rfl
@[simp] theorem setPool_cores (p : Nat) (q : KvPool) : (s.setPool p q).cores = s.cores := rfl
@[simp] theorem setPool_fab (p : Nat) (q : KvPool) : (s.setPool p q).fab = s.fab := rfl
@[simp] theorem setPool_mlk (p : Nat) (q : KvPool) : (s.setPool p q).mlk = s.mlk := rfl
@[simp] theorem setPool_pwr (p : Nat) (q : KvPool) : (s.setPool p q).pwr = s.pwr := rfl
@[simp] theorem setPool_fr (p : Nat) (q : KvPool) : (s.setPool p q).fr = s.fr := rfl
@[simp] theorem setPool_rp (p : Nat) (q : KvPool) : (s.setPool p q).rp = s.rp := rfl
@[simp] theorem setPool_led (p : Nat) (q : KvPool) : (s.setPool p q).led = s.led := rfl
@[simp] theorem setPool_mg (p : Nat) (q : KvPool) : (s.setPool p q).mg = s.mg := rfl
@[simp] theorem setPool_b0 (p : Nat) (q : KvPool) : (s.setPool p q).b0 = s.b0 := rfl
@[simp] theorem setPool_out (p : Nat) (q : KvPool) : (s.setPool p q).out = s.out := rfl
@[simp] theorem setPool_free (p : Nat) (q : KvPool) : (s.setPool p q).free = s.free := rfl
@[simp] theorem setPool_fresh (p : Nat) (q : KvPool) : (s.setPool p q).fresh = s.fresh := rfl
@[simp] theorem setPool_pending (p : Nat) (q : KvPool) : (s.setPool p q).pending = s.pending := rfl

/-! ### State.modPool -/

@[simp] theorem modPool_now (p : Nat) (f : KvPool → KvPool) : (s.modPool p f).now = s.now := rfl
@[simp] theorem modPool_regs (p : Nat) (f : KvPool → KvPool) : (s.modPool p f).regs = s.regs := rfl
@[simp] theorem modPool_shadow (p : Nat) (f : KvPool → KvPool) : (s.modPool p f).shadow = s.shadow := rfl
@[simp] theorem modPool_blocks (p : Nat) (f : KvPool → KvPool) : (s.modPool p f).blocks = s.blocks := rfl
@[simp] theorem modPool_stage64 (p : Nat) (f : KvPool → KvPool) : (s.modPool p f).stage64 = s.stage64 := rfl
@[simp] theorem modPool_snap64 (p : Nat) (f : KvPool → KvPool) : (s.modPool p f).snap64 = s.snap64 := rfl
@[simp] theorem modPool_paths (p : Nat) (f : KvPool → KvPool) : (s.modPool p f).paths = s.paths := rfl
@[simp] theorem modPool_host (p : Nat) (f : KvPool → KvPool) : (s.modPool p f).host = s.host := rfl
@[simp] theorem modPool_mbx (p : Nat) (f : KvPool → KvPool) : (s.modPool p f).mbx = s.mbx := rfl
@[simp] theorem modPool_serv (p : Nat) (f : KvPool → KvPool) : (s.modPool p f).serv = s.serv := rfl
@[simp] theorem modPool_parts (p : Nat) (f : KvPool → KvPool) : (s.modPool p f).parts = s.parts := rfl
@[simp] theorem modPool_spec (p : Nat) (f : KvPool → KvPool) : (s.modPool p f).spec = s.spec := rfl
@[simp] theorem modPool_we (p : Nat) (f : KvPool → KvPool) : (s.modPool p f).we = s.we := rfl
@[simp] theorem modPool_mem (p : Nat) (f : KvPool → KvPool) : (s.modPool p f).mem = s.mem := rfl
@[simp] theorem modPool_cores (p : Nat) (f : KvPool → KvPool) : (s.modPool p f).cores = s.cores := rfl
@[simp] theorem modPool_fab (p : Nat) (f : KvPool → KvPool) : (s.modPool p f).fab = s.fab := rfl
@[simp] theorem modPool_mlk (p : Nat) (f : KvPool → KvPool) : (s.modPool p f).mlk = s.mlk := rfl
@[simp] theorem modPool_pwr (p : Nat) (f : KvPool → KvPool) : (s.modPool p f).pwr = s.pwr := rfl
@[simp] theorem modPool_fr (p : Nat) (f : KvPool → KvPool) : (s.modPool p f).fr = s.fr := rfl
@[simp] theorem modPool_rp (p : Nat) (f : KvPool → KvPool) : (s.modPool p f).rp = s.rp := rfl
@[simp] theorem modPool_led (p : Nat) (f : KvPool → KvPool) : (s.modPool p f).led = s.led := rfl
@[simp] theorem modPool_mg (p : Nat) (f : KvPool → KvPool) : (s.modPool p f).mg = s.mg := rfl
@[simp] theorem modPool_b0 (p : Nat) (f : KvPool → KvPool) : (s.modPool p f).b0 = s.b0 := rfl
@[simp] theorem modPool_out (p : Nat) (f : KvPool → KvPool) : (s.modPool p f).out = s.out := rfl
@[simp] theorem modPool_free (p : Nat) (f : KvPool → KvPool) : (s.modPool p f).free = s.free := rfl
@[simp] theorem modPool_fresh (p : Nat) (f : KvPool → KvPool) : (s.modPool p f).fresh = s.fresh := rfl
@[simp] theorem modPool_pending (p : Nat) (f : KvPool → KvPool) : (s.modPool p f).pending = s.pending := rfl

/-! ### State.modFab -/

@[simp] theorem modFab_now (f : FabSt → FabSt) : (s.modFab f).now = s.now := rfl
@[simp] theorem modFab_regs (f : FabSt → FabSt) : (s.modFab f).regs = s.regs := rfl
@[simp] theorem modFab_shadow (f : FabSt → FabSt) : (s.modFab f).shadow = s.shadow := rfl
@[simp] theorem modFab_blocks (f : FabSt → FabSt) : (s.modFab f).blocks = s.blocks := rfl
@[simp] theorem modFab_stage64 (f : FabSt → FabSt) : (s.modFab f).stage64 = s.stage64 := rfl
@[simp] theorem modFab_snap64 (f : FabSt → FabSt) : (s.modFab f).snap64 = s.snap64 := rfl
@[simp] theorem modFab_paths (f : FabSt → FabSt) : (s.modFab f).paths = s.paths := rfl
@[simp] theorem modFab_host (f : FabSt → FabSt) : (s.modFab f).host = s.host := rfl
@[simp] theorem modFab_mbx (f : FabSt → FabSt) : (s.modFab f).mbx = s.mbx := rfl
@[simp] theorem modFab_serv (f : FabSt → FabSt) : (s.modFab f).serv = s.serv := rfl
@[simp] theorem modFab_parts (f : FabSt → FabSt) : (s.modFab f).parts = s.parts := rfl
@[simp] theorem modFab_spec (f : FabSt → FabSt) : (s.modFab f).spec = s.spec := rfl
@[simp] theorem modFab_kv (f : FabSt → FabSt) : (s.modFab f).kv = s.kv := rfl
@[simp] theorem modFab_we (f : FabSt → FabSt) : (s.modFab f).we = s.we := rfl
@[simp] theorem modFab_mem (f : FabSt → FabSt) : (s.modFab f).mem = s.mem := rfl
@[simp] theorem modFab_cores (f : FabSt → FabSt) : (s.modFab f).cores = s.cores := rfl
@[simp] theorem modFab_mlk (f : FabSt → FabSt) : (s.modFab f).mlk = s.mlk := rfl
@[simp] theorem modFab_pwr (f : FabSt → FabSt) : (s.modFab f).pwr = s.pwr := rfl
@[simp] theorem modFab_fr (f : FabSt → FabSt) : (s.modFab f).fr = s.fr := rfl
@[simp] theorem modFab_rp (f : FabSt → FabSt) : (s.modFab f).rp = s.rp := rfl
@[simp] theorem modFab_led (f : FabSt → FabSt) : (s.modFab f).led = s.led := rfl
@[simp] theorem modFab_mg (f : FabSt → FabSt) : (s.modFab f).mg = s.mg := rfl
@[simp] theorem modFab_b0 (f : FabSt → FabSt) : (s.modFab f).b0 = s.b0 := rfl
@[simp] theorem modFab_out (f : FabSt → FabSt) : (s.modFab f).out = s.out := rfl
@[simp] theorem modFab_free (f : FabSt → FabSt) : (s.modFab f).free = s.free := rfl
@[simp] theorem modFab_fresh (f : FabSt → FabSt) : (s.modFab f).fresh = s.fresh := rfl
@[simp] theorem modFab_pending (f : FabSt → FabSt) : (s.modFab f).pending = s.pending := rfl

/-! ### State.modLink -/

@[simp] theorem modLink_now (site port : Nat) (f : LinkSt → LinkSt) : (s.modLink site port f).now = s.now := rfl
@[simp] theorem modLink_regs (site port : Nat) (f : LinkSt → LinkSt) : (s.modLink site port f).regs = s.regs := rfl
@[simp] theorem modLink_shadow (site port : Nat) (f : LinkSt → LinkSt) : (s.modLink site port f).shadow = s.shadow := rfl
@[simp] theorem modLink_blocks (site port : Nat) (f : LinkSt → LinkSt) : (s.modLink site port f).blocks = s.blocks := rfl
@[simp] theorem modLink_stage64 (site port : Nat) (f : LinkSt → LinkSt) : (s.modLink site port f).stage64 = s.stage64 := rfl
@[simp] theorem modLink_snap64 (site port : Nat) (f : LinkSt → LinkSt) : (s.modLink site port f).snap64 = s.snap64 := rfl
@[simp] theorem modLink_paths (site port : Nat) (f : LinkSt → LinkSt) : (s.modLink site port f).paths = s.paths := rfl
@[simp] theorem modLink_host (site port : Nat) (f : LinkSt → LinkSt) : (s.modLink site port f).host = s.host := rfl
@[simp] theorem modLink_mbx (site port : Nat) (f : LinkSt → LinkSt) : (s.modLink site port f).mbx = s.mbx := rfl
@[simp] theorem modLink_serv (site port : Nat) (f : LinkSt → LinkSt) : (s.modLink site port f).serv = s.serv := rfl
@[simp] theorem modLink_parts (site port : Nat) (f : LinkSt → LinkSt) : (s.modLink site port f).parts = s.parts := rfl
@[simp] theorem modLink_spec (site port : Nat) (f : LinkSt → LinkSt) : (s.modLink site port f).spec = s.spec := rfl
@[simp] theorem modLink_kv (site port : Nat) (f : LinkSt → LinkSt) : (s.modLink site port f).kv = s.kv := rfl
@[simp] theorem modLink_we (site port : Nat) (f : LinkSt → LinkSt) : (s.modLink site port f).we = s.we := rfl
@[simp] theorem modLink_mem (site port : Nat) (f : LinkSt → LinkSt) : (s.modLink site port f).mem = s.mem := rfl
@[simp] theorem modLink_cores (site port : Nat) (f : LinkSt → LinkSt) : (s.modLink site port f).cores = s.cores := rfl
@[simp] theorem modLink_mlk (site port : Nat) (f : LinkSt → LinkSt) : (s.modLink site port f).mlk = s.mlk := rfl
@[simp] theorem modLink_pwr (site port : Nat) (f : LinkSt → LinkSt) : (s.modLink site port f).pwr = s.pwr := rfl
@[simp] theorem modLink_fr (site port : Nat) (f : LinkSt → LinkSt) : (s.modLink site port f).fr = s.fr := rfl
@[simp] theorem modLink_rp (site port : Nat) (f : LinkSt → LinkSt) : (s.modLink site port f).rp = s.rp := rfl
@[simp] theorem modLink_led (site port : Nat) (f : LinkSt → LinkSt) : (s.modLink site port f).led = s.led := rfl
@[simp] theorem modLink_mg (site port : Nat) (f : LinkSt → LinkSt) : (s.modLink site port f).mg = s.mg := rfl
@[simp] theorem modLink_b0 (site port : Nat) (f : LinkSt → LinkSt) : (s.modLink site port f).b0 = s.b0 := rfl
@[simp] theorem modLink_out (site port : Nat) (f : LinkSt → LinkSt) : (s.modLink site port f).out = s.out := rfl
@[simp] theorem modLink_free (site port : Nat) (f : LinkSt → LinkSt) : (s.modLink site port f).free = s.free := rfl
@[simp] theorem modLink_fresh (site port : Nat) (f : LinkSt → LinkSt) : (s.modLink site port f).fresh = s.fresh := rfl
@[simp] theorem modLink_pending (site port : Nat) (f : LinkSt → LinkSt) : (s.modLink site port f).pending = s.pending := rfl

/-! ### State.setRound -/

@[simp] theorem setRound_now (site id : Nat) (r : RedRound) : (s.setRound site id r).now = s.now := rfl
@[simp] theorem setRound_regs (site id : Nat) (r : RedRound) : (s.setRound site id r).regs = s.regs := rfl
@[simp] theorem setRound_shadow (site id : Nat) (r : RedRound) : (s.setRound site id r).shadow = s.shadow := rfl
@[simp] theorem setRound_blocks (site id : Nat) (r : RedRound) : (s.setRound site id r).blocks = s.blocks := rfl
@[simp] theorem setRound_stage64 (site id : Nat) (r : RedRound) : (s.setRound site id r).stage64 = s.stage64 := rfl
@[simp] theorem setRound_snap64 (site id : Nat) (r : RedRound) : (s.setRound site id r).snap64 = s.snap64 := rfl
@[simp] theorem setRound_paths (site id : Nat) (r : RedRound) : (s.setRound site id r).paths = s.paths := rfl
@[simp] theorem setRound_host (site id : Nat) (r : RedRound) : (s.setRound site id r).host = s.host := rfl
@[simp] theorem setRound_mbx (site id : Nat) (r : RedRound) : (s.setRound site id r).mbx = s.mbx := rfl
@[simp] theorem setRound_serv (site id : Nat) (r : RedRound) : (s.setRound site id r).serv = s.serv := rfl
@[simp] theorem setRound_parts (site id : Nat) (r : RedRound) : (s.setRound site id r).parts = s.parts := rfl
@[simp] theorem setRound_spec (site id : Nat) (r : RedRound) : (s.setRound site id r).spec = s.spec := rfl
@[simp] theorem setRound_kv (site id : Nat) (r : RedRound) : (s.setRound site id r).kv = s.kv := rfl
@[simp] theorem setRound_we (site id : Nat) (r : RedRound) : (s.setRound site id r).we = s.we := rfl
@[simp] theorem setRound_mem (site id : Nat) (r : RedRound) : (s.setRound site id r).mem = s.mem := rfl
@[simp] theorem setRound_cores (site id : Nat) (r : RedRound) : (s.setRound site id r).cores = s.cores := rfl
@[simp] theorem setRound_mlk (site id : Nat) (r : RedRound) : (s.setRound site id r).mlk = s.mlk := rfl
@[simp] theorem setRound_pwr (site id : Nat) (r : RedRound) : (s.setRound site id r).pwr = s.pwr := rfl
@[simp] theorem setRound_fr (site id : Nat) (r : RedRound) : (s.setRound site id r).fr = s.fr := rfl
@[simp] theorem setRound_rp (site id : Nat) (r : RedRound) : (s.setRound site id r).rp = s.rp := rfl
@[simp] theorem setRound_led (site id : Nat) (r : RedRound) : (s.setRound site id r).led = s.led := rfl
@[simp] theorem setRound_mg (site id : Nat) (r : RedRound) : (s.setRound site id r).mg = s.mg := rfl
@[simp] theorem setRound_b0 (site id : Nat) (r : RedRound) : (s.setRound site id r).b0 = s.b0 := rfl
@[simp] theorem setRound_out (site id : Nat) (r : RedRound) : (s.setRound site id r).out = s.out := rfl
@[simp] theorem setRound_free (site id : Nat) (r : RedRound) : (s.setRound site id r).free = s.free := rfl
@[simp] theorem setRound_fresh (site id : Nat) (r : RedRound) : (s.setRound site id r).fresh = s.fresh := rfl
@[simp] theorem setRound_pending (site id : Nat) (r : RedRound) : (s.setRound site id r).pending = s.pending := rfl

/-! ### State.modHost -/

@[simp] theorem modHost_now (f : HostSt → HostSt) : (s.modHost f).now = s.now := rfl
@[simp] theorem modHost_regs (f : HostSt → HostSt) : (s.modHost f).regs = s.regs := rfl
@[simp] theorem modHost_shadow (f : HostSt → HostSt) : (s.modHost f).shadow = s.shadow := rfl
@[simp] theorem modHost_blocks (f : HostSt → HostSt) : (s.modHost f).blocks = s.blocks := rfl
@[simp] theorem modHost_stage64 (f : HostSt → HostSt) : (s.modHost f).stage64 = s.stage64 := rfl
@[simp] theorem modHost_snap64 (f : HostSt → HostSt) : (s.modHost f).snap64 = s.snap64 := rfl
@[simp] theorem modHost_paths (f : HostSt → HostSt) : (s.modHost f).paths = s.paths := rfl
@[simp] theorem modHost_mbx (f : HostSt → HostSt) : (s.modHost f).mbx = s.mbx := rfl
@[simp] theorem modHost_serv (f : HostSt → HostSt) : (s.modHost f).serv = s.serv := rfl
@[simp] theorem modHost_parts (f : HostSt → HostSt) : (s.modHost f).parts = s.parts := rfl
@[simp] theorem modHost_spec (f : HostSt → HostSt) : (s.modHost f).spec = s.spec := rfl
@[simp] theorem modHost_kv (f : HostSt → HostSt) : (s.modHost f).kv = s.kv := rfl
@[simp] theorem modHost_we (f : HostSt → HostSt) : (s.modHost f).we = s.we := rfl
@[simp] theorem modHost_mem (f : HostSt → HostSt) : (s.modHost f).mem = s.mem := rfl
@[simp] theorem modHost_cores (f : HostSt → HostSt) : (s.modHost f).cores = s.cores := rfl
@[simp] theorem modHost_fab (f : HostSt → HostSt) : (s.modHost f).fab = s.fab := rfl
@[simp] theorem modHost_mlk (f : HostSt → HostSt) : (s.modHost f).mlk = s.mlk := rfl
@[simp] theorem modHost_pwr (f : HostSt → HostSt) : (s.modHost f).pwr = s.pwr := rfl
@[simp] theorem modHost_fr (f : HostSt → HostSt) : (s.modHost f).fr = s.fr := rfl
@[simp] theorem modHost_rp (f : HostSt → HostSt) : (s.modHost f).rp = s.rp := rfl
@[simp] theorem modHost_led (f : HostSt → HostSt) : (s.modHost f).led = s.led := rfl
@[simp] theorem modHost_mg (f : HostSt → HostSt) : (s.modHost f).mg = s.mg := rfl
@[simp] theorem modHost_b0 (f : HostSt → HostSt) : (s.modHost f).b0 = s.b0 := rfl
@[simp] theorem modHost_out (f : HostSt → HostSt) : (s.modHost f).out = s.out := rfl
@[simp] theorem modHost_free (f : HostSt → HostSt) : (s.modHost f).free = s.free := rfl
@[simp] theorem modHost_fresh (f : HostSt → HostSt) : (s.modHost f).fresh = s.fresh := rfl
@[simp] theorem modHost_pending (f : HostSt → HostSt) : (s.modHost f).pending = s.pending := rfl

/-! ### State.modMem -/

@[simp] theorem modMem_now (f : MemSt → MemSt) : (s.modMem f).now = s.now := rfl
@[simp] theorem modMem_regs (f : MemSt → MemSt) : (s.modMem f).regs = s.regs := rfl
@[simp] theorem modMem_shadow (f : MemSt → MemSt) : (s.modMem f).shadow = s.shadow := rfl
@[simp] theorem modMem_blocks (f : MemSt → MemSt) : (s.modMem f).blocks = s.blocks := rfl
@[simp] theorem modMem_stage64 (f : MemSt → MemSt) : (s.modMem f).stage64 = s.stage64 := rfl
@[simp] theorem modMem_snap64 (f : MemSt → MemSt) : (s.modMem f).snap64 = s.snap64 := rfl
@[simp] theorem modMem_paths (f : MemSt → MemSt) : (s.modMem f).paths = s.paths := rfl
@[simp] theorem modMem_host (f : MemSt → MemSt) : (s.modMem f).host = s.host := rfl
@[simp] theorem modMem_mbx (f : MemSt → MemSt) : (s.modMem f).mbx = s.mbx := rfl
@[simp] theorem modMem_serv (f : MemSt → MemSt) : (s.modMem f).serv = s.serv := rfl
@[simp] theorem modMem_parts (f : MemSt → MemSt) : (s.modMem f).parts = s.parts := rfl
@[simp] theorem modMem_spec (f : MemSt → MemSt) : (s.modMem f).spec = s.spec := rfl
@[simp] theorem modMem_kv (f : MemSt → MemSt) : (s.modMem f).kv = s.kv := rfl
@[simp] theorem modMem_we (f : MemSt → MemSt) : (s.modMem f).we = s.we := rfl
@[simp] theorem modMem_cores (f : MemSt → MemSt) : (s.modMem f).cores = s.cores := rfl
@[simp] theorem modMem_fab (f : MemSt → MemSt) : (s.modMem f).fab = s.fab := rfl
@[simp] theorem modMem_mlk (f : MemSt → MemSt) : (s.modMem f).mlk = s.mlk := rfl
@[simp] theorem modMem_pwr (f : MemSt → MemSt) : (s.modMem f).pwr = s.pwr := rfl
@[simp] theorem modMem_fr (f : MemSt → MemSt) : (s.modMem f).fr = s.fr := rfl
@[simp] theorem modMem_rp (f : MemSt → MemSt) : (s.modMem f).rp = s.rp := rfl
@[simp] theorem modMem_led (f : MemSt → MemSt) : (s.modMem f).led = s.led := rfl
@[simp] theorem modMem_mg (f : MemSt → MemSt) : (s.modMem f).mg = s.mg := rfl
@[simp] theorem modMem_b0 (f : MemSt → MemSt) : (s.modMem f).b0 = s.b0 := rfl
@[simp] theorem modMem_out (f : MemSt → MemSt) : (s.modMem f).out = s.out := rfl
@[simp] theorem modMem_free (f : MemSt → MemSt) : (s.modMem f).free = s.free := rfl
@[simp] theorem modMem_fresh (f : MemSt → MemSt) : (s.modMem f).fresh = s.fresh := rfl
@[simp] theorem modMem_pending (f : MemSt → MemSt) : (s.modMem f).pending = s.pending := rfl

/-! ### State.modServ -/

@[simp] theorem modServ_now (f : ServSt → ServSt) : (s.modServ f).now = s.now := rfl
@[simp] theorem modServ_regs (f : ServSt → ServSt) : (s.modServ f).regs = s.regs := rfl
@[simp] theorem modServ_shadow (f : ServSt → ServSt) : (s.modServ f).shadow = s.shadow := rfl
@[simp] theorem modServ_blocks (f : ServSt → ServSt) : (s.modServ f).blocks = s.blocks := rfl
@[simp] theorem modServ_stage64 (f : ServSt → ServSt) : (s.modServ f).stage64 = s.stage64 := rfl
@[simp] theorem modServ_snap64 (f : ServSt → ServSt) : (s.modServ f).snap64 = s.snap64 := rfl
@[simp] theorem modServ_paths (f : ServSt → ServSt) : (s.modServ f).paths = s.paths := rfl
@[simp] theorem modServ_host (f : ServSt → ServSt) : (s.modServ f).host = s.host := rfl
@[simp] theorem modServ_mbx (f : ServSt → ServSt) : (s.modServ f).mbx = s.mbx := rfl
@[simp] theorem modServ_parts (f : ServSt → ServSt) : (s.modServ f).parts = s.parts := rfl
@[simp] theorem modServ_spec (f : ServSt → ServSt) : (s.modServ f).spec = s.spec := rfl
@[simp] theorem modServ_kv (f : ServSt → ServSt) : (s.modServ f).kv = s.kv := rfl
@[simp] theorem modServ_we (f : ServSt → ServSt) : (s.modServ f).we = s.we := rfl
@[simp] theorem modServ_mem (f : ServSt → ServSt) : (s.modServ f).mem = s.mem := rfl
@[simp] theorem modServ_cores (f : ServSt → ServSt) : (s.modServ f).cores = s.cores := rfl
@[simp] theorem modServ_fab (f : ServSt → ServSt) : (s.modServ f).fab = s.fab := rfl
@[simp] theorem modServ_mlk (f : ServSt → ServSt) : (s.modServ f).mlk = s.mlk := rfl
@[simp] theorem modServ_pwr (f : ServSt → ServSt) : (s.modServ f).pwr = s.pwr := rfl
@[simp] theorem modServ_fr (f : ServSt → ServSt) : (s.modServ f).fr = s.fr := rfl
@[simp] theorem modServ_rp (f : ServSt → ServSt) : (s.modServ f).rp = s.rp := rfl
@[simp] theorem modServ_led (f : ServSt → ServSt) : (s.modServ f).led = s.led := rfl
@[simp] theorem modServ_mg (f : ServSt → ServSt) : (s.modServ f).mg = s.mg := rfl
@[simp] theorem modServ_b0 (f : ServSt → ServSt) : (s.modServ f).b0 = s.b0 := rfl
@[simp] theorem modServ_out (f : ServSt → ServSt) : (s.modServ f).out = s.out := rfl
@[simp] theorem modServ_free (f : ServSt → ServSt) : (s.modServ f).free = s.free := rfl
@[simp] theorem modServ_fresh (f : ServSt → ServSt) : (s.modServ f).fresh = s.fresh := rfl
@[simp] theorem modServ_pending (f : ServSt → ServSt) : (s.modServ f).pending = s.pending := rfl

/-! ### State.modRing -/

@[simp] theorem modRing_now (r : Nat) (f : Ring → Ring) : (s.modRing r f).now = s.now := rfl
@[simp] theorem modRing_regs (r : Nat) (f : Ring → Ring) : (s.modRing r f).regs = s.regs := rfl
@[simp] theorem modRing_shadow (r : Nat) (f : Ring → Ring) : (s.modRing r f).shadow = s.shadow := rfl
@[simp] theorem modRing_blocks (r : Nat) (f : Ring → Ring) : (s.modRing r f).blocks = s.blocks := rfl
@[simp] theorem modRing_stage64 (r : Nat) (f : Ring → Ring) : (s.modRing r f).stage64 = s.stage64 := rfl
@[simp] theorem modRing_snap64 (r : Nat) (f : Ring → Ring) : (s.modRing r f).snap64 = s.snap64 := rfl
@[simp] theorem modRing_paths (r : Nat) (f : Ring → Ring) : (s.modRing r f).paths = s.paths := rfl
@[simp] theorem modRing_host (r : Nat) (f : Ring → Ring) : (s.modRing r f).host = s.host := rfl
@[simp] theorem modRing_mbx (r : Nat) (f : Ring → Ring) : (s.modRing r f).mbx = s.mbx := rfl
@[simp] theorem modRing_parts (r : Nat) (f : Ring → Ring) : (s.modRing r f).parts = s.parts := rfl
@[simp] theorem modRing_spec (r : Nat) (f : Ring → Ring) : (s.modRing r f).spec = s.spec := rfl
@[simp] theorem modRing_kv (r : Nat) (f : Ring → Ring) : (s.modRing r f).kv = s.kv := rfl
@[simp] theorem modRing_we (r : Nat) (f : Ring → Ring) : (s.modRing r f).we = s.we := rfl
@[simp] theorem modRing_mem (r : Nat) (f : Ring → Ring) : (s.modRing r f).mem = s.mem := rfl
@[simp] theorem modRing_cores (r : Nat) (f : Ring → Ring) : (s.modRing r f).cores = s.cores := rfl
@[simp] theorem modRing_fab (r : Nat) (f : Ring → Ring) : (s.modRing r f).fab = s.fab := rfl
@[simp] theorem modRing_mlk (r : Nat) (f : Ring → Ring) : (s.modRing r f).mlk = s.mlk := rfl
@[simp] theorem modRing_pwr (r : Nat) (f : Ring → Ring) : (s.modRing r f).pwr = s.pwr := rfl
@[simp] theorem modRing_fr (r : Nat) (f : Ring → Ring) : (s.modRing r f).fr = s.fr := rfl
@[simp] theorem modRing_rp (r : Nat) (f : Ring → Ring) : (s.modRing r f).rp = s.rp := rfl
@[simp] theorem modRing_led (r : Nat) (f : Ring → Ring) : (s.modRing r f).led = s.led := rfl
@[simp] theorem modRing_mg (r : Nat) (f : Ring → Ring) : (s.modRing r f).mg = s.mg := rfl
@[simp] theorem modRing_b0 (r : Nat) (f : Ring → Ring) : (s.modRing r f).b0 = s.b0 := rfl
@[simp] theorem modRing_out (r : Nat) (f : Ring → Ring) : (s.modRing r f).out = s.out := rfl
@[simp] theorem modRing_free (r : Nat) (f : Ring → Ring) : (s.modRing r f).free = s.free := rfl
@[simp] theorem modRing_fresh (r : Nat) (f : Ring → Ring) : (s.modRing r f).fresh = s.fresh := rfl
@[simp] theorem modRing_pending (r : Nat) (f : Ring → Ring) : (s.modRing r f).pending = s.pending := rfl

/-! ### State.setSess -/

@[simp] theorem setSess_now (i : Nat) (v : Session) : (s.setSess i v).now = s.now := rfl
@[simp] theorem setSess_regs (i : Nat) (v : Session) : (s.setSess i v).regs = s.regs := rfl
@[simp] theorem setSess_shadow (i : Nat) (v : Session) : (s.setSess i v).shadow = s.shadow := rfl
@[simp] theorem setSess_blocks (i : Nat) (v : Session) : (s.setSess i v).blocks = s.blocks := rfl
@[simp] theorem setSess_stage64 (i : Nat) (v : Session) : (s.setSess i v).stage64 = s.stage64 := rfl
@[simp] theorem setSess_snap64 (i : Nat) (v : Session) : (s.setSess i v).snap64 = s.snap64 := rfl
@[simp] theorem setSess_paths (i : Nat) (v : Session) : (s.setSess i v).paths = s.paths := rfl
@[simp] theorem setSess_host (i : Nat) (v : Session) : (s.setSess i v).host = s.host := rfl
@[simp] theorem setSess_mbx (i : Nat) (v : Session) : (s.setSess i v).mbx = s.mbx := rfl
@[simp] theorem setSess_parts (i : Nat) (v : Session) : (s.setSess i v).parts = s.parts := rfl
@[simp] theorem setSess_spec (i : Nat) (v : Session) : (s.setSess i v).spec = s.spec := rfl
@[simp] theorem setSess_kv (i : Nat) (v : Session) : (s.setSess i v).kv = s.kv := rfl
@[simp] theorem setSess_we (i : Nat) (v : Session) : (s.setSess i v).we = s.we := rfl
@[simp] theorem setSess_mem (i : Nat) (v : Session) : (s.setSess i v).mem = s.mem := rfl
@[simp] theorem setSess_cores (i : Nat) (v : Session) : (s.setSess i v).cores = s.cores := rfl
@[simp] theorem setSess_fab (i : Nat) (v : Session) : (s.setSess i v).fab = s.fab := rfl
@[simp] theorem setSess_mlk (i : Nat) (v : Session) : (s.setSess i v).mlk = s.mlk := rfl
@[simp] theorem setSess_pwr (i : Nat) (v : Session) : (s.setSess i v).pwr = s.pwr := rfl
@[simp] theorem setSess_fr (i : Nat) (v : Session) : (s.setSess i v).fr = s.fr := rfl
@[simp] theorem setSess_rp (i : Nat) (v : Session) : (s.setSess i v).rp = s.rp := rfl
@[simp] theorem setSess_led (i : Nat) (v : Session) : (s.setSess i v).led = s.led := rfl
@[simp] theorem setSess_mg (i : Nat) (v : Session) : (s.setSess i v).mg = s.mg := rfl
@[simp] theorem setSess_b0 (i : Nat) (v : Session) : (s.setSess i v).b0 = s.b0 := rfl
@[simp] theorem setSess_out (i : Nat) (v : Session) : (s.setSess i v).out = s.out := rfl
@[simp] theorem setSess_free (i : Nat) (v : Session) : (s.setSess i v).free = s.free := rfl
@[simp] theorem setSess_fresh (i : Nat) (v : Session) : (s.setSess i v).fresh = s.fresh := rfl
@[simp] theorem setSess_pending (i : Nat) (v : Session) : (s.setSess i v).pending = s.pending := rfl

/-! ### State.modSess -/

@[simp] theorem modSess_now (i : Nat) (f : Session → Session) : (s.modSess i f).now = s.now := rfl
@[simp] theorem modSess_regs (i : Nat) (f : Session → Session) : (s.modSess i f).regs = s.regs := rfl
@[simp] theorem modSess_shadow (i : Nat) (f : Session → Session) : (s.modSess i f).shadow = s.shadow := rfl
@[simp] theorem modSess_blocks (i : Nat) (f : Session → Session) : (s.modSess i f).blocks = s.blocks := rfl
@[simp] theorem modSess_stage64 (i : Nat) (f : Session → Session) : (s.modSess i f).stage64 = s.stage64 := rfl
@[simp] theorem modSess_snap64 (i : Nat) (f : Session → Session) : (s.modSess i f).snap64 = s.snap64 := rfl
@[simp] theorem modSess_paths (i : Nat) (f : Session → Session) : (s.modSess i f).paths = s.paths := rfl
@[simp] theorem modSess_host (i : Nat) (f : Session → Session) : (s.modSess i f).host = s.host := rfl
@[simp] theorem modSess_mbx (i : Nat) (f : Session → Session) : (s.modSess i f).mbx = s.mbx := rfl
@[simp] theorem modSess_parts (i : Nat) (f : Session → Session) : (s.modSess i f).parts = s.parts := rfl
@[simp] theorem modSess_spec (i : Nat) (f : Session → Session) : (s.modSess i f).spec = s.spec := rfl
@[simp] theorem modSess_kv (i : Nat) (f : Session → Session) : (s.modSess i f).kv = s.kv := rfl
@[simp] theorem modSess_we (i : Nat) (f : Session → Session) : (s.modSess i f).we = s.we := rfl
@[simp] theorem modSess_mem (i : Nat) (f : Session → Session) : (s.modSess i f).mem = s.mem := rfl
@[simp] theorem modSess_cores (i : Nat) (f : Session → Session) : (s.modSess i f).cores = s.cores := rfl
@[simp] theorem modSess_fab (i : Nat) (f : Session → Session) : (s.modSess i f).fab = s.fab := rfl
@[simp] theorem modSess_mlk (i : Nat) (f : Session → Session) : (s.modSess i f).mlk = s.mlk := rfl
@[simp] theorem modSess_pwr (i : Nat) (f : Session → Session) : (s.modSess i f).pwr = s.pwr := rfl
@[simp] theorem modSess_fr (i : Nat) (f : Session → Session) : (s.modSess i f).fr = s.fr := rfl
@[simp] theorem modSess_rp (i : Nat) (f : Session → Session) : (s.modSess i f).rp = s.rp := rfl
@[simp] theorem modSess_led (i : Nat) (f : Session → Session) : (s.modSess i f).led = s.led := rfl
@[simp] theorem modSess_mg (i : Nat) (f : Session → Session) : (s.modSess i f).mg = s.mg := rfl
@[simp] theorem modSess_b0 (i : Nat) (f : Session → Session) : (s.modSess i f).b0 = s.b0 := rfl
@[simp] theorem modSess_out (i : Nat) (f : Session → Session) : (s.modSess i f).out = s.out := rfl
@[simp] theorem modSess_free (i : Nat) (f : Session → Session) : (s.modSess i f).free = s.free := rfl
@[simp] theorem modSess_fresh (i : Nat) (f : Session → Session) : (s.modSess i f).fresh = s.fresh := rfl
@[simp] theorem modSess_pending (i : Nat) (f : Session → Session) : (s.modSess i f).pending = s.pending := rfl

/-! ### State.modReq -/

@[simp] theorem modReq_now (i : Nat) (f : Req → Req) : (s.modReq i f).now = s.now := rfl
@[simp] theorem modReq_regs (i : Nat) (f : Req → Req) : (s.modReq i f).regs = s.regs := rfl
@[simp] theorem modReq_shadow (i : Nat) (f : Req → Req) : (s.modReq i f).shadow = s.shadow := rfl
@[simp] theorem modReq_blocks (i : Nat) (f : Req → Req) : (s.modReq i f).blocks = s.blocks := rfl
@[simp] theorem modReq_stage64 (i : Nat) (f : Req → Req) : (s.modReq i f).stage64 = s.stage64 := rfl
@[simp] theorem modReq_snap64 (i : Nat) (f : Req → Req) : (s.modReq i f).snap64 = s.snap64 := rfl
@[simp] theorem modReq_paths (i : Nat) (f : Req → Req) : (s.modReq i f).paths = s.paths := rfl
@[simp] theorem modReq_host (i : Nat) (f : Req → Req) : (s.modReq i f).host = s.host := rfl
@[simp] theorem modReq_mbx (i : Nat) (f : Req → Req) : (s.modReq i f).mbx = s.mbx := rfl
@[simp] theorem modReq_parts (i : Nat) (f : Req → Req) : (s.modReq i f).parts = s.parts := rfl
@[simp] theorem modReq_spec (i : Nat) (f : Req → Req) : (s.modReq i f).spec = s.spec := rfl
@[simp] theorem modReq_kv (i : Nat) (f : Req → Req) : (s.modReq i f).kv = s.kv := rfl
@[simp] theorem modReq_we (i : Nat) (f : Req → Req) : (s.modReq i f).we = s.we := rfl
@[simp] theorem modReq_mem (i : Nat) (f : Req → Req) : (s.modReq i f).mem = s.mem := rfl
@[simp] theorem modReq_cores (i : Nat) (f : Req → Req) : (s.modReq i f).cores = s.cores := rfl
@[simp] theorem modReq_fab (i : Nat) (f : Req → Req) : (s.modReq i f).fab = s.fab := rfl
@[simp] theorem modReq_mlk (i : Nat) (f : Req → Req) : (s.modReq i f).mlk = s.mlk := rfl
@[simp] theorem modReq_pwr (i : Nat) (f : Req → Req) : (s.modReq i f).pwr = s.pwr := rfl
@[simp] theorem modReq_fr (i : Nat) (f : Req → Req) : (s.modReq i f).fr = s.fr := rfl
@[simp] theorem modReq_rp (i : Nat) (f : Req → Req) : (s.modReq i f).rp = s.rp := rfl
@[simp] theorem modReq_led (i : Nat) (f : Req → Req) : (s.modReq i f).led = s.led := rfl
@[simp] theorem modReq_mg (i : Nat) (f : Req → Req) : (s.modReq i f).mg = s.mg := rfl
@[simp] theorem modReq_b0 (i : Nat) (f : Req → Req) : (s.modReq i f).b0 = s.b0 := rfl
@[simp] theorem modReq_out (i : Nat) (f : Req → Req) : (s.modReq i f).out = s.out := rfl
@[simp] theorem modReq_free (i : Nat) (f : Req → Req) : (s.modReq i f).free = s.free := rfl
@[simp] theorem modReq_fresh (i : Nat) (f : Req → Req) : (s.modReq i f).fresh = s.fresh := rfl
@[simp] theorem modReq_pending (i : Nat) (f : Req → Req) : (s.modReq i f).pending = s.pending := rfl

/-! ### State.setTenant -/

@[simp] theorem setTenant_now (i : Nat) (v : Tenant) : (s.setTenant i v).now = s.now := rfl
@[simp] theorem setTenant_regs (i : Nat) (v : Tenant) : (s.setTenant i v).regs = s.regs := rfl
@[simp] theorem setTenant_shadow (i : Nat) (v : Tenant) : (s.setTenant i v).shadow = s.shadow := rfl
@[simp] theorem setTenant_blocks (i : Nat) (v : Tenant) : (s.setTenant i v).blocks = s.blocks := rfl
@[simp] theorem setTenant_stage64 (i : Nat) (v : Tenant) : (s.setTenant i v).stage64 = s.stage64 := rfl
@[simp] theorem setTenant_snap64 (i : Nat) (v : Tenant) : (s.setTenant i v).snap64 = s.snap64 := rfl
@[simp] theorem setTenant_paths (i : Nat) (v : Tenant) : (s.setTenant i v).paths = s.paths := rfl
@[simp] theorem setTenant_host (i : Nat) (v : Tenant) : (s.setTenant i v).host = s.host := rfl
@[simp] theorem setTenant_mbx (i : Nat) (v : Tenant) : (s.setTenant i v).mbx = s.mbx := rfl
@[simp] theorem setTenant_parts (i : Nat) (v : Tenant) : (s.setTenant i v).parts = s.parts := rfl
@[simp] theorem setTenant_spec (i : Nat) (v : Tenant) : (s.setTenant i v).spec = s.spec := rfl
@[simp] theorem setTenant_kv (i : Nat) (v : Tenant) : (s.setTenant i v).kv = s.kv := rfl
@[simp] theorem setTenant_we (i : Nat) (v : Tenant) : (s.setTenant i v).we = s.we := rfl
@[simp] theorem setTenant_mem (i : Nat) (v : Tenant) : (s.setTenant i v).mem = s.mem := rfl
@[simp] theorem setTenant_cores (i : Nat) (v : Tenant) : (s.setTenant i v).cores = s.cores := rfl
@[simp] theorem setTenant_fab (i : Nat) (v : Tenant) : (s.setTenant i v).fab = s.fab := rfl
@[simp] theorem setTenant_mlk (i : Nat) (v : Tenant) : (s.setTenant i v).mlk = s.mlk := rfl
@[simp] theorem setTenant_pwr (i : Nat) (v : Tenant) : (s.setTenant i v).pwr = s.pwr := rfl
@[simp] theorem setTenant_fr (i : Nat) (v : Tenant) : (s.setTenant i v).fr = s.fr := rfl
@[simp] theorem setTenant_rp (i : Nat) (v : Tenant) : (s.setTenant i v).rp = s.rp := rfl
@[simp] theorem setTenant_led (i : Nat) (v : Tenant) : (s.setTenant i v).led = s.led := rfl
@[simp] theorem setTenant_mg (i : Nat) (v : Tenant) : (s.setTenant i v).mg = s.mg := rfl
@[simp] theorem setTenant_b0 (i : Nat) (v : Tenant) : (s.setTenant i v).b0 = s.b0 := rfl
@[simp] theorem setTenant_out (i : Nat) (v : Tenant) : (s.setTenant i v).out = s.out := rfl
@[simp] theorem setTenant_free (i : Nat) (v : Tenant) : (s.setTenant i v).free = s.free := rfl
@[simp] theorem setTenant_fresh (i : Nat) (v : Tenant) : (s.setTenant i v).fresh = s.fresh := rfl
@[simp] theorem setTenant_pending (i : Nat) (v : Tenant) : (s.setTenant i v).pending = s.pending := rfl

/-! ### State.modMlk -/

@[simp] theorem modMlk_now (f : MlkSt → MlkSt) : (s.modMlk f).now = s.now := rfl
@[simp] theorem modMlk_regs (f : MlkSt → MlkSt) : (s.modMlk f).regs = s.regs := rfl
@[simp] theorem modMlk_shadow (f : MlkSt → MlkSt) : (s.modMlk f).shadow = s.shadow := rfl
@[simp] theorem modMlk_blocks (f : MlkSt → MlkSt) : (s.modMlk f).blocks = s.blocks := rfl
@[simp] theorem modMlk_stage64 (f : MlkSt → MlkSt) : (s.modMlk f).stage64 = s.stage64 := rfl
@[simp] theorem modMlk_snap64 (f : MlkSt → MlkSt) : (s.modMlk f).snap64 = s.snap64 := rfl
@[simp] theorem modMlk_paths (f : MlkSt → MlkSt) : (s.modMlk f).paths = s.paths := rfl
@[simp] theorem modMlk_host (f : MlkSt → MlkSt) : (s.modMlk f).host = s.host := rfl
@[simp] theorem modMlk_mbx (f : MlkSt → MlkSt) : (s.modMlk f).mbx = s.mbx := rfl
@[simp] theorem modMlk_serv (f : MlkSt → MlkSt) : (s.modMlk f).serv = s.serv := rfl
@[simp] theorem modMlk_parts (f : MlkSt → MlkSt) : (s.modMlk f).parts = s.parts := rfl
@[simp] theorem modMlk_spec (f : MlkSt → MlkSt) : (s.modMlk f).spec = s.spec := rfl
@[simp] theorem modMlk_kv (f : MlkSt → MlkSt) : (s.modMlk f).kv = s.kv := rfl
@[simp] theorem modMlk_we (f : MlkSt → MlkSt) : (s.modMlk f).we = s.we := rfl
@[simp] theorem modMlk_mem (f : MlkSt → MlkSt) : (s.modMlk f).mem = s.mem := rfl
@[simp] theorem modMlk_cores (f : MlkSt → MlkSt) : (s.modMlk f).cores = s.cores := rfl
@[simp] theorem modMlk_fab (f : MlkSt → MlkSt) : (s.modMlk f).fab = s.fab := rfl
@[simp] theorem modMlk_pwr (f : MlkSt → MlkSt) : (s.modMlk f).pwr = s.pwr := rfl
@[simp] theorem modMlk_fr (f : MlkSt → MlkSt) : (s.modMlk f).fr = s.fr := rfl
@[simp] theorem modMlk_rp (f : MlkSt → MlkSt) : (s.modMlk f).rp = s.rp := rfl
@[simp] theorem modMlk_led (f : MlkSt → MlkSt) : (s.modMlk f).led = s.led := rfl
@[simp] theorem modMlk_mg (f : MlkSt → MlkSt) : (s.modMlk f).mg = s.mg := rfl
@[simp] theorem modMlk_b0 (f : MlkSt → MlkSt) : (s.modMlk f).b0 = s.b0 := rfl
@[simp] theorem modMlk_out (f : MlkSt → MlkSt) : (s.modMlk f).out = s.out := rfl
@[simp] theorem modMlk_free (f : MlkSt → MlkSt) : (s.modMlk f).free = s.free := rfl
@[simp] theorem modMlk_fresh (f : MlkSt → MlkSt) : (s.modMlk f).fresh = s.fresh := rfl
@[simp] theorem modMlk_pending (f : MlkSt → MlkSt) : (s.modMlk f).pending = s.pending := rfl

/-! ### State.modPort -/

@[simp] theorem modPort_now (p : Nat) (f : MPort → MPort) : (s.modPort p f).now = s.now := rfl
@[simp] theorem modPort_regs (p : Nat) (f : MPort → MPort) : (s.modPort p f).regs = s.regs := rfl
@[simp] theorem modPort_shadow (p : Nat) (f : MPort → MPort) : (s.modPort p f).shadow = s.shadow := rfl
@[simp] theorem modPort_blocks (p : Nat) (f : MPort → MPort) : (s.modPort p f).blocks = s.blocks := rfl
@[simp] theorem modPort_stage64 (p : Nat) (f : MPort → MPort) : (s.modPort p f).stage64 = s.stage64 := rfl
@[simp] theorem modPort_snap64 (p : Nat) (f : MPort → MPort) : (s.modPort p f).snap64 = s.snap64 := rfl
@[simp] theorem modPort_paths (p : Nat) (f : MPort → MPort) : (s.modPort p f).paths = s.paths := rfl
@[simp] theorem modPort_host (p : Nat) (f : MPort → MPort) : (s.modPort p f).host = s.host := rfl
@[simp] theorem modPort_mbx (p : Nat) (f : MPort → MPort) : (s.modPort p f).mbx = s.mbx := rfl
@[simp] theorem modPort_serv (p : Nat) (f : MPort → MPort) : (s.modPort p f).serv = s.serv := rfl
@[simp] theorem modPort_parts (p : Nat) (f : MPort → MPort) : (s.modPort p f).parts = s.parts := rfl
@[simp] theorem modPort_spec (p : Nat) (f : MPort → MPort) : (s.modPort p f).spec = s.spec := rfl
@[simp] theorem modPort_kv (p : Nat) (f : MPort → MPort) : (s.modPort p f).kv = s.kv := rfl
@[simp] theorem modPort_we (p : Nat) (f : MPort → MPort) : (s.modPort p f).we = s.we := rfl
@[simp] theorem modPort_mem (p : Nat) (f : MPort → MPort) : (s.modPort p f).mem = s.mem := rfl
@[simp] theorem modPort_cores (p : Nat) (f : MPort → MPort) : (s.modPort p f).cores = s.cores := rfl
@[simp] theorem modPort_fab (p : Nat) (f : MPort → MPort) : (s.modPort p f).fab = s.fab := rfl
@[simp] theorem modPort_pwr (p : Nat) (f : MPort → MPort) : (s.modPort p f).pwr = s.pwr := rfl
@[simp] theorem modPort_fr (p : Nat) (f : MPort → MPort) : (s.modPort p f).fr = s.fr := rfl
@[simp] theorem modPort_rp (p : Nat) (f : MPort → MPort) : (s.modPort p f).rp = s.rp := rfl
@[simp] theorem modPort_led (p : Nat) (f : MPort → MPort) : (s.modPort p f).led = s.led := rfl
@[simp] theorem modPort_mg (p : Nat) (f : MPort → MPort) : (s.modPort p f).mg = s.mg := rfl
@[simp] theorem modPort_b0 (p : Nat) (f : MPort → MPort) : (s.modPort p f).b0 = s.b0 := rfl
@[simp] theorem modPort_out (p : Nat) (f : MPort → MPort) : (s.modPort p f).out = s.out := rfl
@[simp] theorem modPort_free (p : Nat) (f : MPort → MPort) : (s.modPort p f).free = s.free := rfl
@[simp] theorem modPort_fresh (p : Nat) (f : MPort → MPort) : (s.modPort p f).fresh = s.fresh := rfl
@[simp] theorem modPort_pending (p : Nat) (f : MPort → MPort) : (s.modPort p f).pending = s.pending := rfl

/-! ### State.modPeer -/

@[simp] theorem modPeer_now (m : Nat) (f : MPeer → MPeer) : (s.modPeer m f).now = s.now := rfl
@[simp] theorem modPeer_regs (m : Nat) (f : MPeer → MPeer) : (s.modPeer m f).regs = s.regs := rfl
@[simp] theorem modPeer_shadow (m : Nat) (f : MPeer → MPeer) : (s.modPeer m f).shadow = s.shadow := rfl
@[simp] theorem modPeer_blocks (m : Nat) (f : MPeer → MPeer) : (s.modPeer m f).blocks = s.blocks := rfl
@[simp] theorem modPeer_stage64 (m : Nat) (f : MPeer → MPeer) : (s.modPeer m f).stage64 = s.stage64 := rfl
@[simp] theorem modPeer_snap64 (m : Nat) (f : MPeer → MPeer) : (s.modPeer m f).snap64 = s.snap64 := rfl
@[simp] theorem modPeer_paths (m : Nat) (f : MPeer → MPeer) : (s.modPeer m f).paths = s.paths := rfl
@[simp] theorem modPeer_host (m : Nat) (f : MPeer → MPeer) : (s.modPeer m f).host = s.host := rfl
@[simp] theorem modPeer_mbx (m : Nat) (f : MPeer → MPeer) : (s.modPeer m f).mbx = s.mbx := rfl
@[simp] theorem modPeer_serv (m : Nat) (f : MPeer → MPeer) : (s.modPeer m f).serv = s.serv := rfl
@[simp] theorem modPeer_parts (m : Nat) (f : MPeer → MPeer) : (s.modPeer m f).parts = s.parts := rfl
@[simp] theorem modPeer_spec (m : Nat) (f : MPeer → MPeer) : (s.modPeer m f).spec = s.spec := rfl
@[simp] theorem modPeer_kv (m : Nat) (f : MPeer → MPeer) : (s.modPeer m f).kv = s.kv := rfl
@[simp] theorem modPeer_we (m : Nat) (f : MPeer → MPeer) : (s.modPeer m f).we = s.we := rfl
@[simp] theorem modPeer_mem (m : Nat) (f : MPeer → MPeer) : (s.modPeer m f).mem = s.mem := rfl
@[simp] theorem modPeer_cores (m : Nat) (f : MPeer → MPeer) : (s.modPeer m f).cores = s.cores := rfl
@[simp] theorem modPeer_fab (m : Nat) (f : MPeer → MPeer) : (s.modPeer m f).fab = s.fab := rfl
@[simp] theorem modPeer_pwr (m : Nat) (f : MPeer → MPeer) : (s.modPeer m f).pwr = s.pwr := rfl
@[simp] theorem modPeer_fr (m : Nat) (f : MPeer → MPeer) : (s.modPeer m f).fr = s.fr := rfl
@[simp] theorem modPeer_rp (m : Nat) (f : MPeer → MPeer) : (s.modPeer m f).rp = s.rp := rfl
@[simp] theorem modPeer_led (m : Nat) (f : MPeer → MPeer) : (s.modPeer m f).led = s.led := rfl
@[simp] theorem modPeer_mg (m : Nat) (f : MPeer → MPeer) : (s.modPeer m f).mg = s.mg := rfl
@[simp] theorem modPeer_b0 (m : Nat) (f : MPeer → MPeer) : (s.modPeer m f).b0 = s.b0 := rfl
@[simp] theorem modPeer_out (m : Nat) (f : MPeer → MPeer) : (s.modPeer m f).out = s.out := rfl
@[simp] theorem modPeer_free (m : Nat) (f : MPeer → MPeer) : (s.modPeer m f).free = s.free := rfl
@[simp] theorem modPeer_fresh (m : Nat) (f : MPeer → MPeer) : (s.modPeer m f).fresh = s.fresh := rfl
@[simp] theorem modPeer_pending (m : Nat) (f : MPeer → MPeer) : (s.modPeer m f).pending = s.pending := rfl

/-! ### State.modWin -/

@[simp] theorem modWin_now (w : Nat) (f : RWin → RWin) : (s.modWin w f).now = s.now := rfl
@[simp] theorem modWin_regs (w : Nat) (f : RWin → RWin) : (s.modWin w f).regs = s.regs := rfl
@[simp] theorem modWin_shadow (w : Nat) (f : RWin → RWin) : (s.modWin w f).shadow = s.shadow := rfl
@[simp] theorem modWin_blocks (w : Nat) (f : RWin → RWin) : (s.modWin w f).blocks = s.blocks := rfl
@[simp] theorem modWin_stage64 (w : Nat) (f : RWin → RWin) : (s.modWin w f).stage64 = s.stage64 := rfl
@[simp] theorem modWin_snap64 (w : Nat) (f : RWin → RWin) : (s.modWin w f).snap64 = s.snap64 := rfl
@[simp] theorem modWin_paths (w : Nat) (f : RWin → RWin) : (s.modWin w f).paths = s.paths := rfl
@[simp] theorem modWin_host (w : Nat) (f : RWin → RWin) : (s.modWin w f).host = s.host := rfl
@[simp] theorem modWin_mbx (w : Nat) (f : RWin → RWin) : (s.modWin w f).mbx = s.mbx := rfl
@[simp] theorem modWin_serv (w : Nat) (f : RWin → RWin) : (s.modWin w f).serv = s.serv := rfl
@[simp] theorem modWin_parts (w : Nat) (f : RWin → RWin) : (s.modWin w f).parts = s.parts := rfl
@[simp] theorem modWin_spec (w : Nat) (f : RWin → RWin) : (s.modWin w f).spec = s.spec := rfl
@[simp] theorem modWin_kv (w : Nat) (f : RWin → RWin) : (s.modWin w f).kv = s.kv := rfl
@[simp] theorem modWin_we (w : Nat) (f : RWin → RWin) : (s.modWin w f).we = s.we := rfl
@[simp] theorem modWin_mem (w : Nat) (f : RWin → RWin) : (s.modWin w f).mem = s.mem := rfl
@[simp] theorem modWin_cores (w : Nat) (f : RWin → RWin) : (s.modWin w f).cores = s.cores := rfl
@[simp] theorem modWin_fab (w : Nat) (f : RWin → RWin) : (s.modWin w f).fab = s.fab := rfl
@[simp] theorem modWin_pwr (w : Nat) (f : RWin → RWin) : (s.modWin w f).pwr = s.pwr := rfl
@[simp] theorem modWin_fr (w : Nat) (f : RWin → RWin) : (s.modWin w f).fr = s.fr := rfl
@[simp] theorem modWin_rp (w : Nat) (f : RWin → RWin) : (s.modWin w f).rp = s.rp := rfl
@[simp] theorem modWin_led (w : Nat) (f : RWin → RWin) : (s.modWin w f).led = s.led := rfl
@[simp] theorem modWin_mg (w : Nat) (f : RWin → RWin) : (s.modWin w f).mg = s.mg := rfl
@[simp] theorem modWin_b0 (w : Nat) (f : RWin → RWin) : (s.modWin w f).b0 = s.b0 := rfl
@[simp] theorem modWin_out (w : Nat) (f : RWin → RWin) : (s.modWin w f).out = s.out := rfl
@[simp] theorem modWin_free (w : Nat) (f : RWin → RWin) : (s.modWin w f).free = s.free := rfl
@[simp] theorem modWin_fresh (w : Nat) (f : RWin → RWin) : (s.modWin w f).fresh = s.fresh := rfl
@[simp] theorem modWin_pending (w : Nat) (f : RWin → RWin) : (s.modWin w f).pending = s.pending := rfl

/-! ### State.modMg -/

@[simp] theorem modMg_now (f : MgmtSt → MgmtSt) : (s.modMg f).now = s.now := rfl
@[simp] theorem modMg_regs (f : MgmtSt → MgmtSt) : (s.modMg f).regs = s.regs := rfl
@[simp] theorem modMg_shadow (f : MgmtSt → MgmtSt) : (s.modMg f).shadow = s.shadow := rfl
@[simp] theorem modMg_blocks (f : MgmtSt → MgmtSt) : (s.modMg f).blocks = s.blocks := rfl
@[simp] theorem modMg_stage64 (f : MgmtSt → MgmtSt) : (s.modMg f).stage64 = s.stage64 := rfl
@[simp] theorem modMg_snap64 (f : MgmtSt → MgmtSt) : (s.modMg f).snap64 = s.snap64 := rfl
@[simp] theorem modMg_paths (f : MgmtSt → MgmtSt) : (s.modMg f).paths = s.paths := rfl
@[simp] theorem modMg_host (f : MgmtSt → MgmtSt) : (s.modMg f).host = s.host := rfl
@[simp] theorem modMg_mbx (f : MgmtSt → MgmtSt) : (s.modMg f).mbx = s.mbx := rfl
@[simp] theorem modMg_serv (f : MgmtSt → MgmtSt) : (s.modMg f).serv = s.serv := rfl
@[simp] theorem modMg_parts (f : MgmtSt → MgmtSt) : (s.modMg f).parts = s.parts := rfl
@[simp] theorem modMg_spec (f : MgmtSt → MgmtSt) : (s.modMg f).spec = s.spec := rfl
@[simp] theorem modMg_kv (f : MgmtSt → MgmtSt) : (s.modMg f).kv = s.kv := rfl
@[simp] theorem modMg_we (f : MgmtSt → MgmtSt) : (s.modMg f).we = s.we := rfl
@[simp] theorem modMg_mem (f : MgmtSt → MgmtSt) : (s.modMg f).mem = s.mem := rfl
@[simp] theorem modMg_cores (f : MgmtSt → MgmtSt) : (s.modMg f).cores = s.cores := rfl
@[simp] theorem modMg_fab (f : MgmtSt → MgmtSt) : (s.modMg f).fab = s.fab := rfl
@[simp] theorem modMg_mlk (f : MgmtSt → MgmtSt) : (s.modMg f).mlk = s.mlk := rfl
@[simp] theorem modMg_pwr (f : MgmtSt → MgmtSt) : (s.modMg f).pwr = s.pwr := rfl
@[simp] theorem modMg_fr (f : MgmtSt → MgmtSt) : (s.modMg f).fr = s.fr := rfl
@[simp] theorem modMg_rp (f : MgmtSt → MgmtSt) : (s.modMg f).rp = s.rp := rfl
@[simp] theorem modMg_led (f : MgmtSt → MgmtSt) : (s.modMg f).led = s.led := rfl
@[simp] theorem modMg_b0 (f : MgmtSt → MgmtSt) : (s.modMg f).b0 = s.b0 := rfl
@[simp] theorem modMg_out (f : MgmtSt → MgmtSt) : (s.modMg f).out = s.out := rfl
@[simp] theorem modMg_free (f : MgmtSt → MgmtSt) : (s.modMg f).free = s.free := rfl
@[simp] theorem modMg_fresh (f : MgmtSt → MgmtSt) : (s.modMg f).fresh = s.fresh := rfl
@[simp] theorem modMg_pending (f : MgmtSt → MgmtSt) : (s.modMg f).pending = s.pending := rfl

/-! ### State.modRp -/

@[simp] theorem modRp_now (f : RpSt → RpSt) : (s.modRp f).now = s.now := rfl
@[simp] theorem modRp_regs (f : RpSt → RpSt) : (s.modRp f).regs = s.regs := rfl
@[simp] theorem modRp_shadow (f : RpSt → RpSt) : (s.modRp f).shadow = s.shadow := rfl
@[simp] theorem modRp_blocks (f : RpSt → RpSt) : (s.modRp f).blocks = s.blocks := rfl
@[simp] theorem modRp_stage64 (f : RpSt → RpSt) : (s.modRp f).stage64 = s.stage64 := rfl
@[simp] theorem modRp_snap64 (f : RpSt → RpSt) : (s.modRp f).snap64 = s.snap64 := rfl
@[simp] theorem modRp_paths (f : RpSt → RpSt) : (s.modRp f).paths = s.paths := rfl
@[simp] theorem modRp_host (f : RpSt → RpSt) : (s.modRp f).host = s.host := rfl
@[simp] theorem modRp_mbx (f : RpSt → RpSt) : (s.modRp f).mbx = s.mbx := rfl
@[simp] theorem modRp_serv (f : RpSt → RpSt) : (s.modRp f).serv = s.serv := rfl
@[simp] theorem modRp_parts (f : RpSt → RpSt) : (s.modRp f).parts = s.parts := rfl
@[simp] theorem modRp_spec (f : RpSt → RpSt) : (s.modRp f).spec = s.spec := rfl
@[simp] theorem modRp_kv (f : RpSt → RpSt) : (s.modRp f).kv = s.kv := rfl
@[simp] theorem modRp_we (f : RpSt → RpSt) : (s.modRp f).we = s.we := rfl
@[simp] theorem modRp_mem (f : RpSt → RpSt) : (s.modRp f).mem = s.mem := rfl
@[simp] theorem modRp_cores (f : RpSt → RpSt) : (s.modRp f).cores = s.cores := rfl
@[simp] theorem modRp_fab (f : RpSt → RpSt) : (s.modRp f).fab = s.fab := rfl
@[simp] theorem modRp_mlk (f : RpSt → RpSt) : (s.modRp f).mlk = s.mlk := rfl
@[simp] theorem modRp_pwr (f : RpSt → RpSt) : (s.modRp f).pwr = s.pwr := rfl
@[simp] theorem modRp_fr (f : RpSt → RpSt) : (s.modRp f).fr = s.fr := rfl
@[simp] theorem modRp_led (f : RpSt → RpSt) : (s.modRp f).led = s.led := rfl
@[simp] theorem modRp_mg (f : RpSt → RpSt) : (s.modRp f).mg = s.mg := rfl
@[simp] theorem modRp_b0 (f : RpSt → RpSt) : (s.modRp f).b0 = s.b0 := rfl
@[simp] theorem modRp_out (f : RpSt → RpSt) : (s.modRp f).out = s.out := rfl
@[simp] theorem modRp_free (f : RpSt → RpSt) : (s.modRp f).free = s.free := rfl
@[simp] theorem modRp_fresh (f : RpSt → RpSt) : (s.modRp f).fresh = s.fresh := rfl
@[simp] theorem modRp_pending (f : RpSt → RpSt) : (s.modRp f).pending = s.pending := rfl

/-! ### State.modTree -/

@[simp] theorem modTree_now (p slot : Nat) (f : Tree → Tree) : (s.modTree p slot f).now = s.now := rfl
@[simp] theorem modTree_regs (p slot : Nat) (f : Tree → Tree) : (s.modTree p slot f).regs = s.regs := rfl
@[simp] theorem modTree_shadow (p slot : Nat) (f : Tree → Tree) : (s.modTree p slot f).shadow = s.shadow := rfl
@[simp] theorem modTree_blocks (p slot : Nat) (f : Tree → Tree) : (s.modTree p slot f).blocks = s.blocks := rfl
@[simp] theorem modTree_stage64 (p slot : Nat) (f : Tree → Tree) : (s.modTree p slot f).stage64 = s.stage64 := rfl
@[simp] theorem modTree_snap64 (p slot : Nat) (f : Tree → Tree) : (s.modTree p slot f).snap64 = s.snap64 := rfl
@[simp] theorem modTree_paths (p slot : Nat) (f : Tree → Tree) : (s.modTree p slot f).paths = s.paths := rfl
@[simp] theorem modTree_host (p slot : Nat) (f : Tree → Tree) : (s.modTree p slot f).host = s.host := rfl
@[simp] theorem modTree_mbx (p slot : Nat) (f : Tree → Tree) : (s.modTree p slot f).mbx = s.mbx := rfl
@[simp] theorem modTree_serv (p slot : Nat) (f : Tree → Tree) : (s.modTree p slot f).serv = s.serv := rfl
@[simp] theorem modTree_parts (p slot : Nat) (f : Tree → Tree) : (s.modTree p slot f).parts = s.parts := rfl
@[simp] theorem modTree_kv (p slot : Nat) (f : Tree → Tree) : (s.modTree p slot f).kv = s.kv := rfl
@[simp] theorem modTree_we (p slot : Nat) (f : Tree → Tree) : (s.modTree p slot f).we = s.we := rfl
@[simp] theorem modTree_mem (p slot : Nat) (f : Tree → Tree) : (s.modTree p slot f).mem = s.mem := rfl
@[simp] theorem modTree_cores (p slot : Nat) (f : Tree → Tree) : (s.modTree p slot f).cores = s.cores := rfl
@[simp] theorem modTree_fab (p slot : Nat) (f : Tree → Tree) : (s.modTree p slot f).fab = s.fab := rfl
@[simp] theorem modTree_mlk (p slot : Nat) (f : Tree → Tree) : (s.modTree p slot f).mlk = s.mlk := rfl
@[simp] theorem modTree_pwr (p slot : Nat) (f : Tree → Tree) : (s.modTree p slot f).pwr = s.pwr := rfl
@[simp] theorem modTree_fr (p slot : Nat) (f : Tree → Tree) : (s.modTree p slot f).fr = s.fr := rfl
@[simp] theorem modTree_rp (p slot : Nat) (f : Tree → Tree) : (s.modTree p slot f).rp = s.rp := rfl
@[simp] theorem modTree_led (p slot : Nat) (f : Tree → Tree) : (s.modTree p slot f).led = s.led := rfl
@[simp] theorem modTree_mg (p slot : Nat) (f : Tree → Tree) : (s.modTree p slot f).mg = s.mg := rfl
@[simp] theorem modTree_b0 (p slot : Nat) (f : Tree → Tree) : (s.modTree p slot f).b0 = s.b0 := rfl
@[simp] theorem modTree_out (p slot : Nat) (f : Tree → Tree) : (s.modTree p slot f).out = s.out := rfl
@[simp] theorem modTree_free (p slot : Nat) (f : Tree → Tree) : (s.modTree p slot f).free = s.free := rfl
@[simp] theorem modTree_fresh (p slot : Nat) (f : Tree → Tree) : (s.modTree p slot f).fresh = s.fresh := rfl
@[simp] theorem modTree_pending (p slot : Nat) (f : Tree → Tree) : (s.modTree p slot f).pending = s.pending := rfl

/-! ### State.setCore -/

@[simp] theorem setCore_now (site : Nat) (c : Core) : (s.setCore site c).now = s.now := rfl
@[simp] theorem setCore_regs (site : Nat) (c : Core) : (s.setCore site c).regs = s.regs := rfl
@[simp] theorem setCore_shadow (site : Nat) (c : Core) : (s.setCore site c).shadow = s.shadow := rfl
@[simp] theorem setCore_blocks (site : Nat) (c : Core) : (s.setCore site c).blocks = s.blocks := rfl
@[simp] theorem setCore_stage64 (site : Nat) (c : Core) : (s.setCore site c).stage64 = s.stage64 := rfl
@[simp] theorem setCore_snap64 (site : Nat) (c : Core) : (s.setCore site c).snap64 = s.snap64 := rfl
@[simp] theorem setCore_paths (site : Nat) (c : Core) : (s.setCore site c).paths = s.paths := rfl
@[simp] theorem setCore_host (site : Nat) (c : Core) : (s.setCore site c).host = s.host := rfl
@[simp] theorem setCore_mbx (site : Nat) (c : Core) : (s.setCore site c).mbx = s.mbx := rfl
@[simp] theorem setCore_serv (site : Nat) (c : Core) : (s.setCore site c).serv = s.serv := rfl
@[simp] theorem setCore_parts (site : Nat) (c : Core) : (s.setCore site c).parts = s.parts := rfl
@[simp] theorem setCore_spec (site : Nat) (c : Core) : (s.setCore site c).spec = s.spec := rfl
@[simp] theorem setCore_kv (site : Nat) (c : Core) : (s.setCore site c).kv = s.kv := rfl
@[simp] theorem setCore_we (site : Nat) (c : Core) : (s.setCore site c).we = s.we := rfl
@[simp] theorem setCore_mem (site : Nat) (c : Core) : (s.setCore site c).mem = s.mem := rfl
@[simp] theorem setCore_fab (site : Nat) (c : Core) : (s.setCore site c).fab = s.fab := rfl
@[simp] theorem setCore_mlk (site : Nat) (c : Core) : (s.setCore site c).mlk = s.mlk := rfl
@[simp] theorem setCore_pwr (site : Nat) (c : Core) : (s.setCore site c).pwr = s.pwr := rfl
@[simp] theorem setCore_fr (site : Nat) (c : Core) : (s.setCore site c).fr = s.fr := rfl
@[simp] theorem setCore_rp (site : Nat) (c : Core) : (s.setCore site c).rp = s.rp := rfl
@[simp] theorem setCore_led (site : Nat) (c : Core) : (s.setCore site c).led = s.led := rfl
@[simp] theorem setCore_mg (site : Nat) (c : Core) : (s.setCore site c).mg = s.mg := rfl
@[simp] theorem setCore_b0 (site : Nat) (c : Core) : (s.setCore site c).b0 = s.b0 := rfl
@[simp] theorem setCore_out (site : Nat) (c : Core) : (s.setCore site c).out = s.out := rfl
@[simp] theorem setCore_free (site : Nat) (c : Core) : (s.setCore site c).free = s.free := rfl
@[simp] theorem setCore_fresh (site : Nat) (c : Core) : (s.setCore site c).fresh = s.fresh := rfl
@[simp] theorem setCore_pending (site : Nat) (c : Core) : (s.setCore site c).pending = s.pending := rfl

/-! ### State.modCore -/

@[simp] theorem modCore_now (site : Nat) (f : Core → Core) : (s.modCore site f).now = s.now := rfl
@[simp] theorem modCore_regs (site : Nat) (f : Core → Core) : (s.modCore site f).regs = s.regs := rfl
@[simp] theorem modCore_shadow (site : Nat) (f : Core → Core) : (s.modCore site f).shadow = s.shadow := rfl
@[simp] theorem modCore_blocks (site : Nat) (f : Core → Core) : (s.modCore site f).blocks = s.blocks := rfl
@[simp] theorem modCore_stage64 (site : Nat) (f : Core → Core) : (s.modCore site f).stage64 = s.stage64 := rfl
@[simp] theorem modCore_snap64 (site : Nat) (f : Core → Core) : (s.modCore site f).snap64 = s.snap64 := rfl
@[simp] theorem modCore_paths (site : Nat) (f : Core → Core) : (s.modCore site f).paths = s.paths := rfl
@[simp] theorem modCore_host (site : Nat) (f : Core → Core) : (s.modCore site f).host = s.host := rfl
@[simp] theorem modCore_mbx (site : Nat) (f : Core → Core) : (s.modCore site f).mbx = s.mbx := rfl
@[simp] theorem modCore_serv (site : Nat) (f : Core → Core) : (s.modCore site f).serv = s.serv := rfl
@[simp] theorem modCore_parts (site : Nat) (f : Core → Core) : (s.modCore site f).parts = s.parts := rfl
@[simp] theorem modCore_spec (site : Nat) (f : Core → Core) : (s.modCore site f).spec = s.spec := rfl
@[simp] theorem modCore_kv (site : Nat) (f : Core → Core) : (s.modCore site f).kv = s.kv := rfl
@[simp] theorem modCore_we (site : Nat) (f : Core → Core) : (s.modCore site f).we = s.we := rfl
@[simp] theorem modCore_mem (site : Nat) (f : Core → Core) : (s.modCore site f).mem = s.mem := rfl
@[simp] theorem modCore_fab (site : Nat) (f : Core → Core) : (s.modCore site f).fab = s.fab := rfl
@[simp] theorem modCore_mlk (site : Nat) (f : Core → Core) : (s.modCore site f).mlk = s.mlk := rfl
@[simp] theorem modCore_pwr (site : Nat) (f : Core → Core) : (s.modCore site f).pwr = s.pwr := rfl
@[simp] theorem modCore_fr (site : Nat) (f : Core → Core) : (s.modCore site f).fr = s.fr := rfl
@[simp] theorem modCore_rp (site : Nat) (f : Core → Core) : (s.modCore site f).rp = s.rp := rfl
@[simp] theorem modCore_led (site : Nat) (f : Core → Core) : (s.modCore site f).led = s.led := rfl
@[simp] theorem modCore_mg (site : Nat) (f : Core → Core) : (s.modCore site f).mg = s.mg := rfl
@[simp] theorem modCore_b0 (site : Nat) (f : Core → Core) : (s.modCore site f).b0 = s.b0 := rfl
@[simp] theorem modCore_out (site : Nat) (f : Core → Core) : (s.modCore site f).out = s.out := rfl
@[simp] theorem modCore_free (site : Nat) (f : Core → Core) : (s.modCore site f).free = s.free := rfl
@[simp] theorem modCore_fresh (site : Nat) (f : Core → Core) : (s.modCore site f).fresh = s.fresh := rfl
@[simp] theorem modCore_pending (site : Nat) (f : Core → Core) : (s.modCore site f).pending = s.pending := rfl

/-! ### State.modMbx -/

@[simp] theorem modMbx_now (f : MbxSt → MbxSt) : (s.modMbx f).now = s.now := rfl
@[simp] theorem modMbx_regs (f : MbxSt → MbxSt) : (s.modMbx f).regs = s.regs := rfl
@[simp] theorem modMbx_shadow (f : MbxSt → MbxSt) : (s.modMbx f).shadow = s.shadow := rfl
@[simp] theorem modMbx_blocks (f : MbxSt → MbxSt) : (s.modMbx f).blocks = s.blocks := rfl
@[simp] theorem modMbx_stage64 (f : MbxSt → MbxSt) : (s.modMbx f).stage64 = s.stage64 := rfl
@[simp] theorem modMbx_snap64 (f : MbxSt → MbxSt) : (s.modMbx f).snap64 = s.snap64 := rfl
@[simp] theorem modMbx_paths (f : MbxSt → MbxSt) : (s.modMbx f).paths = s.paths := rfl
@[simp] theorem modMbx_host (f : MbxSt → MbxSt) : (s.modMbx f).host = s.host := rfl
@[simp] theorem modMbx_serv (f : MbxSt → MbxSt) : (s.modMbx f).serv = s.serv := rfl
@[simp] theorem modMbx_parts (f : MbxSt → MbxSt) : (s.modMbx f).parts = s.parts := rfl
@[simp] theorem modMbx_spec (f : MbxSt → MbxSt) : (s.modMbx f).spec = s.spec := rfl
@[simp] theorem modMbx_kv (f : MbxSt → MbxSt) : (s.modMbx f).kv = s.kv := rfl
@[simp] theorem modMbx_we (f : MbxSt → MbxSt) : (s.modMbx f).we = s.we := rfl
@[simp] theorem modMbx_mem (f : MbxSt → MbxSt) : (s.modMbx f).mem = s.mem := rfl
@[simp] theorem modMbx_cores (f : MbxSt → MbxSt) : (s.modMbx f).cores = s.cores := rfl
@[simp] theorem modMbx_fab (f : MbxSt → MbxSt) : (s.modMbx f).fab = s.fab := rfl
@[simp] theorem modMbx_mlk (f : MbxSt → MbxSt) : (s.modMbx f).mlk = s.mlk := rfl
@[simp] theorem modMbx_pwr (f : MbxSt → MbxSt) : (s.modMbx f).pwr = s.pwr := rfl
@[simp] theorem modMbx_fr (f : MbxSt → MbxSt) : (s.modMbx f).fr = s.fr := rfl
@[simp] theorem modMbx_rp (f : MbxSt → MbxSt) : (s.modMbx f).rp = s.rp := rfl
@[simp] theorem modMbx_led (f : MbxSt → MbxSt) : (s.modMbx f).led = s.led := rfl
@[simp] theorem modMbx_mg (f : MbxSt → MbxSt) : (s.modMbx f).mg = s.mg := rfl
@[simp] theorem modMbx_b0 (f : MbxSt → MbxSt) : (s.modMbx f).b0 = s.b0 := rfl
@[simp] theorem modMbx_out (f : MbxSt → MbxSt) : (s.modMbx f).out = s.out := rfl
@[simp] theorem modMbx_free (f : MbxSt → MbxSt) : (s.modMbx f).free = s.free := rfl
@[simp] theorem modMbx_fresh (f : MbxSt → MbxSt) : (s.modMbx f).fresh = s.fresh := rfl
@[simp] theorem modMbx_pending (f : MbxSt → MbxSt) : (s.modMbx f).pending = s.pending := rfl

/-! ### State.setBox -/

@[simp] theorem setBox_now (m : Nat) (b : Mbx) : (s.setBox m b).now = s.now := rfl
@[simp] theorem setBox_regs (m : Nat) (b : Mbx) : (s.setBox m b).regs = s.regs := rfl
@[simp] theorem setBox_shadow (m : Nat) (b : Mbx) : (s.setBox m b).shadow = s.shadow := rfl
@[simp] theorem setBox_blocks (m : Nat) (b : Mbx) : (s.setBox m b).blocks = s.blocks := rfl
@[simp] theorem setBox_stage64 (m : Nat) (b : Mbx) : (s.setBox m b).stage64 = s.stage64 := rfl
@[simp] theorem setBox_snap64 (m : Nat) (b : Mbx) : (s.setBox m b).snap64 = s.snap64 := rfl
@[simp] theorem setBox_paths (m : Nat) (b : Mbx) : (s.setBox m b).paths = s.paths := rfl
@[simp] theorem setBox_host (m : Nat) (b : Mbx) : (s.setBox m b).host = s.host := rfl
@[simp] theorem setBox_serv (m : Nat) (b : Mbx) : (s.setBox m b).serv = s.serv := rfl
@[simp] theorem setBox_parts (m : Nat) (b : Mbx) : (s.setBox m b).parts = s.parts := rfl
@[simp] theorem setBox_spec (m : Nat) (b : Mbx) : (s.setBox m b).spec = s.spec := rfl
@[simp] theorem setBox_kv (m : Nat) (b : Mbx) : (s.setBox m b).kv = s.kv := rfl
@[simp] theorem setBox_we (m : Nat) (b : Mbx) : (s.setBox m b).we = s.we := rfl
@[simp] theorem setBox_mem (m : Nat) (b : Mbx) : (s.setBox m b).mem = s.mem := rfl
@[simp] theorem setBox_cores (m : Nat) (b : Mbx) : (s.setBox m b).cores = s.cores := rfl
@[simp] theorem setBox_fab (m : Nat) (b : Mbx) : (s.setBox m b).fab = s.fab := rfl
@[simp] theorem setBox_mlk (m : Nat) (b : Mbx) : (s.setBox m b).mlk = s.mlk := rfl
@[simp] theorem setBox_pwr (m : Nat) (b : Mbx) : (s.setBox m b).pwr = s.pwr := rfl
@[simp] theorem setBox_fr (m : Nat) (b : Mbx) : (s.setBox m b).fr = s.fr := rfl
@[simp] theorem setBox_rp (m : Nat) (b : Mbx) : (s.setBox m b).rp = s.rp := rfl
@[simp] theorem setBox_led (m : Nat) (b : Mbx) : (s.setBox m b).led = s.led := rfl
@[simp] theorem setBox_mg (m : Nat) (b : Mbx) : (s.setBox m b).mg = s.mg := rfl
@[simp] theorem setBox_b0 (m : Nat) (b : Mbx) : (s.setBox m b).b0 = s.b0 := rfl
@[simp] theorem setBox_out (m : Nat) (b : Mbx) : (s.setBox m b).out = s.out := rfl
@[simp] theorem setBox_free (m : Nat) (b : Mbx) : (s.setBox m b).free = s.free := rfl
@[simp] theorem setBox_fresh (m : Nat) (b : Mbx) : (s.setBox m b).fresh = s.fresh := rfl
@[simp] theorem setBox_pending (m : Nat) (b : Mbx) : (s.setBox m b).pending = s.pending := rfl

/-! ### State.modBox -/

@[simp] theorem modBox_now (m : Nat) (f : Mbx → Mbx) : (s.modBox m f).now = s.now := rfl
@[simp] theorem modBox_regs (m : Nat) (f : Mbx → Mbx) : (s.modBox m f).regs = s.regs := rfl
@[simp] theorem modBox_shadow (m : Nat) (f : Mbx → Mbx) : (s.modBox m f).shadow = s.shadow := rfl
@[simp] theorem modBox_blocks (m : Nat) (f : Mbx → Mbx) : (s.modBox m f).blocks = s.blocks := rfl
@[simp] theorem modBox_stage64 (m : Nat) (f : Mbx → Mbx) : (s.modBox m f).stage64 = s.stage64 := rfl
@[simp] theorem modBox_snap64 (m : Nat) (f : Mbx → Mbx) : (s.modBox m f).snap64 = s.snap64 := rfl
@[simp] theorem modBox_paths (m : Nat) (f : Mbx → Mbx) : (s.modBox m f).paths = s.paths := rfl
@[simp] theorem modBox_host (m : Nat) (f : Mbx → Mbx) : (s.modBox m f).host = s.host := rfl
@[simp] theorem modBox_serv (m : Nat) (f : Mbx → Mbx) : (s.modBox m f).serv = s.serv := rfl
@[simp] theorem modBox_parts (m : Nat) (f : Mbx → Mbx) : (s.modBox m f).parts = s.parts := rfl
@[simp] theorem modBox_spec (m : Nat) (f : Mbx → Mbx) : (s.modBox m f).spec = s.spec := rfl
@[simp] theorem modBox_kv (m : Nat) (f : Mbx → Mbx) : (s.modBox m f).kv = s.kv := rfl
@[simp] theorem modBox_we (m : Nat) (f : Mbx → Mbx) : (s.modBox m f).we = s.we := rfl
@[simp] theorem modBox_mem (m : Nat) (f : Mbx → Mbx) : (s.modBox m f).mem = s.mem := rfl
@[simp] theorem modBox_cores (m : Nat) (f : Mbx → Mbx) : (s.modBox m f).cores = s.cores := rfl
@[simp] theorem modBox_fab (m : Nat) (f : Mbx → Mbx) : (s.modBox m f).fab = s.fab := rfl
@[simp] theorem modBox_mlk (m : Nat) (f : Mbx → Mbx) : (s.modBox m f).mlk = s.mlk := rfl
@[simp] theorem modBox_pwr (m : Nat) (f : Mbx → Mbx) : (s.modBox m f).pwr = s.pwr := rfl
@[simp] theorem modBox_fr (m : Nat) (f : Mbx → Mbx) : (s.modBox m f).fr = s.fr := rfl
@[simp] theorem modBox_rp (m : Nat) (f : Mbx → Mbx) : (s.modBox m f).rp = s.rp := rfl
@[simp] theorem modBox_led (m : Nat) (f : Mbx → Mbx) : (s.modBox m f).led = s.led := rfl
@[simp] theorem modBox_mg (m : Nat) (f : Mbx → Mbx) : (s.modBox m f).mg = s.mg := rfl
@[simp] theorem modBox_b0 (m : Nat) (f : Mbx → Mbx) : (s.modBox m f).b0 = s.b0 := rfl
@[simp] theorem modBox_out (m : Nat) (f : Mbx → Mbx) : (s.modBox m f).out = s.out := rfl
@[simp] theorem modBox_free (m : Nat) (f : Mbx → Mbx) : (s.modBox m f).free = s.free := rfl
@[simp] theorem modBox_fresh (m : Nat) (f : Mbx → Mbx) : (s.modBox m f).fresh = s.fresh := rfl
@[simp] theorem modBox_pending (m : Nat) (f : Mbx → Mbx) : (s.modBox m f).pending = s.pending := rfl

/-! ### State.modPwr -/

@[simp] theorem modPwr_now (f : PwrSt → PwrSt) : (s.modPwr f).now = s.now := rfl
@[simp] theorem modPwr_regs (f : PwrSt → PwrSt) : (s.modPwr f).regs = s.regs := rfl
@[simp] theorem modPwr_shadow (f : PwrSt → PwrSt) : (s.modPwr f).shadow = s.shadow := rfl
@[simp] theorem modPwr_blocks (f : PwrSt → PwrSt) : (s.modPwr f).blocks = s.blocks := rfl
@[simp] theorem modPwr_stage64 (f : PwrSt → PwrSt) : (s.modPwr f).stage64 = s.stage64 := rfl
@[simp] theorem modPwr_snap64 (f : PwrSt → PwrSt) : (s.modPwr f).snap64 = s.snap64 := rfl
@[simp] theorem modPwr_paths (f : PwrSt → PwrSt) : (s.modPwr f).paths = s.paths := rfl
@[simp] theorem modPwr_host (f : PwrSt → PwrSt) : (s.modPwr f).host = s.host := rfl
@[simp] theorem modPwr_mbx (f : PwrSt → PwrSt) : (s.modPwr f).mbx = s.mbx := rfl
@[simp] theorem modPwr_serv (f : PwrSt → PwrSt) : (s.modPwr f).serv = s.serv := rfl
@[simp] theorem modPwr_parts (f : PwrSt → PwrSt) : (s.modPwr f).parts = s.parts := rfl
@[simp] theorem modPwr_spec (f : PwrSt → PwrSt) : (s.modPwr f).spec = s.spec := rfl
@[simp] theorem modPwr_kv (f : PwrSt → PwrSt) : (s.modPwr f).kv = s.kv := rfl
@[simp] theorem modPwr_we (f : PwrSt → PwrSt) : (s.modPwr f).we = s.we := rfl
@[simp] theorem modPwr_mem (f : PwrSt → PwrSt) : (s.modPwr f).mem = s.mem := rfl
@[simp] theorem modPwr_cores (f : PwrSt → PwrSt) : (s.modPwr f).cores = s.cores := rfl
@[simp] theorem modPwr_fab (f : PwrSt → PwrSt) : (s.modPwr f).fab = s.fab := rfl
@[simp] theorem modPwr_mlk (f : PwrSt → PwrSt) : (s.modPwr f).mlk = s.mlk := rfl
@[simp] theorem modPwr_fr (f : PwrSt → PwrSt) : (s.modPwr f).fr = s.fr := rfl
@[simp] theorem modPwr_rp (f : PwrSt → PwrSt) : (s.modPwr f).rp = s.rp := rfl
@[simp] theorem modPwr_led (f : PwrSt → PwrSt) : (s.modPwr f).led = s.led := rfl
@[simp] theorem modPwr_mg (f : PwrSt → PwrSt) : (s.modPwr f).mg = s.mg := rfl
@[simp] theorem modPwr_b0 (f : PwrSt → PwrSt) : (s.modPwr f).b0 = s.b0 := rfl
@[simp] theorem modPwr_out (f : PwrSt → PwrSt) : (s.modPwr f).out = s.out := rfl
@[simp] theorem modPwr_free (f : PwrSt → PwrSt) : (s.modPwr f).free = s.free := rfl
@[simp] theorem modPwr_fresh (f : PwrSt → PwrSt) : (s.modPwr f).fresh = s.fresh := rfl
@[simp] theorem modPwr_pending (f : PwrSt → PwrSt) : (s.modPwr f).pending = s.pending := rfl

/-! ### State.modIsl -/

@[simp] theorem modIsl_now (site : Nat) (f : Isl → Isl) : (s.modIsl site f).now = s.now := rfl
@[simp] theorem modIsl_regs (site : Nat) (f : Isl → Isl) : (s.modIsl site f).regs = s.regs := rfl
@[simp] theorem modIsl_shadow (site : Nat) (f : Isl → Isl) : (s.modIsl site f).shadow = s.shadow := rfl
@[simp] theorem modIsl_blocks (site : Nat) (f : Isl → Isl) : (s.modIsl site f).blocks = s.blocks := rfl
@[simp] theorem modIsl_stage64 (site : Nat) (f : Isl → Isl) : (s.modIsl site f).stage64 = s.stage64 := rfl
@[simp] theorem modIsl_snap64 (site : Nat) (f : Isl → Isl) : (s.modIsl site f).snap64 = s.snap64 := rfl
@[simp] theorem modIsl_paths (site : Nat) (f : Isl → Isl) : (s.modIsl site f).paths = s.paths := rfl
@[simp] theorem modIsl_host (site : Nat) (f : Isl → Isl) : (s.modIsl site f).host = s.host := rfl
@[simp] theorem modIsl_mbx (site : Nat) (f : Isl → Isl) : (s.modIsl site f).mbx = s.mbx := rfl
@[simp] theorem modIsl_serv (site : Nat) (f : Isl → Isl) : (s.modIsl site f).serv = s.serv := rfl
@[simp] theorem modIsl_parts (site : Nat) (f : Isl → Isl) : (s.modIsl site f).parts = s.parts := rfl
@[simp] theorem modIsl_spec (site : Nat) (f : Isl → Isl) : (s.modIsl site f).spec = s.spec := rfl
@[simp] theorem modIsl_kv (site : Nat) (f : Isl → Isl) : (s.modIsl site f).kv = s.kv := rfl
@[simp] theorem modIsl_we (site : Nat) (f : Isl → Isl) : (s.modIsl site f).we = s.we := rfl
@[simp] theorem modIsl_mem (site : Nat) (f : Isl → Isl) : (s.modIsl site f).mem = s.mem := rfl
@[simp] theorem modIsl_cores (site : Nat) (f : Isl → Isl) : (s.modIsl site f).cores = s.cores := rfl
@[simp] theorem modIsl_fab (site : Nat) (f : Isl → Isl) : (s.modIsl site f).fab = s.fab := rfl
@[simp] theorem modIsl_mlk (site : Nat) (f : Isl → Isl) : (s.modIsl site f).mlk = s.mlk := rfl
@[simp] theorem modIsl_fr (site : Nat) (f : Isl → Isl) : (s.modIsl site f).fr = s.fr := rfl
@[simp] theorem modIsl_rp (site : Nat) (f : Isl → Isl) : (s.modIsl site f).rp = s.rp := rfl
@[simp] theorem modIsl_led (site : Nat) (f : Isl → Isl) : (s.modIsl site f).led = s.led := rfl
@[simp] theorem modIsl_mg (site : Nat) (f : Isl → Isl) : (s.modIsl site f).mg = s.mg := rfl
@[simp] theorem modIsl_b0 (site : Nat) (f : Isl → Isl) : (s.modIsl site f).b0 = s.b0 := rfl
@[simp] theorem modIsl_out (site : Nat) (f : Isl → Isl) : (s.modIsl site f).out = s.out := rfl
@[simp] theorem modIsl_free (site : Nat) (f : Isl → Isl) : (s.modIsl site f).free = s.free := rfl
@[simp] theorem modIsl_fresh (site : Nat) (f : Isl → Isl) : (s.modIsl site f).fresh = s.fresh := rfl
@[simp] theorem modIsl_pending (site : Nat) (f : Isl → Isl) : (s.modIsl site f).pending = s.pending := rfl

/-! ### State.modTile -/

@[simp] theorem modTile_now (t : Nat) (f : TileP → TileP) : (s.modTile t f).now = s.now := rfl
@[simp] theorem modTile_regs (t : Nat) (f : TileP → TileP) : (s.modTile t f).regs = s.regs := rfl
@[simp] theorem modTile_shadow (t : Nat) (f : TileP → TileP) : (s.modTile t f).shadow = s.shadow := rfl
@[simp] theorem modTile_blocks (t : Nat) (f : TileP → TileP) : (s.modTile t f).blocks = s.blocks := rfl
@[simp] theorem modTile_stage64 (t : Nat) (f : TileP → TileP) : (s.modTile t f).stage64 = s.stage64 := rfl
@[simp] theorem modTile_snap64 (t : Nat) (f : TileP → TileP) : (s.modTile t f).snap64 = s.snap64 := rfl
@[simp] theorem modTile_paths (t : Nat) (f : TileP → TileP) : (s.modTile t f).paths = s.paths := rfl
@[simp] theorem modTile_host (t : Nat) (f : TileP → TileP) : (s.modTile t f).host = s.host := rfl
@[simp] theorem modTile_mbx (t : Nat) (f : TileP → TileP) : (s.modTile t f).mbx = s.mbx := rfl
@[simp] theorem modTile_serv (t : Nat) (f : TileP → TileP) : (s.modTile t f).serv = s.serv := rfl
@[simp] theorem modTile_parts (t : Nat) (f : TileP → TileP) : (s.modTile t f).parts = s.parts := rfl
@[simp] theorem modTile_spec (t : Nat) (f : TileP → TileP) : (s.modTile t f).spec = s.spec := rfl
@[simp] theorem modTile_kv (t : Nat) (f : TileP → TileP) : (s.modTile t f).kv = s.kv := rfl
@[simp] theorem modTile_we (t : Nat) (f : TileP → TileP) : (s.modTile t f).we = s.we := rfl
@[simp] theorem modTile_mem (t : Nat) (f : TileP → TileP) : (s.modTile t f).mem = s.mem := rfl
@[simp] theorem modTile_cores (t : Nat) (f : TileP → TileP) : (s.modTile t f).cores = s.cores := rfl
@[simp] theorem modTile_fab (t : Nat) (f : TileP → TileP) : (s.modTile t f).fab = s.fab := rfl
@[simp] theorem modTile_mlk (t : Nat) (f : TileP → TileP) : (s.modTile t f).mlk = s.mlk := rfl
@[simp] theorem modTile_fr (t : Nat) (f : TileP → TileP) : (s.modTile t f).fr = s.fr := rfl
@[simp] theorem modTile_rp (t : Nat) (f : TileP → TileP) : (s.modTile t f).rp = s.rp := rfl
@[simp] theorem modTile_led (t : Nat) (f : TileP → TileP) : (s.modTile t f).led = s.led := rfl
@[simp] theorem modTile_mg (t : Nat) (f : TileP → TileP) : (s.modTile t f).mg = s.mg := rfl
@[simp] theorem modTile_b0 (t : Nat) (f : TileP → TileP) : (s.modTile t f).b0 = s.b0 := rfl
@[simp] theorem modTile_out (t : Nat) (f : TileP → TileP) : (s.modTile t f).out = s.out := rfl
@[simp] theorem modTile_free (t : Nat) (f : TileP → TileP) : (s.modTile t f).free = s.free := rfl
@[simp] theorem modTile_fresh (t : Nat) (f : TileP → TileP) : (s.modTile t f).fresh = s.fresh := rfl
@[simp] theorem modTile_pending (t : Nat) (f : TileP → TileP) : (s.modTile t f).pending = s.pending := rfl

/-! ### State.modPath -/

@[simp] theorem modPath_now (p : Nat) (f : EvtPath → EvtPath) : (s.modPath p f).now = s.now := rfl
@[simp] theorem modPath_regs (p : Nat) (f : EvtPath → EvtPath) : (s.modPath p f).regs = s.regs := rfl
@[simp] theorem modPath_shadow (p : Nat) (f : EvtPath → EvtPath) : (s.modPath p f).shadow = s.shadow := rfl
@[simp] theorem modPath_blocks (p : Nat) (f : EvtPath → EvtPath) : (s.modPath p f).blocks = s.blocks := rfl
@[simp] theorem modPath_stage64 (p : Nat) (f : EvtPath → EvtPath) : (s.modPath p f).stage64 = s.stage64 := rfl
@[simp] theorem modPath_snap64 (p : Nat) (f : EvtPath → EvtPath) : (s.modPath p f).snap64 = s.snap64 := rfl
@[simp] theorem modPath_host (p : Nat) (f : EvtPath → EvtPath) : (s.modPath p f).host = s.host := rfl
@[simp] theorem modPath_mbx (p : Nat) (f : EvtPath → EvtPath) : (s.modPath p f).mbx = s.mbx := rfl
@[simp] theorem modPath_serv (p : Nat) (f : EvtPath → EvtPath) : (s.modPath p f).serv = s.serv := rfl
@[simp] theorem modPath_parts (p : Nat) (f : EvtPath → EvtPath) : (s.modPath p f).parts = s.parts := rfl
@[simp] theorem modPath_spec (p : Nat) (f : EvtPath → EvtPath) : (s.modPath p f).spec = s.spec := rfl
@[simp] theorem modPath_kv (p : Nat) (f : EvtPath → EvtPath) : (s.modPath p f).kv = s.kv := rfl
@[simp] theorem modPath_we (p : Nat) (f : EvtPath → EvtPath) : (s.modPath p f).we = s.we := rfl
@[simp] theorem modPath_mem (p : Nat) (f : EvtPath → EvtPath) : (s.modPath p f).mem = s.mem := rfl
@[simp] theorem modPath_cores (p : Nat) (f : EvtPath → EvtPath) : (s.modPath p f).cores = s.cores := rfl
@[simp] theorem modPath_fab (p : Nat) (f : EvtPath → EvtPath) : (s.modPath p f).fab = s.fab := rfl
@[simp] theorem modPath_mlk (p : Nat) (f : EvtPath → EvtPath) : (s.modPath p f).mlk = s.mlk := rfl
@[simp] theorem modPath_pwr (p : Nat) (f : EvtPath → EvtPath) : (s.modPath p f).pwr = s.pwr := rfl
@[simp] theorem modPath_fr (p : Nat) (f : EvtPath → EvtPath) : (s.modPath p f).fr = s.fr := rfl
@[simp] theorem modPath_rp (p : Nat) (f : EvtPath → EvtPath) : (s.modPath p f).rp = s.rp := rfl
@[simp] theorem modPath_led (p : Nat) (f : EvtPath → EvtPath) : (s.modPath p f).led = s.led := rfl
@[simp] theorem modPath_mg (p : Nat) (f : EvtPath → EvtPath) : (s.modPath p f).mg = s.mg := rfl
@[simp] theorem modPath_b0 (p : Nat) (f : EvtPath → EvtPath) : (s.modPath p f).b0 = s.b0 := rfl
@[simp] theorem modPath_out (p : Nat) (f : EvtPath → EvtPath) : (s.modPath p f).out = s.out := rfl
@[simp] theorem modPath_free (p : Nat) (f : EvtPath → EvtPath) : (s.modPath p f).free = s.free := rfl
@[simp] theorem modPath_fresh (p : Nat) (f : EvtPath → EvtPath) : (s.modPath p f).fresh = s.fresh := rfl
@[simp] theorem modPath_pending (p : Nat) (f : EvtPath → EvtPath) : (s.modPath p f).pending = s.pending := rfl

/-! ### State.modWe -/

@[simp] theorem modWe_now (f : WeSt → WeSt) : (s.modWe f).now = s.now := rfl
@[simp] theorem modWe_regs (f : WeSt → WeSt) : (s.modWe f).regs = s.regs := rfl
@[simp] theorem modWe_shadow (f : WeSt → WeSt) : (s.modWe f).shadow = s.shadow := rfl
@[simp] theorem modWe_blocks (f : WeSt → WeSt) : (s.modWe f).blocks = s.blocks := rfl
@[simp] theorem modWe_stage64 (f : WeSt → WeSt) : (s.modWe f).stage64 = s.stage64 := rfl
@[simp] theorem modWe_snap64 (f : WeSt → WeSt) : (s.modWe f).snap64 = s.snap64 := rfl
@[simp] theorem modWe_paths (f : WeSt → WeSt) : (s.modWe f).paths = s.paths := rfl
@[simp] theorem modWe_host (f : WeSt → WeSt) : (s.modWe f).host = s.host := rfl
@[simp] theorem modWe_mbx (f : WeSt → WeSt) : (s.modWe f).mbx = s.mbx := rfl
@[simp] theorem modWe_serv (f : WeSt → WeSt) : (s.modWe f).serv = s.serv := rfl
@[simp] theorem modWe_parts (f : WeSt → WeSt) : (s.modWe f).parts = s.parts := rfl
@[simp] theorem modWe_spec (f : WeSt → WeSt) : (s.modWe f).spec = s.spec := rfl
@[simp] theorem modWe_kv (f : WeSt → WeSt) : (s.modWe f).kv = s.kv := rfl
@[simp] theorem modWe_mem (f : WeSt → WeSt) : (s.modWe f).mem = s.mem := rfl
@[simp] theorem modWe_cores (f : WeSt → WeSt) : (s.modWe f).cores = s.cores := rfl
@[simp] theorem modWe_fab (f : WeSt → WeSt) : (s.modWe f).fab = s.fab := rfl
@[simp] theorem modWe_mlk (f : WeSt → WeSt) : (s.modWe f).mlk = s.mlk := rfl
@[simp] theorem modWe_pwr (f : WeSt → WeSt) : (s.modWe f).pwr = s.pwr := rfl
@[simp] theorem modWe_fr (f : WeSt → WeSt) : (s.modWe f).fr = s.fr := rfl
@[simp] theorem modWe_rp (f : WeSt → WeSt) : (s.modWe f).rp = s.rp := rfl
@[simp] theorem modWe_led (f : WeSt → WeSt) : (s.modWe f).led = s.led := rfl
@[simp] theorem modWe_mg (f : WeSt → WeSt) : (s.modWe f).mg = s.mg := rfl
@[simp] theorem modWe_b0 (f : WeSt → WeSt) : (s.modWe f).b0 = s.b0 := rfl
@[simp] theorem modWe_out (f : WeSt → WeSt) : (s.modWe f).out = s.out := rfl
@[simp] theorem modWe_free (f : WeSt → WeSt) : (s.modWe f).free = s.free := rfl
@[simp] theorem modWe_fresh (f : WeSt → WeSt) : (s.modWe f).fresh = s.fresh := rfl
@[simp] theorem modWe_pending (f : WeSt → WeSt) : (s.modWe f).pending = s.pending := rfl

/-! ### State.enterFault -/

@[simp] theorem enterFault_now (loc : FaultLoc) (code : Nat) : (s.enterFault loc code).now = s.now := rfl
@[simp] theorem enterFault_regs (loc : FaultLoc) (code : Nat) : (s.enterFault loc code).regs = s.regs := rfl
@[simp] theorem enterFault_shadow (loc : FaultLoc) (code : Nat) : (s.enterFault loc code).shadow = s.shadow := rfl
@[simp] theorem enterFault_blocks (loc : FaultLoc) (code : Nat) : (s.enterFault loc code).blocks = s.blocks := rfl
@[simp] theorem enterFault_stage64 (loc : FaultLoc) (code : Nat) : (s.enterFault loc code).stage64 = s.stage64 := rfl
@[simp] theorem enterFault_snap64 (loc : FaultLoc) (code : Nat) : (s.enterFault loc code).snap64 = s.snap64 := rfl
@[simp] theorem enterFault_paths (loc : FaultLoc) (code : Nat) : (s.enterFault loc code).paths = s.paths := rfl
@[simp] theorem enterFault_host (loc : FaultLoc) (code : Nat) : (s.enterFault loc code).host = s.host := rfl
@[simp] theorem enterFault_mbx (loc : FaultLoc) (code : Nat) : (s.enterFault loc code).mbx = s.mbx := rfl
@[simp] theorem enterFault_serv (loc : FaultLoc) (code : Nat) : (s.enterFault loc code).serv = s.serv := rfl
@[simp] theorem enterFault_parts (loc : FaultLoc) (code : Nat) : (s.enterFault loc code).parts = s.parts := rfl
@[simp] theorem enterFault_spec (loc : FaultLoc) (code : Nat) : (s.enterFault loc code).spec = s.spec := rfl
@[simp] theorem enterFault_kv (loc : FaultLoc) (code : Nat) : (s.enterFault loc code).kv = s.kv := rfl
@[simp] theorem enterFault_we (loc : FaultLoc) (code : Nat) : (s.enterFault loc code).we = s.we := rfl
@[simp] theorem enterFault_mem (loc : FaultLoc) (code : Nat) : (s.enterFault loc code).mem = s.mem := rfl
@[simp] theorem enterFault_cores (loc : FaultLoc) (code : Nat) : (s.enterFault loc code).cores = s.cores := rfl
@[simp] theorem enterFault_fab (loc : FaultLoc) (code : Nat) : (s.enterFault loc code).fab = s.fab := rfl
@[simp] theorem enterFault_mlk (loc : FaultLoc) (code : Nat) : (s.enterFault loc code).mlk = s.mlk := rfl
@[simp] theorem enterFault_pwr (loc : FaultLoc) (code : Nat) : (s.enterFault loc code).pwr = s.pwr := rfl
@[simp] theorem enterFault_fr (loc : FaultLoc) (code : Nat) : (s.enterFault loc code).fr = s.fr := rfl
@[simp] theorem enterFault_rp (loc : FaultLoc) (code : Nat) : (s.enterFault loc code).rp = s.rp := rfl
@[simp] theorem enterFault_mg (loc : FaultLoc) (code : Nat) : (s.enterFault loc code).mg = s.mg := rfl
@[simp] theorem enterFault_b0 (loc : FaultLoc) (code : Nat) : (s.enterFault loc code).b0 = s.b0 := rfl
@[simp] theorem enterFault_out (loc : FaultLoc) (code : Nat) : (s.enterFault loc code).out = s.out := rfl
@[simp] theorem enterFault_free (loc : FaultLoc) (code : Nat) : (s.enterFault loc code).free = s.free := rfl
@[simp] theorem enterFault_fresh (loc : FaultLoc) (code : Nat) : (s.enterFault loc code).fresh = s.fresh := rfl
@[simp] theorem enterFault_pending (loc : FaultLoc) (code : Nat) : (s.enterFault loc code).pending = s.pending := rfl

end Sys2Proof.Machine
end

