-- ==== Sys2Proof/Tests/Slice0.lean ====
section
/-! SUPPORT. The model's own tests: ill-formed commands that WellFormed refuses, results the spec works out, and for
every obligation with premises a state and operands that meet them. -/

namespace Sys2Proof.Tests

set_option Elab.async false

open Sys2Proof.Machine

/-! ### Helpers -/

def acceptsB (s : State) (ag pg off v : Nat) : Bool :=
  agentOk ag && pageLive s ag pg && (match regWriteOf s pg off v with
    | some w => (w.forbidden s ag).isNone
    | none => false)

theorem accepts_iff (s : State) (ag pg off v : Nat) : Accepts s ag pg off v ↔ acceptsB s ag pg off v = true := by
  unfold acceptsB Accepts
  simp only [Bool.and_eq_true]
  constructor
  · rintro ⟨h1, h2, w, h3, h4⟩
    simp [h1, h2, h3, h4]
  · rintro ⟨⟨h1, h2⟩, h3⟩
    refine ⟨h1, h2, ?_⟩
    split at h3
    · exact ⟨_, by assumption, by simpa using h3⟩
    · simp at h3

/-- The next state, if there is one. -/
def nextOf (o : Res) : Option State :=
  match o with
  | .next t => some t
  | _ => none

def goes (i : Instr) (s : State) : Bool := (nextOf (exec i s)).isSome

/-- What a command makes of a state, the state itself where it stops. -/
def after (i : Instr) (s : State) : State := (nextOf (exec i s)).getD s

/-- The module in service, 100 s after power came on: bring-up done, the AMP's firmware running. -/
def up : State := ({ State.reset with now := 100 * sec, mg := { amp := .up } } : State).setRegN pgGlob 0 0x100 6

def inSt (pg : Nat) (st : BState) (s : State) : State := s.modBlk pg fun b => { b with st := st }

/-! ### 01 Steps -/

theorem witness_IdleTick : State.reset.pending = [] := rfl

theorem witness_DeviceTime :
    nextOf (step State.reset) = some State.reset.idle ∧ goes (.powerOn false true) State.reset = true ∧
    goes (.bisnpResponse 3) State.reset = true := by decide +kernel

theorem witness_DeviceTimeGrain : up.now % 40 = 0 ∧ up.now < 2 ^ 64 - 40 ∧ nextOf (step up) = some up.idle := by decide +kernel

theorem witness_WellFormedGoes :
    Instr.wf (.run agAmp (2 ^ 30)) = false ∧ Instr.wf (.run agAmp pgServ) = true ∧
    Instr.wf (.hdmRead (2 ^ 50) []) = true ∧ memDecodes up (2 ^ 50) = false := by decide +kernel

/-! ### 02 Host attachment and registers -/

theorem plain_mgmt : plainKind .mgmt ∧ 0x120 ∉ actingOffs .mgmt := by unfold plainKind; decide

theorem witness_RegisterWriteJudged :
    isWindow pgMgmt 0x120 = false ∧
    agentOk (agCore 0) = true ∧ pageLive up (agCore 0) pgMgmt = true ∧
    ((regWriteOf up pgMgmt 0x120 1).map fun w => (w.d.wide, w.k, (w.forbidden up (agCore 0)).isSome, (w.forbidden up agHost).isSome))
      = some (false, .mgmt, true, false) ∧
    ((regWriteOf up pgMgmt 0x110 0).map fun w => (w.d.wide, w.off)) = some (true, 0x110) ∧
    ((regWriteOf up pgMgmt 0x114 0).map fun w => (w.d.wide, w.off)) = some (true, 0x110) ∧
    (let t := after (.reg64LowWrite agHost 0 (pgMgmt * 4096 + 0x110) 7) up
     SMap.find t.stage64 (latchKey agHost (regKey pgMgmt 0 0x110)) = some 7 ∧
     (t.reg64 pgMgmt 0 0x110 = 0) ∧
     (after (.reg64HighWrite agHost 0 (pgMgmt * 4096 + 0x114) 5) t).reg64 pgMgmt 0 0x110 = 7 + 5 * 2 ^ 32) := by decide +kernel

theorem witness_ErrorRecords :
    let b : Block := {}
    (b.errStat &&& 0x7FFFFFFF#32 = 0) ∧ ((b.error 3 0x2001 0 0).errStat &&& 0x7FFFFFFF#32 ≠ 0) ∧
    ((b.error 3 0x2001 0 0).errStat &&& ~~~8#32) &&& 0x7FFFFFFF#32 = 0 := by decide +kernel

theorem witness_RegisterReads :
    agentOk agHost = true ∧ pageLive up agHost pgMgmt = true ∧ pageLive up agHost pgEarly = true ∧
    (regWriteOf up pgMgmt 0x110 0).map (fun w => (w.d.wide, w.off)) = some (true, 0x110) ∧
    regionLive State.reset agHost 0 (pgServ * 4096) = false ∧ pageInfo 0xFFFF = none ∧ 4 ≤ stageReach up ∧
    nodeServed up (pgCore 3) = true ∧ pageLive up agHost (pgCore 3) = true ∧ kindOf pgMgmt ≠ .core ∧
    pgCore 3 * 4096 + 0x24 < 2 ^ 28 ∧ (pgCore 3 * 4096 + 0x20) % 4096 = 0x20 ∧ (pgCore 3 * 4096 + 0x18) % 4096 = 0x18 := by decide +kernel

theorem witness_BlockStates :
    agentOk agAmp = true ∧ pageOk pgKv = true ∧ pageLive up agAmp pgKv = true ∧
    (∀ st ∈ ([.stopped, .running, .draining, .fenced, .faulted] : List BState), ((inSt pgKv st up).blk pgKv).st = st) ∧
    (up.blk pgKv).st = .reset ∧ runOk (inSt pgKv .stopped up) pgKv = true ∧ kindOf pgKv ≠ .sched ∧ kindOf pgKv ≠ .core ∧
    kindOf (pgCore 5) = .core ∧ boundAt up 5 = none ∧ waferBusy up = false ∧ ((inSt (pgCore 5) .stopped up).blk (pgCore 5)).st = .stopped ∧
    boundaryNow (inSt pgEpoch .running up) pgEpoch = false ∧ boundaryPart (inSt pgEpoch .running up) pgEpoch = none ∧
    (kindOf pgKv).shadowed = true ∧ drained (inSt pgKv .draining up) pgKv = true ∧
    (let t := up.modBlk pgKv fun b => { b with st := .running, commit := some [] }
     running t pgKv = true ∧ (t.blk pgKv).commit.isSome = true ∧ active t pgKv = true) ∧
    (let t := inSt pgKv .draining up
     (t.blk pgKv).since + drainBound t pgKv < t.now) ∧
    (let s := up.setCore 5 { on := true }
     (s.core (numOf (pgCore 5))).on = true ∧ (s.isl (numOf (pgCore 5))).heater = false ∧
     (boundAt { s with parts := [(0, { bind := [(0, 5)] })] } (numOf (pgCore 5))).isSome = true ∧ (s.isl (numOf (pgCore 5))).tripped = false) ∧
    pageLive up agAmp (pgCore 5) = true ∧ ((inSt (pgCore 5) .fenced up).blk (pgCore 5)).st = .fenced ∧
    (let t := up.modBlk pgKv fun b => { b with st := .faulted, recReq := true }
     (t.blk pgKv).st = .faulted ∧ (t.blk pgKv).recReq = true ∧ (kindOf pgKv).resettable = false) := by decide +kernel

theorem witness_HostLink :
    let t : State := { up with host := { up.host with cache := [(9, ⟨true, true, List.replicate 64 1#8⟩)] } }
    SMap.find t.host.cache 8 = none ∧ (SMap.find t.host.cache 9).map (·.dirty) = some true ∧ 1 ≤ stageNow t ∧ 4 ≤ stageNow t ∧
    stageNow t ≤ 6 ∧ (t.host.decCommitted && t.host.decLocked) = false := by decide +kernel

def hdmUp : State :=
  ({ up with host := { up.host with trained := true, flit256 := true, decCommitted := true } } : State).setFld pgGlob 0 0x108 16 9 1

theorem witness_HostMemory :
    memDecodes hdmUp 0x1000 = true ∧ 4 ≤ stageNow hdmUp ∧ memOn hdmUp = true ∧
    (t1Read { owner := 0, req := 0 } 0x1000 64 [] hdmUp).1.toOption.isSome = true ∧
    (t1Read { owner := 0, req := 0 } 0x1000 64 [] { hdmUp with mem := { hdmUp.mem with metas := [(16, { owner := 1 })] } }).1.toOption = none ∧
    (List.replicate 64 0#8).length = 64 ∧ acceptsB hdmUp agHost pgGlob 0x108 2 = true ∧
    (let t := up.setFld pgGlob 0 0x10C 0 1 1
     t.fld pgGlob 0 0x10C 0 1 = 1 ∧ t.host.ptmNext ≤ t.now) := by decide +kernel

/-- A submission ring of 16 entries with two of them filled, a token-output ring with three entries to read. -/
def subDesc : BitVec 256 := BitVec.ofNat 256 (4 * 2 ^ 64 + 0xFFFF * 2 ^ 128)
def tokDesc : BitVec 256 := BitVec.ofNat 256 (4 * 2 ^ 64 + 2 ^ 72)
def subRing : Ring := { desc := subDesc, prod := 2 }
def tokRing : Ring := { desc := tokDesc, prod := 3 }
def withRing (r : Nat) (g : Ring) (s : State) : State := { s with serv := { s.serv with rings := SMap.put s.serv.rings r g } }

theorem witness_Doorbell :
    4 ≤ stageReach up ∧ (withRing 7 subRing up).ring 7 = some subRing ∧
    (after (.doorbellWrite 56 8 4) (withRing 7 subRing up)).ring 7 = some { subRing with prod := 4 } ∧
    (after (.doorbellWrite 56 8 18) (withRing 7 subRing up)).ring 7 = some subRing ∧
    (after (.doorbellWrite 56 8 2) (withRing 7 subRing up)) = withRing 7 subRing up ∧
    (after (.doorbellWrite 56 8 3) (withRing 7 tokRing up)).ring 7 = some { tokRing with cons := 3 } ∧
    (after (.doorbellWrite 56 8 4) (withRing 7 tokRing up)).ring 7 = some tokRing := by decide +kernel

theorem witness_MailboxMessages :
    let box (b : Mbx) : State := up.setBox 50 b
    pageLive up agHost pgMbx = true ∧ barred up agHost pgMbx = false ∧ bmcAsync up = true ∧
    (let s := inSt pgMbx .fenced up
     pageLive s agHost pgMbx = true ∧ barred s agHost pgMbx = true) ∧ (up.box 50).full = false ∧ (up.box 50).claimed = false ∧
    mayFill ((box { claimed := true, holder := agHost }).box 50) agHost = true ∧
    mbxSees (box { full := true, receiver := 0 }) agHost 50 = true ∧
    (let b : Mbx := { claimed := true, holder := agHost, limit := 100, since := 0 }
     b.claimed = true ∧ b.holder = agHost ∧ b.limit ≠ 0 ∧ b.since + b.limit * units100 ≤ up.now) ∧
    (let b : Mbx := { full := true, stamp := agHost, limit := 100, since := 0 }
     b.full = true ∧ b.stamp = agHost ∧ b.readStarted = false ∧ b.limit ≠ 0 ∧ b.since + b.limit * units100 ≤ up.now) ∧
    bitsOf 5 16 3 = (up.box 50).receiver ∧ bitsOf 5 0 16 ≠ (up.box 50).timeoutCfg ∧
    acceptsB up agHost pgHostDb 0x100 1 = true ∧ acceptsB up agHost pgHostDb 0x104 1 = true ∧
    (let t := box { full := true, receiver := 3 }
     t.mg.amp = .up ∧ receiverOf t 50 = 3 ∧ (t.box 50).readStarted = false) ∧
    receiverOf (box { full := true, receiver := 3, readStarted := true }) 50 = 3 ∧ 1 ≤ stageNow up := by decide +kernel

theorem witness_MailboxFrame : goes (.mbxClaim agHost 5) up = true ∧ goes (.hostDbMaskWrite agHost 1) up = true := by decide +kernel

/-! ### 03 Serving engine -/

/-- Session 4 of tenant 1 WARM on partition 0, which runs one stage; ring 7 has submissions, page and pools run. -/
def sv : State :=
  let s := (inSt (pgSched 0) .running (inSt pgServ .running up)).setRegN (pgSched 0) 0 0x104 4096
  { s with
    parts := [(0, { ps := .running, stages := [{}] })]
    serv := { s.serv with
      rings := [(7, subRing)]
      sess := [(4, { st := .warm, tenant := 1, log := [5] })]
      tenants := [(1, { enable := true, rate := 0xFFFFFFFF })] } }

/-- A submission entry of 128 bytes with some fields set. -/
def entry (l : List (Nat × Nat × Nat)) : List Byte :=
  Mem.read (l.foldl (fun m p => Mem.write m p.1 (leBytes p.2.1 p.2.2)) []) 0 128

/-- Session 4, no adapter, an output ring 9; `n` at byte 12. -/
def sub (n : Nat) (more : List (Nat × Nat × Nat) := []) : List Byte :=
  entry ([(8, 2, 4), (10, 2, 0xFFFF), (12, 4, n), (64, 32, tokDesc.toNat), (96, 4, 9), (100, 4, 77)] ++ more)

def modSv (i : Nat) (f : Session → Session) (s : State) : State := s.modSess i f

theorem witness_RingCommands :
    acceptsB up agHost pgServ 0x114 1 = true ∧ acceptsB up agHost pgServ 0x114 2 = true ∧ acceptsB up agHost pgServ 0x114 3 = true ∧
    (let s := ((up.setRegN pgServ 0 0x110 9).setRegN pgServ 0 0x128 4).setRegN pgServ 0 0x134 0
     descErr s (ringSel s) (ringDescRegs s) false = 0) ∧ descErr up (ringSel up) (ringDescRegs up) false ≠ 0 ∧
    up.ring (ringSel up) = none ∧ ((withRing (ringSel up) tokRing up).ring (ringSel up)).isSome = true ∧
    (let g : Ring := { tokRing with req := some 0, closing := true }
     let s : State := { sv with serv := { sv.serv with reqs := [(0, { st := .decode, kind := .generate, session := 4, ring := 9, readAt := 0, toks := [7] })],
                                                       rings := [(9, g)] } }
     s.openRing? 9 = some g ∧ (s.req 0).isSome = true) ∧
    (let g : Ring := { tokRing with closing := true }
     (withRing 3 g up).openRing? 3 = some g ∧ g.req = none ∧ dKind g.desc ≠ 0) ∧
    (let g : Ring := { subRing with closing := true, fetch := 2 }
     (withRing 3 g up).openRing? 3 = some g ∧ g.req = none ∧ dKind g.desc = 0 ∧ 0 < g.fetch ∧ 3 < 2 ^ 20) := by decide +kernel

theorem witness_Fetching :
    subReady sv 7 = true ∧ readKey sv 7 = 7 ∧
    (let g : Ring := { subRing with fetch := 1, closed := true }
     let s := withRing (7 + 2 ^ 20) g sv
     s.ring (7 + 2 ^ 20) = some g ∧ readKey s 7 = 7 + 2 ^ 20 ∧ g.held = [] ∧ ∀ e ∈ cutEntries g.fetch (sub 1), needsBuf e = false) ∧
    dLoc subRing.desc = 0 ∧ subRing.closed = false ∧ dWb subRing.desc = 0 ∧
    (let g := { subRing with fetch := 1 }
     0 < g.fetch ∧ g.held = [] ∧ ∀ e ∈ cutEntries g.fetch (sub 1), needsBuf e = false) ∧
    (let e := 1 :: (sub 9).drop 1
     let g : Ring := { subRing with fetch := 1, held := [e] }
     reqOp (eOp e) = true ∧ preErr sv g e = 0 ∧ postErr sv e = 0) ∧
    (let g : Ring := { tokRing with desc := BitVec.ofNat 256 (4 * 2 ^ 64 + 2 ^ 72 + 33 * 2 ^ 80 + 2 ^ 95 + 5 * 2 ^ 112), first := some 0 }
     let s : State := { up with host := { up.host with msixTab := [(33, 5)] } }
     dIrq g.desc = true ∧ g.batch = false ∧ dCoUs g.desc ≠ 0 ∧ 0 + dCoUs g.desc * us ≤ s.now ∧ tagWaits s 8 = false ∧
     msixHeld s (dVec g.desc) = false) := by decide +kernel

theorem witness_SubmissionEffect :
    sv.ring 7 = some subRing ∧ subReady sv 7 = true ∧
    (let ok (s : State) (op : Nat) (e : List Byte) : Bool :=
       !needsBuf (subEntry op e) && decide (preErr s subRing (subEntry op e) = 0) && decide (postErr s (subEntry op e) = 0)
     let other := entry [(8, 2, 5), (12, 2, 1)]
     let hold : State := { sv with serv := { sv.serv with handles := [(3, { live := true, tenant := 1 })] } }
     preErr sv subRing (subEntry 3 (sub 1)) = 0x4002 ∧ dWb subRing.desc = 0 ∧
     (preErr sv subRing (subEntry 1 (sub 9)) = 0 ∧ needsBuf (subEntry 1 (sub 9)) = true) ∧
     (let s : State := { sv with serv := { sv.serv with reqs := [(0, { st := .decode, kind := .generate, session := 4, ring := 9, readAt := 0, toks := [7] })] } }
      ok s 4 (sub 0) = true ∧ reqsOf s 4 ≠ [] ∧ ok s 2 (sub 0) = true) ∧ ok (modSv 4 (fun v => { v with st := .t1 }) sv) 5 (sub 0) = true ∧
     ok sv 1 (sub 1) = true ∧ ok sv 7 (sub 1) = true ∧ ok sv 9 (sub 1 [(16, 4, 0)]) = true ∧ ok sv 2 (sub 0) = true ∧
     ok sv 3 other = true ∧ ok sv 4 (sub 0) = true ∧ reqsOf sv 4 = [] ∧ ok sv 5 (sub 0) = true ∧
     (sv.sess 4).st = .warm ∧ ((modSv 4 (fun v => { v with st := .active }) sv).sess 4).st = .active ∧
     (let s := sv.setRegN pgMap 0 0x104 1000000
      spillExtents (s.pool (s.sess 4).part).fmt (spillRecs s 4) + logReserve s ≤ poolFree s) ∧
     ok sv 6 (sub 1) = true ∧ ok hold 8 (sub 0 [(24, 8, 3 + 2 ^ 32 + 2 ^ 48)]) = true) := by decide +kernel

/-- Request 0, of session 4. -/
def req0 (st : ReqSt) : Req := { st := st, kind := .generate, session := 4, ring := 9, readAt := 0, toks := [7] }
def withReq (r : Req) (s : State) : State :=
  { s with serv := { s.serv with reqs := [(0, r)], rings := [(7, subRing), (9, { tokRing with req := some 0 })] } }
def live (st : ReqSt) : State := withReq (req0 st) sv

theorem witness_RequestLife :
    (live .queued).req 0 = some (req0 .queued) ∧ (req0 .queued).slot = none ∧ isNext (live .queued) 0 (req0 .queued) = true ∧
    running (live .queued) pgServ = true ∧ freeSlot (live .queued) ((live .queued).sess 4).part = some 0 ∧
    sv.mg.stwDead = false ∧ (req0 .ending).atRest (live .ending) = true ∧
    (let r := { req0 .queued with rst := true, slot := some 0 }
     let s := (withReq r sv).modSess 4 fun v => { v with obj := some { tier := 1, extents := 2, kvLen := 5, gen := 1, chains := [], recs := [] } }
     s.req 0 = some r ∧ r.rst = true ∧
     ((s.sess 4).obj.map fun o => (recPages (s.pool (s.sess 4).part) 4 o).all fun x => !x.2.any (tagBad s (s.sess 4).part 4)) = some true) ∧
    ({ req0 .decode with deadline := some 5 } : Req).deadline = some 5 ∧ ({ req0 .ending with deadline := some 5 } : Req).st = .ending ∧ 5 < sv.now := by decide +kernel

theorem witness_TenantsAndQueries :
    acceptsB up agHost pgServ 0x144 1 = true ∧ acceptsB up agHost pgServ 0x144 2 = true ∧ acceptsB up agHost pgServ 0x160 0 = true ∧
    bitsOf 0 16 1 = 0 ∧ ((live .decode).req (bitsOf 0 0 16)).isSome = true ∧ (up.tenant (tenSel up)).enable = false := by decide +kernel

theorem witness_ServingFrame : pageLive up agHost pgServ = true ∧ goes (.ringOpen agHost) up = true ∧ goes (.query agHost 5) up = true := by
  decide +kernel

def spilled (st : SessSt) (o : SpillObj := { tier := 1, extents := 2, kvLen := 5, gen := 1, chains := [], recs := [], expiry := some 5 }) : State :=
  sv.setSess 4 { st := st, tenant := 1, obj := some o }

/-- An object on its way to T2 whose tenant has its key. -/
def movable : State :=
  let s := spilled .t1 { tier := 1, extents := 2, kvLen := 5, gen := 1, chains := [], recs := [], moving := true }
  { s with mem := { s.mem with tenantKeys := [(1, { key := some 1, gen := 1 })] } }

theorem witness_SpilledSessions :
    ((spilled .t1).sess 4).st = .t1 ∧ 5 ≤ sv.now ∧ t2Open (spilled .t1) = false ∧ ((spilled .spilling).sess 4).st = .spilling ∧
    tagBadPage (spilled .spilling) ((spilled .spilling).sess 4).part 4 = none ∧
    (let s := ((spilled .t1).setRegN pgMap 0 0x11C 1).setRegN pgMap 0 0x120 2
     t2Open s = true ∧ 2 ≤ t2Free s) ∧ ((spilled .t2).sess 4).st = .t2 ∧
    (let s := spilled .t1 { tier := 1, extents := 2, kvLen := 5, gen := 1, chains := [], recs := [], moving := true }
     ((s.sess 4).obj.map (·.moving)) = some true ∧
     ((s.sess 4).obj.map fun o => (extRead (spillAcc s 4) (.spill 4) 0 o.bytes.length s).1.toOption.isSome) = some false) ∧
    (let s := movable
     ((s.sess 4).obj.map (·.moving)) = some true ∧
     ((s.sess 4).obj.map fun o => (extRead (spillAcc s 4) (.spill 4) 0 o.bytes.length s).1.toOption.isSome) = some true) := by decide +kernel

theorem witness_CompletionStatus :
    let r : Req := req0 .decode
    r.has 8 = false ∧ r.has 5 = false ∧ r.has 7 = false ∧ r.has 6 = false ∧ r.has 2 = false ∧ r.has 1 = false ∧
    ({ r with cond := 2 ^ 8 + 2 ^ 5 + 2 ^ 7 + 2 ^ 6 + 2 ^ 2 + 2 } : Req).has 8 = true ∧ ({ r with cond := 2 ^ 8 } : Req).status = 8 := by decide +kernel

/-! ### 04 Partitions, 05 speculation, 06 the KV cache -/

theorem noWreg {s : State} {site : Nat} (h : ∀ k, k < 4 → bitAt (s.regN (pgCore site) 0 (0x120 + 4 * k)) 31 = false) (row : Nat) :
    wregRow s site row = false := by
  unfold wregRow
  simp only [List.any_eq_false, List.mem_range]
  intro k hk
  simp [h k hk]

/-- The step of request 0's token 9 in slot 0, at position 1. -/
def tok0 : Tok :=
  { kind := 0, count := 1, part := 0, epoch := 0, step := 3, positions := 1, context := 2, replay := 0, retry := 0, eqx := 0,
    ents := [mkEnt 0 1 1 9 0xFFFF 0 0] }

/-- Partition 0 with request 0 decoding in slot 0. -/
def st4 (q : Part) : State :=
  { withReq { req0 .decode with slot := some 0, inflight := 1 } sv with
    parts := [(0, { q with ps := q.ps, bind := [(0, 5)], stages := q.stages })] }

def run1 : Part := { ps := .running, stages := [{ run := some tok0 }] }

theorem witness_StepsMove :
    (let s := st4 { ps := .running, stages := [{}], transit := [(0, tok0)] }
     (s.part 0).transit.find? (fun e => e.1 = 0) = some (0, tok0) ∧ siteOfLogical s 0 ((s.part 0).stage 0).leader = some 5 ∧
     (∀ k, k < 4 → bitAt (s.regN (pgCore 5) 0 (0x120 + 4 * k)) 31 = false) ∧ badStep s 0 tok0 = false ∧
     badStep s 0 { tok0 with count := 65 } = true) ∧
    (let s := st4 { ps := .running, stages := [{ wait := some tok0 }] }
     (s.part 0).eqx = none ∧ grantsDue s 0 0 = false ∧ stageAges s 0 0 = false ∧ tagFail s 0 0 tok0 = none) ∧
    (let q : Part := { run1 with stages := [{ run := some tok0 }, {}] }
     q.stays 0 = false ∧ q.span = [] ∧ 0 + 1 < q.stages.length ∧ q.inputFree 1 = true) ∧ 0 + 1 = run1.stages.length ∧
    (let s := st4 { run1 with stages := [{ run := some tok0, incomplete := true }] }
     tok0.retry < s.fld (pgSched 0) 0 0x124 16 4 ∧ s.fld (pgSched 0) 0 0x124 16 4 ≤ ({ tok0 with retry := 15 } : Tok).retry) ∧
    (let s := st4 run1
     timedTok (s.part 0) 0 = some tok0 ∧ ((s.part 0).stage 0).clock + stageLimit s 0 0 tok0 ≤ s.now) ∧
    (let q : Part := { ps := .running, stages := [{}, { wait := some tok0 }] }
     (q.stage 0).outs.contains 4 = false) ∧
    (let q : Part := { ps := .running, stages := [{ outs := [3, 4] }, { run := some tok0 }] }
     (q.stage 0).outs.contains 3 = true ∧ 0 + 1 < q.stages.length ∧ (q.stage 1).run = some tok0 ∧ tok0.step = 3 ∧
     (q.stage 0).outs.contains 4 = true ∧ tok0.step ≠ 4) := by decide +kernel

/-- The head of a span whose next member holds a step. What the member is given depends on the estimate of its cost, which
is free: the state is late enough for whatever that is. -/
theorem witness_StepsMove_member :
    let q : Part := { ps := .running, stages := [{}], span := [0, 2], away := [tok0] }
    let s : State := { st4 q with now := 10000 + Config.memberEst 0 1 1 2 }
    1 ≤ 1 ∧ 1 < (s.part 0).span.length ∧ (s.part 0).isHead = true ∧ (s.part 0).away = [tok0] ∧ (s.part 0).eqx = none ∧ (s.part 0).ps ≠ .paused ∧
    (s.part 0).awayClock + memberLimit s 0 1 tok0 ≤ s.now := by
  refine ⟨by decide, by decide, rfl, rfl, rfl, by decide, ?_⟩
  show 0 + ((Nat.max 10000 (Config.memberEst 0 1 1 2) + 2 * 0) + 0) ≤ 10000 + Config.memberEst 0 1 1 2
  have : Nat.max 10000 (Config.memberEst 0 1 1 2) ≤ 10000 + Config.memberEst 0 1 1 2 := Nat.max_le.mpr ⟨by omega, by omega⟩
  omega

/-- A step of a target has left the last stage. -/
def q4 (s : State) : Bool := decide ((s.part 0).leaving = [tok0]) && !(s.part 0).isMember && !(s.part 0).replayOf && decide ((s.part 0).draftOf = 0xFF)

theorem witness_StepsBuiltAndCommitted :
    (let s := st4 { ps := .running, stages := [{}], abandoned := [tok0] }
     let q := s.part 0
     q.isMember = false ∧ q.replayOf = false ∧ (s.blk (pgSched 0)).st = .running ∧ q.inputFree 0 = true ∧ q.mustEqx = false ∧
     s.mg.stwDead = false ∧ q.stages ≠ [] ∧
     (let f := filterTok 0 tok0 ((s.modSess 4 fun v => { v with kvLen := 1 }).modPart 0 fun v => { v with abandoned := [] })
      let m := roomFor 0 tok0 f.1.ents [] f.2
      m.2.2 = false ∧ m.1 ≠ [])) ∧
    (let s := st4 { ps := .running, stages := [{}], leaving := [tok0] }
     let v := { s.sess 4 with kvLen := 1 }
     let r := (s.req 0).getD (req0 .decode)
     q4 s = true ∧ reqOfSlot s 0 0 = some (0, r) ∧ (s.ring r.ring).map (·.failNext) = some false ∧ r.mute = false ∧ r.dropPend = false ∧ r.st = .decode ∧
     late s r = false ∧ v.part = 0 ∧ 1 ≤ v.kvLen ∧ v.log.length + 1 < maxCtx s 0 ∧
     logExt (v.log.length + 1) = logExt v.log.length ∧ (8#32).toNat ≠ r.stop0 ∧ (8#32).toNat ≠ r.stop1 ∧ r.maxNew = 0) := by decide +kernel

def eqx1 (f : Eqx → Eqx := id) : Part :=
  { ps := .equinox, stages := [{}, {}], eqx := some (f { num := 1, causes := 4, start := 0, phase := 2 }) }

/-- A partition without pages has none that the tag check bars. -/
theorem tagBad_empty {s : State} {p : Nat} (h : (s.pool p).pages = []) (i pg : Nat) : tagBad s p i pg = false := by
  simp [tagBad, h]

theorem witness_EquinoxRuns_tags (q : Part) (i pg : Nat) : tagBad (st4 q) 0 i pg = false := tagBad_empty rfl i pg

theorem witness_EquinoxRuns :
    (let q : Part := { ps := .running, stages := [{}], causes := 4 }
     q.eqx = none ∧ q.causes ≠ 0 ∧ q.stages.all (fun x => !x.faulted) = true ∧ q.span = []) ∧
    (let s := (st4 run1).setRegN (pgSched 0) 0 0x124 100
     s.fld (pgSched 0) 0 0x124 0 16 ≠ 0 ∧ (s.part 0).lastEqx + s.fld (pgSched 0) 0 0x124 0 16 * us ≤ s.now) ∧
    ((eqx1.eqx.map fun e => (e.phase, e.reqd.contains 0)) = some (2, false)) ∧
    (let q := eqx1 fun e => { e with reqd := [0, 1] }
     1 < q.stages.length ∧ (q.stage 1).faulted = false ∧ (q.eqx.map fun e => (e.reqd.contains 0, e.arrived.contains 0, e.arrived.contains 1)) =
      some (true, false, false)) ∧
    (let q := eqx1 fun e => { e with reqd := [0, 1], arrived := [1] }
     (∀ h, h < 2 → (q.stage h).faulted = false) ∧ q.holders = 0 ∧ q.spanHold = [] ∧ q.drainReloc = false ∧ q.stopHeld = false ∧
     (q.eqx.map fun e => (e.faults, e.spanIn, e.arrived.contains 1)) = some ([], [], true) ∧ q.ps = .equinox ∧
     (st4 q).mg.stwDead = false ∧ ({ q with holders := 1 } : Part).holders ≠ 0) ∧
    (let q : Part := { ps := .paused, stages := [{}], holders := 1 }
     acceptsB (st4 q) agHost (pgSched 0) 0x120 2 = true ∧ (st4 q).mg.stwDead = false ∧ q.stages.all (fun x => !x.faulted) = true ∧
     q.spanHold = [] ∧ q.drainReloc = false ∧ q.stopHeld = false) ∧
    acceptsB (st4 run1) agHost (pgSched 0) 0x120 1 = true ∧ acceptsB (st4 run1) agHost (pgSched 0) 0x120 2 = true ∧
    acceptsB (st4 run1) agHost (pgSched 0) 0x120 4 = true ∧ bitAt run1.holders 0 = false ∧ bitAt 1 0 = true := by decide +kernel

theorem witness_StepFrame : run1.span = [] ∧ goes (.stepDone 0 0 5) (st4 run1) = true ∧ goes (.stageStepHandoff 0 0) (st4 run1) = true := by
  decide +kernel

theorem witness_StepEstimate :
    let s := (st4 run1).setRegN (pgSched 0) 0 0x144 50
    0 < (s.part 0).stages.length ∧ estStep s 0 1 1 = 50 * 10 ^ 6 := by decide +kernel

/-- A draft tree of one node under the root in slot 0, its chunk injected. -/
def tree1 : Tree :=
  { part := 0, pos := 2, depth := 1, session := 4, nodes := [⟨9, 63, 0, 0, []⟩, ⟨8, 0, 1, 0, []⟩], chunks := 2 }

def withTree (x : Tree) : State := { st4 run1 with spec := { trees := [(0, x)] } }

theorem witness_TreeOutcomes :
    (withTree tree1).tree 0 0 = some tree1 ∧ (reqOfSlot (withTree tree1) 0 0).isSome = true ∧ 0 < tree1.nodes.length ∧
    (tree1.nodes.getD 0 ⟨0, 63, 99, 0, []⟩).depth < tree1.chunks ∧ tree1.committed = false ∧ tree1.old = 0 ∧ tree1.inflight = 0 ∧
    nodeOutcome true 0 tree1 0 [] = none ∧ nodeOutcome true 0 tree1 0 [⟨8, 1, 5⟩] = some ⟨0, 0, 5⟩ ∧
    nodeOutcome true 0 tree1 0 [⟨7, 1, 5⟩] = some ⟨63, 7, 5⟩ ∧ (req0 .decode).greedy = true ∧ tree1.depth ≠ 0 ∧
    (let x := { tree1 with depth := 0, nodes := [⟨9, 63, 0, 0, []⟩], chunks := 1 }
     (walkTree { x with outs := SMap.put x.outs 0 ⟨63, 5, 0⟩ } 2 0 []).isSome = true) ∧
    walkTree { tree1 with outs := SMap.put tree1.outs 0 ⟨0, 0, 5⟩ } 3 0 [] = none ∧
    walkTree { tree1 with outs := SMap.put tree1.outs 1 ⟨63, 5, 0⟩ } 3 0 [] = none ∧
    (walkTree { tree1 with outs := SMap.put tree1.outs 0 ⟨63, 5, 0⟩ } 3 0 []).isSome = true ∧
    (let s : State := { withTree { tree1 with committed := true } with kv := [(0, { slots := 112 })] }
     (s.pool 0).slots ≠ 0) := by decide +kernel

def grant1 (op : GrantOp) : Grant := { part := 0, core := 0, op := op, slot := 0, page := 3 }

theorem witness_PageCommands :
    takeGrant 0 (fun o => decide (o.op ≠ .copy)) [grant1 .copy, grant1 .share] = some (grant1 .share, [grant1 .copy]) ∧
    siteOfLogical (st4 run1) 0 0 = some 5 ∧
    (let g : Grant := { grant1 .copy with src := 2, slots := 1 }
     let pgs : SMap Page := [(2, { st := .priv, fill := 1, tenant := 1 }), (3, { st := .priv, fill := 1, tenant := 1 })]
     let s : State := { st4 run1 with kv := [(0, { slots := 112, copies := [g], pages := pgs })] }
     takeGrant 0 (copyReady (s.pool 0).copies) (s.pool 0).copies = some (g, []) ∧ slotOwner s 0 0 = some (4, 1, 0) ∧
     tagBad s 0 4 2 = false ∧ tagBad s 0 4 3 = false) ∧
    (let c : SMap Chain := [(4 * 65536, { len := 20000, pages := [3], wr := 20000 })]
     let q : KvPool := { slots := 112, hcfg := 0x02003801, pages := [(3, { st := .priv, fill := 112 })], chains := c }
     sessOfPage q 3 = some 4 ∧ tagBad { st4 run1 with kv := [(0, { q with pages := [(3, { st := .priv, fill := 112, tenant := 1 })] })] } 0 4 3 = false ∧
     hasAged q 3 = true ∧ bitsOf q.hcfg.toNat 0 1 = 1 ∧ (SMap.find q.pages 3).map (fun g => (g.aged, g.st)) = some (false, .priv)) ∧
    acceptsB up agHost pgKv 0x130 3 = true := by decide +kernel

def pool2 (pages : SMap Page) : State :=
  { st4 run1 with
    kv := [(0, {
      slots := 112
      cores := [(0, ⟨0, 4, false⟩), (1, ⟨0, 4, true⟩)]
      pages := pages
      groups := [⟨0, 0, 0, [0, 1], 0⟩]
      chains := [(4 * 65536, { len := 1, pages := [3] })] })] }

theorem witness_PagePlacement :
    (let q := (pool2 []).pool 0
     q.place ⟨0, 0, 0, [0, 1], 0⟩ = some 1) ∧
    (let g : Page := { st := .priv, fill := 1 }
     let s := pool2 [(3, g)]
     (growOne 0 4 0 0 1 0 s).isSome = true ∧ mayWrite g 1 0 1 = true) ∧
    (let g : Page := { st := .shared, fill := 2, refc := 2 }
     let s := pool2 [(3, g)]
     (growOne 0 4 0 0 1 0 s).isSome = true ∧ mayWrite g 1 0 1 = false) := by decide +kernel

/-! ### 07 The core, 08 numbers, 09 the scratchpad, 10 the fabric -/

/-- A fused site in the middle of a tile. -/
def site1 : Nat := 109
def core1 : Core := { on := true }
/-- The core at `site1` issues. -/
def co (c : Core) (s : State := up) : State := (inSt (pgCore site1) .running s).setCore site1 c
def regs (l : List (Nat × W64)) : Core := { core1 with g := l }
/-- Operands of an instruction: d, a, b, the modifier field, the immediate; `bi` where operand b is the immediate. -/
def word (d a b : Nat) (m imm : Nat := 0) (bi : Nat := 0) : BitVec 56 :=
  BitVec.ofNat 56 (d + a * 2 ^ 5 + b * 2 ^ 10 + bi * 2 ^ 15 + m * 2 ^ 16 + imm * 2 ^ 24)
/-- A region descriptor: first row, rows, columns. -/
def rgn (row rows cols : Nat) : W64 := BitVec.ofNat 64 (row + (rows - 1) * 2 ^ 20 + (cols - 1) * 2 ^ 32)

theorem witness_ScalarResults :
    canIssue (co core1) site1 = true ∧ site1 < sites ∧ (1 : W64).toNat < 64 ∧ (1 : W64) ≠ 0 := by decide +kernel

/-- SUB writes a - b; SRA keeps the sign; MULH is the high half of the signed product (07 R187). -/
theorem test_scalar :
    let c := regs [(1, 5), (2, 0xFFFFFFFFFFFFFFFE)]
    ((after (.iSub site1 (word 3 1 2) {}) (co c)).core site1).greg 3 = 7 ∧
    ((after (.iSra site1 (word 3 2 0 0 1 1) {}) (co c)).core site1).greg 3 = 0xFFFFFFFFFFFFFFFF ∧
    ((after (.iMulh site1 (word 3 1 2) {}) (co c)).core site1).greg 3 = 0xFFFFFFFFFFFFFFFF ∧
    ((after (.iMulhu site1 (word 3 1 2) {}) (co c)).core site1).greg 3 = 4 ∧
    ((after (.iAdd site1 (word 0 1 2) {}) (co c)).core site1).greg 0 = 0 ∧
    ((after (.iClz site1 (word 3 1 0) {}) (co c)).core site1).greg 3 = 61 := by decide +kernel

theorem witness_CoreMemory :
    let c := regs [(1, 24 * 1048576 - 8), (2, 786424)]
    let x (a : Nat) (imm : Nat) : Nat := (c.greg a + (BitVec.ofNat 32 imm).signExtend 64).toNat
    canIssue (co c) site1 = true ∧ x 1 0 + 8 = 25165824 ∧ c.pendW (x 1 0 / 32, (x 1 0 + 8 - 1) / 32) = false ∧
    c.pendR (x 1 0 / 32, (x 1 0 + 8 - 1) / 32) = false ∧ x 2 0 % 64 = 56 ∧ x 2 0 < 786432 ∧ c.held ≤ 31 ∧
    c.pendW (x 2 0, x 2 0 + 7) = false ∧ c.pendR (x 2 0, x 2 0 + 7) = false ∧
    (∀ k, k < 4 → bitAt ((co c).regN (pgCore site1) 0 (0x120 + 4 * k)) 31 = false) := by decide +kernel

/-- ST32 writes four little-endian bytes at g[a] + imm, LD32U reads them zero-extended (07 R187). -/
theorem test_memory :
    let c := regs [(1, 100), (2, 0x80000001)]
    let t := after (.iSt32 site1 (word 0 1 2 0 4) {}) (co c)
    Mem.read (t.core site1).spad 103 6 = [0, 1, 0, 0, 0x80, 0] ∧
    ((after (.iLd32u site1 (word 5 1 0 0 4) {}) t).core site1).greg 5 = 0x80000001 := by decide +kernel

theorem witness_ControlAndSystem :
    let c := regs [(1, 64)]
    canIssue (co c) site1 = true ∧ (BitVec.ofNat 64 c.pc + (BitVec.ofNat 32 16).signExtend 64).toNat % 8 = 0 ∧
    ({} : Ecc).ce = 0 ∧ (co c).nodeNow (siteTile site1) = (co c).now ∧
    bitsOf (word 1 0 0 0 2).toNat 24 32 = 2 ∧ bitsOf (word 1 0 0 0 4).toNat 24 32 = 4 := by decide +kernel

/-- BLT compares signed; JAL links the next address (07 R187). -/
theorem test_branch :
    let c := regs [(1, 0xFFFFFFFFFFFFFFFF), (2, 1)]
    ((after (.iBlt site1 (word 0 1 2 0 24) {}) (co c)).core site1).pc = 24 ∧
    ((after (.iBltu site1 (word 0 1 2 0 24) {}) (co c)).core site1).pc = 8 ∧
    ((after (.iJal site1 (word 7 0 0 0 40) {}) (co c)).core site1).greg 7 = 8 ∧
    ((after (.iJalr site1 (word 7 1 0 0 40) {}) (co c)).core site1).pc = 40 := by decide +kernel

theorem witness_VectorResults :
    canIssue (co core1) site1 = true ∧ (co core1).b0 = true ∧ bitsOf (word 1 2 3 1).toNat 16 2 = 1 ∧ bitsOf (word 1 2 3 0).toNat 16 2 = 0 ∧
    (List.replicate 64 (BitVec.ofNat 32 31)).all (fun x => decide (x.toNat < 32)) = true := by decide +kernel

/-- FP32 lanes: 1.5 + 2.25 = 3.75; integer lanes wrap (07 R187, 08 R227). -/
theorem test_vector :
    let c : Core := { core1 with v := [(64, 0x3FC00000), (128, 0x40100000)] }
    ((after (.iVadd site1 (word 3 1 2 0) {}) (co c)).core site1).vec 3 = 0x40700000#32 :: List.replicate 63 0#32 ∧
    (((after (.iVmul site1 (word 3 1 2 1) {}) (co c)).core site1).vec 3).headD 0 = 0x3FC00000#32 * 0x40100000#32 := by decide +kernel

/-- K4 block [0.037, -0.021, 0.0049, 0, ...]: codes 7, 13, 2, 0 and scale 0x3D (08 R219). -/
theorem test_k4_example :
    encodeBlock ((List.range 16).map fun i => f32 (([0x3D178D50, 0xBCAC0831, 0x3BA0902E] : List W32).getD i 0)) true (fun _ => none)
      = (([7, 13, 2, 0] : List Nat) ++ List.replicate 12 0, 0x3D) := by decide +kernel

theorem witness_TensorResults :
    let c := regs [(1, rgn 4 2 4), (2, rgn 100 64 2), (3, 0x3F8000003F800000)]
    let s := co c
    let free (l : List ((Nat × Nat) × Bool)) : Bool := l.all fun o => !c.mustHold o
    let pass (l : List Chk) : Bool := l.all fun x => !x.bad
    let tmm := insnOf 0x80 (BitVec.ofNat 56 (1 + 2 * 2 ^ 5 + 5 * 2 ^ 19 + 8 * 2 ^ 22 + 1 * 2 ^ 26 + 1 * 2 ^ 38 + 3 * 2 ^ 45))
    canIssue s site1 = true ∧ pass (tmmChk c (tmmArgs c tmm)) = true ∧
    free [(rRange (tmmArgs c tmm).dx, false), (rRange (tmmArgs c tmm).dw, false)] = true ∧
    (tmmArgs c tmm).fx.isSome = true ∧ (tmmArgs c tmm).fw.isSome = true ∧
    pass (toutChk s site1 (insnOf 0x81 (word 2 0 0))) = true ∧ free [(rRange (c.greg 2), true)] = true ∧
    pass (tldChk c (insnOf 0x82 (word 0 2 0))) = true ∧ free [(rRange (c.greg 2), false)] = true ∧
    tileOf c (insnOf 0x83 (word 0 0 5)) ≤ 63 ∧
    (let par : Core := { c with spad := Mem.write [] (rRowAt (rgn 4 1 2) 0) (entry [(6, 1, 1), (18, 2, 1)]), g := [(1, rgn 300 1 4), (2, rgn 4 1 2)] }
     let i := insnOf 0x88 (word 1 2 0)
     pass (fattChk (co par) site1 i (fattArgs (co par) site1 i)) = true ∧ fattTag (co par) site1 (fattArgs (co par) site1 i) = none ∧
     ((fattRanges (co par) site1 par i (fattArgs (co par) site1 i)).all fun r => !par.mustHold (r, false)) = true) := by decide +kernel

/-- A window over all of host memory below 2^40 for the core at `site1`, model owner 0's key slot loaded. -/
def winCo (c : Core) : State :=
  let s := ((co c).setReg64 (pgCore site1) 0 0x180 7).setReg64 (pgCore site1) 0 0x188 (2 ^ 40)
  { s with mem := { s.mem with ownerKeys := [(0, { key := some 1, gen := 1 })] } }

theorem witness_QueueTransfers :
    let c := regs [(1, rgn 4 1 2), (2, 4096)]
    let x : QXfer := { store := true, far := 4096, desc := rgn 4 1 2 }
    canIssue (winCo c) site1 = true ∧
    (queueChk (winCo c) site1 (insnOf 0x70 (word 1 2 0 3)) false).all (fun x => !x.bad) = true ∧
    (queueChk (winCo c) site1 (insnOf 0x71 (word 1 2 0 16)) true).all (fun x => !x.bad) = true ∧
    c.mustHold (rRange (c.greg 1), true) = false ∧ c.mustHold (rRange (c.greg 1), false) = false ∧
    (farWin (winCo c) site1 4096 (rBytes (c.greg 1)) true).map (fun w => (w.remote, w.host, (winAccess w).owner, (winAccess w).slot))
      = some (false, true, 2, 0) ∧ (keySlot (winCo c) 2 0).key = some 1 ∧
    (let l : List QXfer := [{ x with done := true }, x]
     (l.take (l.length - 1)).all (·.done) = true ∧ (l.take (l.length - 0)).all (·.done) = false) ∧
    ((SMap.get c.inb 0 3).toInt ≤ (0 : Int)) ∧
    (let d : Core := { c with wait := some ⟨5, 0, 0, 0⟩ }
     running (co d) (pgCore site1) = true ∧ waitOver d 5 0 = true ∧
     waitOver { d with qs := [(5, [x])] } 5 0 = false ∧ 0 + (co d).fld (pgCore site1) 0 0x114 0 16 * us ≤ (co d).now ∧
     boundAt (co d) site1 = none) ∧
    (nextXfer { c with qs := [(16, [x])] } 16 = some (0, x)) := by decide +kernel

/-- WAIT retires exactly the complete transfers beyond n (07 R201). -/
theorem test_wait :
    let x : QXfer := { store := true, far := 4096, desc := rgn 4 1 2 }
    let c : Core := { core1 with qs := [(16, [{ x with done := true }, x])] }
    let t := (after (.iWait site1 (word 0 0 0 16 1) {}) (co c)).core site1
    SMap.get t.qs [] 16 = [x] ∧ t.pc = 8 := by decide +kernel

theorem witness_ProgramFaults :
    let x (c : Core) (imm : Nat) : Nat := (c.greg 1 + (BitVec.ofNat 32 imm).signExtend 64).toNat
    canIssue (co core1) site1 = true ∧ core1.pf = false ∧ boundAt (co core1) site1 = none ∧
    (let s := co core1 { up with b0 := false }
     canIssue s site1 = true ∧ s.b0 = false) ∧
    (BitVec.ofNat 64 core1.pc + (BitVec.ofNat 32 4).signExtend 64).toNat % 8 ≠ 0 ∧ x core1 4 % 8 ≠ 0 ∧ 25165824 ≤ x core1 25165824 ∧
    56 < x core1 57 % 64 ∧ (x core1 786432 % 64 ≤ 56 ∧ 786432 ≤ x core1 786432) ∧
    bitsOf (word 0 0 0 24).toNat 16 6 = 24 ∧
    wregRow ((co core1).setRegN (pgCore site1) 0 0x120 (2 ^ 31)) site1 0 = true ∧
    (co core1).blk (pgCore site1) = { st := .running } := by decide +kernel

theorem witness_CorePageCommands :
    let s := co core1
    let page := pgCore site1
    running s page = true ∧ boundAt s site1 = none ∧ core1.lastRet + s.fld page 0 0x114 16 16 * us ≤ s.now ∧
    acceptsB s agHost page 0x130 5 = true ∧ acceptsB s agHost page 0x170 5 = true ∧ acceptsB s agHost page 0x314 (2 + s.fld page 0 0x314 0 1) = true ∧
    acceptsB (inSt page .stopped s) agHost page 0x310 (2 ^ 31) = true ∧ core1.scrubs = [] ∧
    (s.setFld page 0 0x308 0 1 1).fld page 0 0x308 0 1 = 1 ∧ s.fld page 0 0x308 0 1 = 0 ∧ core1.dbg = [] ∧
    ({ grp := 5, bank := 15, word := 8191 } : BankAddr).ok = true ∧ ({ grp := 5, bank := 15, word := 8191, ue := true } : BankAddr).ok = true ∧
    core1.scrubAt = none ∧ ((some 3).all fun x => decide (x + rowTime s site1 ≤ s.now)) = true ∧
    (let u := (s.setRegN page 0 0x120 (2 ^ 31 + 7 + 7 * 2 ^ 16)).setFld pgFault 0 0x104 0 8 1
     u.fld pgFault 0 0x104 0 8 ≠ 0 ∧ nextRow u site1 = some 7) := by decide +kernel

theorem witness_FabricInstructions :
    let a : W64 := BitVec.ofNat 64 (2 + 1 * 2 ^ 7 + 5 * 2 ^ 14 + 3 * 2 ^ 34)
    let c := regs [(1, rgn 4 1 2), (2, a)]
    let s := co c
    canIssue s site1 = true ∧ rBad (c.greg 1) = false ∧ (rElems (c.greg 1)).length = 2 ∧ c.held ≤ 31 ∧ c.pendW (rRange (c.greg 1)) = false ∧
    (fabAddr a).map (fun x => (x.dst, x.elem, x.ctr)) = some (110, 5, 3) ∧ steward ≠ 110 ∧ gaveUpOn s site1 110 = false ∧ gaveUpOn s site1 (treeBase + 7) = false ∧
    (let u := setTab site1 0 7 (3 + 2 * 2 ^ 12 + 1 * 2 ^ 19 + 1 * 2 ^ 32) s
     let e := tabEntry u site1 0 7
     bitAt e 0 = true ∧ bitAt e 1 = true ∧ bitAt e 3 = false ∧ bitsOf e 32 64 ≠ 0 ∧ siteAt (bitsOf e 12 7) (bitsOf e 19 7) = 110) ∧
    (let u := setTab site1 1 7 (1 + 2 ^ 5 + 1 * 2 ^ 10) s
     let e := tabEntry u site1 1 7
     bitAt e 0 = true ∧ bitAt e 5 = true ∧ rBytes (c.greg 1) = 32 * (bitsOf e 10 6 + 1)) ∧
    bitAt (word 1 2 0 0).toNat 16 = false ∧ bitAt (word 1 2 0 1).toNat 16 = true ∧
    leaderSite (setTab site1 5 0 (1 + 2 ^ 7) s) site1 = site1 ∧ s.fab.flits = [] ∧
    (let g : Flit := { pid := 9, idx := 0, len := 1, kind := .eqxArrive, vc := 0, src := 1, dst := 110, elem := 5, id := 0, loc := site1 }
     let u : State := setTab site1 5 0 (1 + 2 ^ 7) { s with fab := { s.fab with flits := [g] } }
     canIssue u site1 = true ∧ leaderSite u site1 = site1 ∧ bitsOf (routerCfg u site1) 14 4 = 0 ∧ u.fab.flits = [g]) ∧
    ffenceClear s site1 = true ∧
    ffenceClear { s with fab := { s.fab with kept := [(pairKey site1 110 4, [⟨0, [], 0, 0, []⟩])] } } site1 = false := by decide +kernel

theorem members_none {s : State} {x d : Nat} (h : rects d = []) : members s x d = [] := by simp [members, h]

theorem members_some {s : State} {x d k : Nat} (hk : k < sites) (hm : isMember s k x = true)
    (h : (rects d).any (inRegion (siteX k) (siteY k)) = true) : members s x d ≠ [] := by
  have : k ∈ members s x d := by simp [members, hk, hm, h]
  exact List.ne_nil_of_mem this

/-- Source flow 7 of `site1` is marked mcast, with slots, for descriptor 5: no rectangle, or that of site 110 alone, a member. -/
def treeSrc (d : Nat) : State :=
  setTab 110 3 0 (2 ^ 5) (setTab site1 2 5 d (setTab site1 0 7 (1 + 2 + 8 + 5 * 2 ^ 4 + 1 * 2 ^ 32) (co core1)))
def onlyRect : Nat := 2 + 1 * 2 ^ 7 + 2 * 2 ^ 14 + 1 * 2 ^ 21 + 2 ^ 112

theorem witness_FabricInstructions_trees :
    (let e := tabEntry (treeSrc 0) site1 0 7
     bitAt e 0 = true ∧ bitAt e 1 = true ∧ bitAt e 3 = true ∧ bitsOf e 32 64 ≠ 0 ∧ bitsOf e 4 8 = 5 ∧ canIssue (treeSrc 0) site1 = true) ∧
    members (treeSrc 0) 5 (tabEntry (treeSrc 0) site1 2 5) = [] ∧
    members (treeSrc onlyRect) 5 (tabEntry (treeSrc onlyRect) site1 2 5) ≠ [] :=
  ⟨by decide +kernel, members_none (by decide +kernel),
    members_some (k := 110) (by decide) (by decide +kernel) (by decide +kernel)⟩

/-- A one-flit VC4 packet from site 1 to `site1` that waits at router `at_`. -/
def pkt1 (at_ : Nat) : Flit :=
  { pid := 9, idx := 0, len := 1, vc := 4, src := 1, dst := site1, elem := 5, ctr := 3, cnt := true, data := List.replicate 32 7#8, loc := at_ }
def mesh (l : List Flit) (s : State := co core1) : State := { s with fab := { s.fab with flits := l } }

theorem witness_MeshCommands :
    let f := { pkt1 1 with vc := 0 }
    let s := mesh [f]
    let t := mesh [pkt1 site1]
    (∀ g ∈ s.fab.flits, g.loc = 1 → undeliverable s g = false) ∧ linkIsDead s 1 1 = false ∧ pickFlit s 1 1 0 = some f ∧ f.barrier = false ∧ f.kind ≠ .eqxArrive ∧
    neighbour 1 1 = some site1 ∧ t.fab.flits.find? (deliverable t site1) = some (pkt1 site1) ∧ coreFenced t site1 = false ∧
    wregRow t site1 (5 / 64) = false ∧ SMap.get t.fab.rcvSeq 0 (pairKey 1 site1 4) = 0 ∧
    (let u := mesh [{ pkt1 site1 with vc := 5, kind := .ack }]
     (u.fab.flits.find? fun g => atPort u site1 g && decide (g.vc = 5) && decide (g.kind ≠ .data)).isSome = true) ∧
    (let u (c : Bool) := mesh [{ pkt1 site1 with vc := 5, kind := .ack, cnt := c }]
     coreFenced (u true) site1 = false ∧ coreFenced (setTab site1 5 0 (2 ^ 38) (u true)) site1 = true ∧
     ((u false).fab.flits.find? fun g => atPort (u false) site1 g && decide (g.vc = 5) && decide (g.kind ≠ .data)).map (·.cnt) = some false ∧
     ((u true).fab.flits.find? fun g => atPort (u true) site1 g && decide (g.vc = 5) && decide (g.kind ≠ .data)).map (·.cnt) = some true) ∧
    (let key := pairKey site1 (treeBase + 7) 1
     let k : State := { co core1 with fab := { kept := [(key, [⟨0, [], 0, 0, [1]⟩])] } }
     ((k.fab.kept.filter fun e => decide (e.1 / (8 * 16384) = site1) && decide (treeBase ≤ e.1 / 8 % 16384) &&
        (e.2.head?.any fun x => x.owed.contains 1)).map (·.1)) = [key] ∧ SMap.get k.fab.kept [] (pairKey site1 1 1) = [] ∧
     0 + k.fld (fabPg site1) 0 0x104 0 16 * us ≤ k.now ∧ 0 < k.fld (fabPg site1) 0 0x100 16 4) ∧
    (let k (n : Nat) : State := { co core1 with fab := { kept := [(pairKey site1 1 4, [⟨0, [], 0, n, []⟩])] } }
     (k 0).fld (fabPg site1) 0 0x100 16 4 = 4 ∧ 0 + (k 0).fld (fabPg site1) 0 0x104 0 16 * us ≤ (k 0).now ∧ boundAt (k 4) site1 = none) ∧
    (let l (n : Nat) (r : List (Nat × List Byte)) : State := { t with fab := { t.fab with links := [(linkKey site1 1, { fails := n, replay := r })] } }
     linkIsDead (l 2 [(0, [])]) site1 1 = false ∧ ((l 2 [(0, [])]).link site1 1).replay ≠ [] ∧ ((l 2 [(0, [])]).link site1 1).fails < 3 ∧
     3 ≤ ((l 3 [(0, [])]).link site1 1).fails ∧ ((l 0 []).link site1 1).replay = [] ∧ linkIsDead (setTab site1 5 0 (2 ^ 40) t) site1 1 = true ∧
     ((l 0 []).link site1 1).last + (l 0 []).fld (fabPg site1) 0 0x104 16 8 * us ≤ (l 0 []).now ∧ neighbour site1 1 = some 217 ∧
     neighbour 217 1 = some 325 ∧ linkIsDead (l 0 []) 325 0 = false ∧
     (let u : State := { t with fab := { t.fab with links := [(linkKey site1 1, { last := t.now })] } }
      u.now < (u.link site1 1).last + u.fld (fabPg site1) 0 0x104 16 8 * us)) ∧
    (let u := mesh [{ pkt1 site1 with seq := 4 }]
     let v : State := { u with fab := { u.fab with rcvSeq := [(pairKey 1 site1 4, 5)] } }
     v.fab.flits.find? (deliverable v site1) = some { pkt1 site1 with seq := 4 } ∧ 4 ≠ SMap.get v.fab.rcvSeq 0 (pairKey 1 site1 4)) ∧
    (let u := mesh [{ pkt1 site1 with kind := .incomplete }]
     (u.fab.flits.find? fun g => atPort u site1 g && decide (g.kind = .incomplete)).isSome = true ∧ coreFenced u site1 = false ∧ coreFenced (setTab site1 5 0 (2 ^ 38) u) site1 = true) ∧
    acceptsB t agHost (pgFab 0) 0x124 1 = true ∧ acceptsB t agAmp (pgFab 0) 0x124 2 = true ∧ (tabSel t 0).isSome = true ∧
    tabSel (t.setRegN (pgFab 0) 0 0x110 (15 * 2 ^ 8)) 0 = none := by decide +kernel

/-- A delivered packet lands at its element, lets its counter fall and is acknowledged (10 R255, R257, R268). -/
theorem test_delivery :
    let t := after (.packetDelivery ⟨site1, false⟩) (mesh [pkt1 site1])
    Mem.read (t.core site1).spad (32 * 5) 2 = [7, 7] ∧ SMap.get (t.core site1).inb 0 3 = 0xFFFFFFFF#32 ∧
    t.fab.flits.map (fun f => (f.kind, f.vc, f.dst)) = [(.ack, 5, 1)] := by decide +kernel

theorem witness_TreesAtRouters :
    (let f := { pkt1 site1 with vc := 3, id := 0 }
     let s := mesh [f] (setTab site1 2 0 (1 + 1 * 2 ^ 8) (co core1))
     s.fab.flits.find? (fun g => g.loc = site1 && g.out.isNone && isMcast g) = some f ∧
     (mcastOuts site1 f.src (tabEntry s site1 2 (mcastDesc s f))).all (fun o => !linkIsDead s site1 o) = true) ∧
    (let f := { pkt1 site1 with vc := 2, id := 7, inp := 4 }
     let s (ins : Nat) : State := mesh [f] (setTab site1 1 7 (1 + ins * 2 + 2 * 2 ^ 6) (co core1))
     let e (ins : Nat) := tabEntry (s ins) site1 1 7
     bitAt (e 16) 0 = true ∧ bitAt (bitsOf (e 16) 1 5) 4 = true ∧ coreFenced (s 16) site1 = false ∧ linkIsDead (s 16) site1 (bitsOf (e 16) 6 3) = false ∧
     f.round = ((s 16).round site1 7).round ∧ 16 &&& bitsOf (e 16) 1 5 = bitsOf (e 16) 1 5 ∧ 16 &&& bitsOf (e 17) 1 5 ≠ bitsOf (e 17) 1 5) ∧
    (let s := (co core1).setRound site1 7 { first := some 0 }
     (s.round site1 7).first = some 0 ∧ 0 + s.fld (fabPg site1) 0 0x100 0 16 * us ≤ s.now ∧ linkIsDead s site1 0 = false) := by decide +kernel


/-! ### 11 Edge memory, 12 weights -/

def keyed (s : State := up) : State :=
  { s with mem := { s.mem with tenantKeys := [(5, { key := some 1, gen := 3 })], ownerKeys := [(0, { key := some 2, gen := 1 })] } }

theorem witness_EdgeMemoryUnits :
    (keySlot keyed 1 5).key.isSome = true ∧ (keySlot keyed 1 6).key = none ∧ 0x1000 + 2 ≤ t1Bytes ∧ 256 * 16 < t1Bytes ∧
    (let t := after (.t1Write 1 5 0 9 1 0x1000 [1, 2]) keyed
     metaOf t 16 = { owner := 1, slot := 5, gen := 3, content := 0, session := 9 } ∧
     metaOf (after (.t1Write 1 6 0 9 1 0x1000 [1, 2]) keyed) 16 = {}) ∧
    (metaOf keyed 16).owner ≠ 1 ∧ 2 ≤ metaFlips [⟨8, 0, 3⟩] 8 ∧ heldLines keyed 0x1000 2 = [] ∧ tagWaits keyed (tagT1 1) = false ∧
    (let held : State := { keyed with host := { keyed.host with hostHeld := [0x1000 / 64] } }
     heldLines held 0x1000 2 ≠ [] ∧ tagWaits (after (.t1Write 1 5 0 9 1 0x1000 [1, 2]) held) (tagT1 1) = true) := by decide +kernel

theorem witness_EdgeMemoryControl :
    let page := pgEmc 47
    (up.setFld page 0 0x100 0 1 1).fld page 0 0x100 0 1 = 1 ∧ (up.blk page).commit = none ∧
    ((inSt page .running up).blk page).st = .running ∧
    (let s := ((up.setFld page 0 0x110 0 8 1).setFld page 0 0x100 0 1 1).setFld page 0 0x100 2 1 1
     s.fld page 0 0x110 0 8 ≠ 0 ∧ s.fld page 0 0x100 0 1 = 1 ∧ s.fld page 0 0x100 2 1 = 1 ∧ SMap.find s.mem.scrubAt 47 = none ∧
     ({ s with mem := { s.mem with scrubAt := [(47, s.now)] } } : State).now < s.now + s.fld page 0 0x110 0 8 * 3600 * sec / 16777216) ∧
    up.fld page 0 0x10C 0 24 < 1000 ∧ acceptsB (up.setFld pgMap 0 0x118 0 13 4) agHost pgMap 0x11C 1 = true ∧ up.fld pgMap 0 0x11C 0 2 = 0 ∧
    (let s := up.setFld pgMap 0 0x11C 0 1 1
     acceptsB s agHost pgMap 0x11C 0 = true ∧ s.fld pgMap 0 0x11C 0 1 = 1 ∧ (s.serv.sess.all fun e => !t2Writing (s.sess e.1)) = true) ∧
    (let o : SpillObj := { tier := 2, extents := 0, kvLen := 0, gen := 0, chains := [], recs := [] }
     let u := up.setFld pgMap 0 0x11C 1 1 1
     let s : State := { u with serv := { u.serv with sess := [(3, { st := .t2, obj := some o })] } }
     s.fld pgMap 0 0x11C 1 1 = 1 ∧ s.serv.reqs = [] ∧ (s.sess 3).st = .t2 ∧ (s.sess 3).obj = some o) ∧ acceptsB up agHost pgMap 0x130 (5 + 2 ^ 12) = true := by decide +kernel

/-- A package header: op, tiles, length; no section. -/
def head1 (op rank : Nat) : List Byte :=
  Mem.read ([(0, 4, 0x4C504847), (4, 2, 1), (6, 1, op - 1), (8, 1, 1), (10, 1, 1), (20, 2, rank), (24, 8, 64)].foldl
    (fun m p => Mem.write m p.1 (leBytes p.2.1 p.2.2)) []) 0 64

/-- Epoch 2 of owner 0 for partition `q`, the package of 64 bytes at address 0, 100 extents free. -/
def ldSt (op rank : Nat) (q : Part) : State :=
  let s := ((keyed.setReg64 pgEpoch 0 0x150 64).setRegN pgMap 0 0x104 100000000).setRegN pgEpoch 0 0x144 (2 * 2 ^ 16)
  { s with mem := { s.mem with t1 := Mem.write [] 0 (head1 op rank) }, parts := SMap.put s.parts 3 q }

theorem startCode_step0 {s : State} {p op n e o : Nat} {b : List Byte} {m : Bool} (h : imgN b 7 1 = 0) :
    startCode s p op b n e o m = firstCode [
      (0x4060, hdrBad b op n e || (decide (op = 2) && (s.part p).regions.contains e)), (0x4062, secsBad b op),
      (0x4063, patchTablesBad b b.length),
      (0x4066, decide (op = 1) && (decide ((s.part p).ps ≠ .unloaded) || decide (72 < (tilesTaken s).length + imgN b 8 1))),
      (0x4068, noPlace s p op (imgN b 32 8)), (0x406C, decide ((keySlot s 2 o).key = none)),
      (0x4067, decide (poolFree s < loadExtents b op m + logReserve s)),
      (0x406B, (secsOf b).any fun c => decide (c.kind < 4) && decide (padBytes < c.dest + c.len))] := by
  simp [startCode, firstCode, h]

def loaded : Part := { ps := .loaded, altRegion := true, imgs := [{ core := 0, entry := 0, entryFused := 0, adBlocks := 4 }], epCur := 1, regions := [1, 0xFF] }

/-- The start of a load that nothing refuses, for each of the three ops; a header that is refused. -/
theorem witness_Loads :
    startCode (ldSt 1 0 {}) 3 1 (head1 1 0) 64 2 0 false = 0 ∧ startCode (ldSt 2 0 loaded) 3 2 (head1 2 0) 64 2 0 false = 0 ∧
    startCode (ldSt 3 1 loaded) 3 3 (head1 3 1) 64 2 0 false = 0 ∧ startCode (ldSt 1 0 {}) 3 1 (head1 2 0) 64 2 0 false = 0x4060 := by
  have h1 : imgN (head1 1 0) 7 1 = 0 := by decide +kernel
  have h2 : imgN (head1 2 0) 7 1 = 0 := by decide +kernel
  have h3 : imgN (head1 3 1) 7 1 = 0 := by decide +kernel
  rw [startCode_step0 h1, startCode_step0 h2, startCode_step0 h3, startCode_step0 h2]
  decide +kernel

def loading (l : Load) : State := { ldSt 1 0 loaded with we := { vers := [(verKey 3 0 1, { st := .loading })], load := some l } }
def load1 : Load := { op := 1, part := 3, slot := 0, owner := 0, epoch := 2, mirror := false, length := 64 }

theorem witness_Loads_run :
    (∀ op ∈ [1, 2, 3], acceptsB up agHost pgEpoch 0x140 (op + 8 * 3) = true) ∧ (versOf (ldSt 3 1 loaded) 3 0).length < 4 ∧
    (placeBlocks (ldSt 3 1 loaded) 3 (blocksNeeded (treeOf (ldSt 3 1 loaded) 3) (secsOf (head1 3 1)) [0])).isSome = true ∧
    placeBlocks (ldSt 3 1 loaded) 3 [(0, 5)] = none ∧ idleVer (ldSt 3 1 loaded) 3 none = none ∧
    loadOf (loading load1) = some load1 ∧ acceptsB ((loading load1).setRegN pgEpoch 0 0x160 5) agHost pgEpoch 0x140 5 = true ∧
    acceptsB (loading load1) agHost pgEpoch 0x140 6 = true ∧ contentCodes.contains 0x4063 = true ∧ contentCodes.contains 0 = false ∧
    segmentCode (head1 1 0) 64 = 0 ∧ 0 + 64 ≤ hdmBytes ((loading load1).setFld pgGlob 0 0x108 16 9 1) ∧
    0 + (loading load1).fld pgEpoch 0 0x164 0 16 * sec < (loading load1).now ∧
    placeOk (loading load1) { tiles := [0], stages := [{}] } (head1 1 0) = true ∧
    (SMap.find (loading load1).we.vers (verKey 3 0 1)).isSome = true := by decide +kernel

/-- A placement without tensors, one with a tensor R230 refuses (an unknown type), one whose descriptor leaves the tile (R251). -/
theorem witness_Loads_done :
    let p : Placement := { tiles := [0], stages := [{}], sites := [(7, siteOf 0 0)] }
    let q : Placement := { p with mx := [{ sec := 0, ty := 5, count := 32, scaleOff := 0, len := 32 }] }
    let r : Placement := { p with tabs := [(7, 2, 0, 2 ^ 112 + 127 * 2 ^ 14 + 127 * 2 ^ 21)] }
    let s := inSt (pgCore (siteOf 0 0)) .stopped (loading load1)
    let no (x : Placement) : Bool := x.mx.any fun m => mxRefused m (secBytes (head1 1 0) m.sec)
    mxKnown (head1 1 0) p = true ∧ no p = false ∧ p.tabs.any (strays p.tiles p (head1 1 0)) = false ∧ no q = true ∧ q.tabs.any (strays q.tiles q (head1 1 0)) = false ∧
    r.tabs.any (strays r.tiles r (head1 1 0)) = true ∧ [p, q, r].all (fun x => placeOk s x (head1 1 0)) = true ∧
    (∀ op ∈ [1, 2, 3], doneCode s { load1 with op := op, image := head1 1 0, done := 64 } p = 0) ∧
    doneCode s { load1 with image := head1 1 0, done := 64, owner := 1 } p = 0x406C := by decide +kernel

theorem witness_EpochsAndAdapters :
    (let v : AdVer := { st := .loaded, extents := 1 }
     let s (st : AdSt) : State := { up with we := { vers := [(verKey 3 5 1, { v with st := st })] } }
     firstLoaded ((versOf (s .loaded) 3 5).filter fun e => e.2.st = .loaded) = some (verKey 3 5 1, v) ∧ newestVer (s .loaded) 3 5 = none ∧
     newestVer (s .newest) 3 5 = some 1 ∧
     (let u : State := { up with we := { vers := [(verKey 3 5 1, { v with st := .newest }), (verKey 3 5 2, v)] } }
      firstLoaded ((versOf u 3 5).filter fun e => e.2.st = .loaded) = some (verKey 3 5 2, v) ∧ newestVer u 3 5 = some 1) ∧ acceptsB (s .newest) agHost pgEpoch 0x140 (4 + 8 * 3) = true ∧
     ((s .newest).setRegN pgEpoch 0 0x144 5).fld pgEpoch 0 0x144 0 10 = 5) ∧
    (let q : Part := { ps := .running, epCur := 1, epDrain := 0, regions := [0, 1], retainAt := some 5 }
     let s := { up with parts := [(3, q)] }
     5 ≤ s.now ∧ q.epDrain ≠ 0xFF ∧ boundToEpoch s 3 0 = [] ∧ epochInUse q 0 = false) ∧
    acceptsB up agHost pgEpoch 0x170 5 = true := by decide +kernel

/-! ### 13 Module groups and links -/

def portAt (p st : Nat) (q : MPort := {}) (s : State := up) : State := setPortSt p st (s.modPort p fun _ => q)

/-- A packet of one data unit from module 2 to this module, at the front of lane `v` of port 0. -/
def pktIn (kind : Nat) (window : Nat := 0) : Pkt :=
  { kind := kind, lane := 0, dst := 0, src := 2, window := window, gen := 1, tag := 5, data := List.replicate 32 9 }
def bodyOf (k : Pkt) : List Byte := padTo 256 (pktHeader k ++ k.data)
def frontSt (v : Nat) (k : Pkt) (checked : Bool := false) (s : State := up) : State :=
  portAt 0 2 { lanes := [(v, { frames := [bodyOf k], checked := checked })] } s

/-- The frames below are good: `Machine.frameBytes_good`. -/
theorem witness_LinkPorts :
    let b := frameBytes 0 0 0 1 0 [1]
    portSt (portAt 0 2) 0 = 2 ∧ leNat ((b.drop 0).take 2) = ((portAt 0 2).mport 0).rx ∧
    ((portAt 0 2).lane 0 1).drop = 0 ∧
    (let c := bodyOf (pktIn 1)
     kindBad c = false) ∧ leNat (((frameBytes 9 0 0 1 0 []).drop 0).take 2) ≠ ((portAt 0 2).mport 0).rx ∧
    leNat (((frameBytes 0 0 2 0 0 []).drop 4).take 1) % 4 = 2 ∧
    16 ≤ ((List.replicate 16 up.now).filter fun t => up.now < t + ms).length ∧ portSt (portAt 15 1) 15 = 1 ∧
    acceptsB up agHost (pgPort 0) 0x104 1 = true ∧ portSt up 0 = 0 ∧ acceptsB (up.setRegN (pgPort 0) 0 0x104 1) agHost (pgPort 0) 0x104 0 = true ∧
    acceptsB (portAt 0 2) agHost (pgPort 0) 0x104 (2 + (portAt 0 2).fld (pgPort 0) 0 0x104 0 1) = true ∧
    (let s := up.modPeer 63 fun _ => { reach := true }
     63 ≠ myModule s ∧ (s.peer 63).lost = false ∧ silent s 63 = true ∧ spansWith s 63 = []) ∧
    (up.peer 63).lost = false ∧ silent up 63 = true ∧ (portAt 0 2).mport 0 = {} ∧ ((portAt 0 2).mport 0).waiting = 0 ∧
    8 ≤ ({ replayed := some (0, 8) } : MPort).replayed.elim 0 (·.2) ∧
    (let s := up.modPeer 63 fun _ => { lost := true, last := some up.now }
     (s.peer 63).lost = true ∧ silent s 63 = false) := by decide +kernel

/-- Window 3 OPEN on T1 at 4096 for module 2, 64 units, tenant 5's key. -/
def winDesc : BitVec 256 := BitVec.ofNat 256 (4096 * 2 ^ 32 + 64 * 2 ^ 96 + 5 * 2 ^ 128 + 2 ^ 140 + 2 ^ 162)
def withWin (s : State) : State := { s with mlk := { s.mlk with wins := [(3, { st := 1, gen := 1, desc := winDesc })] } }

theorem witness_LinkPackets :
    let h := bodyOf (pktIn 1 3)
    let s := withWin (frontSt 0 (pktIn 1 3) false keyed)
    let k := { pktOf h with lane := 0 }
    (s.lane 0 0).frames = [h] ∧ hKind h = 1 ∧ kindBad h = false ∧ (s.lane 0 0).checked = false ∧ standing s k = 0 ∧
    SMap.get s.mlk.held [] (srcKey k) = [] ∧ writeCheck s k (hUnits h) = none ∧
    writeCheck (frontSt 0 (pktIn 1 3)) k (hUnits h) = some 1 ∧ hFrames h = 1 ∧
    k.e2e = SMap.get s.mlk.want 0 (srcKey k) ∧ wKind (s.rwin k.window).desc = 0 ∧
    (keySlot s (wOwner (s.rwin k.window).desc) (wKey (s.rwin k.window).desc)).key.isSome = true ∧
    heldLines s (wBase (s.rwin k.window).desc + k.off) 32 = [] ∧ tagWaits s (tagT1 4) = false ∧
    (let f : Flight := { src := 2, lane := 0, e2e := 0, win := 3, since := 0 }
     f.src = k.src ∧ f.e2e = k.e2e ∧ f.since + 100 * us ≤ s.now ∧ f.whole = false) ∧
    (takeFront (frontSt 0 (pktIn 3)) 0 0 3).isSome = true ∧ (takeFront (frontSt 0 (pktIn 2)) 0 0 2).isSome = true ∧
    (takeFront (frontSt 0 (pktIn 4)) 0 0 4).isSome = true ∧ (takeFront (frontSt 2 (pktIn 5)) 0 2 5).isSome = true ∧
    (let e : PktTx := { pkt := { pktIn 1 3 with dst := 2, src := 0 }, first := 0, since := 0 }
     let t := frontSt 0 (pktIn 3)
     txOf { t with mlk := { t.mlk with tx := [e] } } 2 5 = some e ∧ e.own = none ∧ k.gen < 2 ^ 16) ∧
    (let q : Part := { ps := .running, span := [0, 2] }
     q.span.findIdx? (fun m => m = 2) ≠ none ∧ q.isHead = true) ∧
    ((List.range sites).find? (fun x => edgeOf x = some (portEdge 0))).isSome = true := by decide +kernel

theorem witness_RemoteWindows :
    up.fld pgGroup 0 0x120 0 8 = 0 ∧ acceptsB up agHost pgGroup 0x124 1 = true ∧ acceptsB up agHost pgGroup 0x124 2 = true ∧
    acceptsB up agHost pgGroup 0x124 3 = true ∧ (up.rwin 0).st = 0 ∧ winValid winDesc = true ∧ winValid 2 = false ∧
    ((withWin up).rwin 3).st = 1 ∧ (({ st := 2, gen := 0xFFFF } : RWin).st = 2) := by decide +kernel

/-! ### 14 Power, 15 cooling -/

def modTl (t : Nat) (f : TileP → TileP) (s : State := up) : State := s.modTile t f

theorem witness_PowerCapsAndClocks :
    holdover up 0 = false ∧ tileSt up 0 < 3 ∧ up.fld pgPwrG 0 0x100 5 1 = 0 ∧
    (let s := up.setFld (pgPwrT 0) 0 0x100 10 1 1
     holdover s 0 = true ∧ (s.tileP 0).retryAt ≤ s.now) ∧
    (let s := co core1
     targetStep s site1 = 15 ∧ (s.core site1).on = true ∧ (s.core site1).gated = false ∧ s.fld (pgCore site1) 0 0x110 0 4 ≠ 15 ∧ ampUp s = true ∧
     (s.setFld (pgPwrT (siteTile site1)) 0 0x110 0 10 600).fld (pgPwrT (siteTile site1)) 0 0x110 0 10 ≠ 0 ∧
     stepOf s site1 ≤ 15 ∧ (s.tileP (siteTile site1)).rail = 0) ∧
    (up.fld (pgPwrT 0) 0 0x118 0 10 = 0x3FF ∧ 700 < up.fld (pgPwrT 0) 0 0x118 0 10) ∧
    (let l : List RailSample := [{ rail := 0, vout := 700000, vsense := 690000, ma := 50000 }, { rail := 72, vout := 1, vsense := 1, ma := 1 }]
     (l.map (·.rail)).Nodup ∧ l.all (fun x => decide (x.rail < 90)) = true) ∧
    (let s := up.modPwr fun p => { p with rails := [(3, { warnSince := some 0 })] }
     ampUp s = true ∧ lasted (s.rail 3).warnSince s.now (s.fld pgPwrG 0 0x118 16 8 * ms) = true ∧ (s.rail 3).warned = false) := by decide +kernel

/-- A step that the rail in effect fits, and one that it does not: the rail reads 0 mV; what a step needs is free (R341). -/
theorem witness_PowerCapsAndClocks_fits :
    vStep (siteTile site1) 15 + 40 ≤ ({ rail := vStep (siteTile site1) 15 + 40 } : TileP).rail ∧
    ¬ (vStep (siteTile site1) 15 + 40 ≤ ((co core1).tileP (siteTile site1)).rail) := by
  refine ⟨Nat.le_refl _, ?_⟩
  have h : ((co core1).tileP (siteTile site1)).rail = 0 := by decide +kernel
  omega

theorem witness_PowerLost :
    up.led.faultList.length < 65536 ∧
    bitAt (up.reg64 (pgPwrT 0) 0 0x108) 3 = false ∧ bitAt ((up.setReg64 (pgPwrT 0) 0 0x108 8).reg64 (pgPwrT 0) 0 0x108) 3 = true ∧
    (6 ≤ sliceCount (2 ^ 12 - 2 ^ 6) ∧ threeAdjacent (2 ^ 55 + 2 ^ 0 + 2 ^ 1) = true ∧
      sliceCount (2 ^ 0 + 2 ^ 1 + 2 ^ 3 + 2 ^ 4 + 2 ^ 6) = 5 ∧ threeAdjacent (2 ^ 0 + 2 ^ 1 + 2 ^ 3 + 2 ^ 4 + 2 ^ 6) = false) ∧
    (let s := up.modPwr fun p => { p with rails := [(89, { tripSince := some 0 })] }
     ampUp s = true ∧ lasted (s.rail 89).tripSince s.now (s.fld pgPwrG 0 0x118 24 8 * ms) = true ∧ (s.rail 89).tripped = false) ∧
    tileSt up 0 ≠ 4 ∧ tileSt (setTileSt 0 4 up) 0 = 4 ∧ (let s := modTl 0 fun p => { p with sliceDue := some 3 }
     (s.tileP 0).sliceDue = some 3 ∧ ampUp s = true ∧ s.blocks.all (fun e => (s.blk e.1).commit = none) = true) ∧
    (let s := up.modPwr fun p => { p with railOff := blockTiles 17 }
     s.pwr.railOff ≠ [] ∧ (∀ k ∈ s.pwr.railOff, boundIn s k = [])) := by decide +kernel

theorem witness_HeaderSwitches :
    let on (q : TurnOn) : State := modTl 0 fun p => { p with seqs := [q] }
    mayTurnOn up 0 13 = true ∧ (up.tileP 0).seqs = [] ∧ blockBusy up 0 = false ∧
    blockBusy (up.setFld pgPwrG 0 0x114 0 12 0xFFF) 0 = true ∧
    ((on { region := 20 }).tileP 0).seqs ≠ [] ∧ mayTurnOn (on { region := 20 }) 0 13 = true ∧
    (let s := on { region := 13, waitFrom := some up.now }
     (s.tileP 0).seqs = [{ region := 13, waitFrom := some up.now }] ∧ 0 + s.fld pgPwrG 0 0x104 16 16 * us ≤ s.now ∧
     s.now < up.now + s.fld pgPwrG 0 0x104 16 16 * us) ∧
    (let q : TurnOn := { region := 296, slow := true }
     ((on q).tileP 0).reset = none ∧ q.start + 9 * (up.fld pgPwrG 0 0x104 0 4 * us) * 4 ≤ up.now) ∧
    (let s := co core1
     (s.tileP 0).seqs = [] ∧ (regionSites 0 13).any (fun x => (s.core x).on) = true ∧
     (regionSites 0 152).all (fun x => (boundAt s x).isNone) = true) ∧
    (let s : State := { co core1 with parts := [(0, { bind := [(0, site1)] })] }
     (regionSites 0 144).any (fun x => (boundAt s x).isSome) = true) := by decide +kernel

/-- Tile 0 with the core at `site1` on and hot at cap 0 since `t`. -/
def hotAt (t : Nat) (q : Part := {}) : State :=
  { (co core1).modIsl site1 fun i => { i with tcap := 0, hotSince := some t } with parts := [(0, q)] }

theorem witness_ThermalTiles :
    (let s := co core1
     ampUp s = true ∧ (s.isl site1).tcap = 15 ∧ pwrPages.all (fun q => (s.blk q).commit = none) = true ∧
     capWatts (s.setFld pgPwrG 0 0x10C 0 16 65535) < (s.setFld pgPwrG 0 0x10C 0 16 65535).fld pgPwrG 0 0x10C 0 16 ∧
     tripDue s site1 1050 true = true ∧ tripDue s site1 1049 true = false) ∧
    (heatDue (hotAt 0) 0 = true ∧ ((hotAt 0).tileP 0).heat = 0 ∧ tileSt (hotAt 0) 0 < 2 ∧ servingPart (hotAt 0) 0 = none) ∧
    (let s := hotAt 0 { ps := .running, tiles := [0], bind := [(0, site1)] }
     servingPart s 0 = some 0 ∧ roomToMove s 0 0 = false) ∧
    (let s := hotAt 0 { ps := .running, tiles := [0] }
     servingPart s 0 = some 0 ∧ roomToMove s 0 0 = true) ∧
    (let s := modTl 0 fun p => { p with heat := 2, coolAt := some 0 }
     (s.tileP 0).heat = 2 ∧ lasted (s.tileP 0).coolAt s.now (100 * ms) = true ∧ coolState s ≤ 1) ∧
    tilePart (hotAt 0 { tiles := [0] }) 0 = some 0 ∧
    (let s := up.modIsl site1 fun i => { i with diffSince := some 0 }
     lasted (s.isl site1).diffSince s.now (sec + 1) = true ∧ (s.isl site1).disagree = false) ∧
    acceptsB up agHost (pgThmT 0) 0x160 1 = true ∧ tileIdle up 0 = true ∧ (up.tileP 0).recalAt = none ∧
    tileIdle (hotAt 0 { tiles := [0], bind := [(0, site1)] }) 0 = false ∧
    (let s := modTl 0 fun p => { p with recalAt := some 0 }
     (s.tileP 0).recalAt = some 0 ∧ 0 + 50 * ms ≤ s.now) := by decide +kernel

/-- The coolant at state `st`, nominal flow 480. -/
def cooled (st : Nat) (f : PwrSt → PwrSt := id) : State := (setCool st up).modPwr f

theorem witness_CoolantStates :
    let smp (s : State) (flow inlet : Nat) : State := s.modPwr fun p =>
      { p with flows := (p.flows.filter fun x => decide (s.now < x.1 + 100 * ms)) ++ [(s.now, flow)], tin := inlet }
    let s0 := cooled 0
    coolState s0 = 0 ∧ coolState (cooled 4) = 4 ∧ 100 * 119 < 25 * qNom s0 ∧
    (¬ 100 * 239 < 25 * qNom s0 ∧ s0.fld pgThmG 0 0x104 24 1 = 0 ∧ s0.pwr.flows = [] ∧ qBelow (smp s0 239 300) 50 = true) ∧
    (qBelow (smp s0 359 300) 50 = false ∧ qShort (smp s0 359 300) = true) ∧
    (qBelow (smp s0 500 401) 50 = false ∧ qShort (smp s0 500 401) = false ∧ fine (smp s0 500 401) = false ∧ fine (smp s0 500 400) = true) ∧
    (let s := cooled 2 fun p => { p with okSince := some 0 }
     coolState s = 2 ∧ s.pwr.okSince = some 0 ∧ 0 + sec ≤ s.now) ∧
    (let s := cooled 1 fun p => { p with okSince := some 0 }
     coolState s = 1 ∧ s.pwr.okSince = some 0) ∧
    ((cooled 3 fun p => { p with shutAt := some 0 }).pwr.shutAt = some 0 ∧ 0 + 1500 * ms ≤ up.now) ∧
    (let s : State := { cooled 3 fun p => { p with shutAt := some up.now } with parts := [(0, { ps := .running })] }
     s.pwr.shutAt = some up.now ∧ s.now < up.now + 1500 * ms ∧ livePartsList s = [0] ∧ (s.part 0).ps ≠ .paused) := by decide +kernel

/-! ### 16 Errors and recovery, 17 management -/

/-- Partition 0 paused on tile 0, its core 0 at `site1` due for retirement. -/
def retiring : State :=
  { inSt (pgCore (siteOf 0 128)) .stopped ((co core1).setCore (siteOf 0 128) core1) with parts := [(0, { ps := .paused, tiles := [0], bind := [(0, site1)], stages := [{ cores := [0] }], retireDue := [0] })] }

theorem witness_FaultsAndRecovery :
    (let s := (co core1).setFld pgFault 0 0x104 16 16 3
     let t := s.setRegN (pgCore site1) 0 0x210 4
     ampUp s = true ∧ (t.core site1).ceSaid = none ∧ s.fld pgFault 0 0x104 16 16 = 3 ∧
     3 < (t.regN (pgCore site1) 0 0x210 + 2 ^ 32 - (t.core site1).ceMark) % 2 ^ 32 ∧
     ¬ 3 < (s.regN (pgCore site1) 0 0x210 + 2 ^ 32 - (s.core site1).ceMark) % 2 ^ 32) ∧
    (let s := retiring
     ampUp s = true ∧ (s.part 0).ps = .paused ∧ coolState s < 3 ∧ (s.part 0).retireDue = [0] ∧ siteOfLogical s 0 0 = some site1 ∧
     (candidates s 0 0 site1 true).isEmpty = false ∧ (s.part 0).tiles.all (fun x => !waitsMove s x) = true) ∧
    ((up.part 0).ps ≠ .paused ∧ (up.part 0).ps ≠ .relocating) ∧
    (ampUp up = true ∧ stageNow up = 6 ∧ up.mg.stwDead = false ∧ up.mg.hbAt + up.fld pgFault 0 0x100 8 8 * ms ≤ up.now ∧
     up.fld pgFault 0 0x100 1 1 = 1 ∧ (up.setFld pgFault 0 0x100 1 1 0).fld pgFault 0 0x100 1 1 = 0 ∧ coolState up ≠ 4 ∧ up.mg.amp ≠ .off) ∧
    (let s := up.modMg fun m => { m with hbAt := up.now }
     s.now < s.mg.hbAt + s.fld pgFault 0 0x100 8 8 * ms) ∧
    stageNow (up.setRegN pgGlob 0 0x100 2) = 2 := by decide +kernel

def evt1 : Event := { time := 0, src := 2, code := 0x4070, sev := 1, flags := 0, data := 0 }
def win1 : EvtWin :=
  { src := 2, code := 0x4070, opened := 0, count := 10, held := [evt1], omitted := 2, sevMax := 1, firstOm := 5, lastOm := 6 }
def pathS (p : Nat) (q : EvtPath) (s : State := up) : State := s.modPath p fun _ => q
/-- Event ring 7 of 16 entries, empty. -/
def evtRing : Ring := { desc := BitVec.ofNat 256 (4 * 2 ^ 64 + 2 ^ 73) }

theorem witness_SidebandEventsLedger :
    ampUp up = true ∧ up.mg.syncAt + ms ≤ up.now ∧
    (let c (n : Nat) : SbCmd := { node := 80, cmd := 1, idx := 3, data := 0, ring := 0, sent := 0, tries := n, first := 0 }
     let s (n : Nat) : State := up.modMg fun m => { m with cmds := [c n] }
     (s 1).mg.cmds.find? (fun x => x.node = 80 && x.idx = 3) = some (c 1) ∧ (s 2).mg.cmds.find? (fun x => x.node = 80 && x.idx = 3) = some (c 2) ∧
     0 + 20 * us ≤ up.now ∧ 80 ≠ nodeE0 ∧ tiles ≤ 80) ∧
    acceptsB up agHost pgMgmt 0x110 (2 ^ 63) = true ∧
    (let s := pathS 2 { wins := [win1] }
     (s.path 2).wins = [win1] ∧ win1.opened + sec ≤ s.now ∧ (s.path 2).queue.length + win1.held.length + 1 ≤ pathCap 2) ∧
    (let s := pathS 9 { queue := [evt1] } (withRing 7 evtRing up)
     nextRing s = some 7 ∧ s.ring 7 = some evtRing ∧ 0 < evtRing.space ∧ evtRing.failNext = false) ∧
    lostDue ((pathS 0 { lostN := 3, firstLost := some 0 }).path 0) up.now = true ∧
    (let q : EvtPath := { queue := [evt1] }
     (pathS 0 q).path 0 = q ∧ q.next = some (evt1, {}) ∧ bmcAsync up = true ∧ bmcAsync (up.setFld pgMgmt 0 0x120 8 1 0) = false ∧ (List.range 64).all (fun m => !bmcWaits up m) = true ∧
     (pathS 1 q).path 1 = q ∧ logStopped up = false ∧ logStopped (up.setFld pgMgmt 0 0x140 17 1 1) = true) ∧
    (({} : LedSt).written % 2048 = 0 ∧ ({ written := 1 } : LedSt).written % 2048 ≠ 0) ∧ up.led.ckptAt + 60 * sec ≤ up.now ∧
    uploadOpen up = false ∧ acceptsB up agHost pgEarly 0x200 (4 + 5 * 2 ^ 4) = true ∧ up.mg.amp ≠ .off ∧ sensor up 1 ≠ none := by decide +kernel

/-- The AMP in its ROM with these packages. -/
def romS (l : SMap Pkg) : State := up.modMg fun m => { m with amp := .rom, slots := l }
def badPkg : Pkg := { good := [false, true, true, true] }
def spS (ph : Nat) (l : List SpSess := []) : State := up.modMg fun m => { m with conns := [(0, { phase := ph })], sess := l }

theorem witness_FirmwareAndSpdm :
    ((romS [(0, {})]).mg.amp = .rom ∧ (romS [(0, {})]).mg.manifestOk = true ∧ (romS []).mg.active = 0 ∧ slotCode (romS [(0, {})]) 0 = 0 ∧
      slotCode (romS [(0, badPkg), (1, {})]) 0 ≠ 0 ∧ slotCode (romS [(0, badPkg), (1, {})]) 1 = 0 ∧ slotCode (romS [(0, badPkg)]) 1 ≠ 0) ∧
    (ampUp up = true ∧ 4 ≤ stageNow up ∧ stageNow up ≤ 6 ∧ updBusy up = false ∧ 0 + 4096 ≤ hdmSize up ∧ 4096 ≤ slotBytes24 ∧
      updBusy (up.modMg fun m => { m with updating := true }) = true) ∧
    (stageNow (up.setRegN pgGlob 0 0x100 3) < 4 ∧ up.mg.amp ≠ .off) ∧
    (let u (n : Nat) : Upload := { len := 4096, next := n, last := up.now }
     up.now < (u 0).last + 10 * sec ∧ (u 1).len ≤ 2048 * ((u 1).next + 1) ∧ 2048 * ((u 0).next + 1) < (u 0).len) ∧
    (({ len := 4096, last := 0 } : Upload).last + 10 * sec ≤ up.now) ∧
    acceptsB up agHost pgMgmt 0x104 1 = true ∧ acceptsB up agHost pgSec 0x110 6 = true ∧
    (conn (spS 1) 0).phase = 1 ∧ (conn (spS 2) 0).phase = 2 ∧ (conn (spS 3) 0).phase = 3 ∧
    (((spS 3).mg.sess.filter fun x => x.tr = 0).length < 2) ∧ 2 ≤ ((spS 3 [{ id := 1, tr := 0 }, { id := 2, tr := 0 }]).mg.sess.filter fun x => x.tr = 0).length ∧
    (conn (spS 3) 0).chunkIn = none ∧ (conn (spS 3) 0).chunkOut = none ∧
    sessOf (spS 3 [{ id := 1, tr := 0 }]) 1 = some { id := 1, tr := 0 } ∧
    sessOf (spS 3 [{ id := 1, tr := 0, est := true }]) 1 = some { id := 1, tr := 0, est := true } := by decide +kernel

/-- The operator's session 1 is established; key slots as in `keyed`. -/
def opSess : SpSess := { id := 1, tr := 0, est := true, both := true, root := 7 }
def opS (s : State := up) (op : Option (BitVec 256) := some 7) : State := s.modMg fun m => { m with sess := [opSess], operator := op }

theorem witness_KeysAndZeroise :
    ampUp opS = true ∧ sessOf opS 1 = some opSess ∧ opSess.est = true ∧ operatorOk opS opSess = true ∧
    (opSess.both = true ∧ (opS up none).mg.operator = none) ∧ (operatorOk (opS up (some 8)) opSess = false ∧ (opS up (some 8)).mg.operator ≠ none) ∧
    slotExists 1 4095 = true ∧ slotExists 2 63 = true ∧ opS.mg.tamper = false ∧ (keySlot opS 1 4095).key = none ∧
    (keySlot (opS keyed) 1 5).key ≠ none ∧ (opS.modMg fun m => { m with tamper := true }).mg.tamper = true ∧
    acceptsB opS agHost pgSec 0x144 0x5A5A = true ∧ acceptsB opS agHost pgSec 0x144 0xA5A5 = true ∧ acceptsB opS agHost pgSec 0x144 0x1234 = true ∧
    armed (opS.modMg fun m => { m with armedAt := some up.now }) = true ∧ armed opS = false ∧ 0 + ms ≤ up.now ∧ up.now < up.now + ms ∧
    opSess.tr = 0 ∧ SMap.find (opS.modMg fun m => { m with ideProg := [(1, 5)] }).mg.ideProg 1 = some 5 := by decide +kernel

/-! ### 18 Bring-up and resets, 17 replay, 19 inputs -/

/-- Bring-up in stage `n`. -/
def stageS (n : Nat) (since : Nat := up.now) : State :=
  (up.setRegN pgGlob 0 0x100 n).modMg fun m => { m with stageAt := since }

theorem witness_BringupAndResets :
    (let fs : List Found := [.rail 91, .noLock 71, .core 3]
     fs.all foundOk = true ∧ waferBusy (stageS 2) = true ∧ stageReady (stageS 2) = true ∧ foundStage (.rail 91) = 2 ∧ foundFatal (.rail 91) = some 0x5080 ∧
     foundStage (.noLock 71) = 2 ∧ foundFatal (.noLock 71) = none ∧ foundStage (.core 3) = 5) ∧
    ((stageS 3).mg.mainBad = false ∧ ({ stageS 4 with host := { up.host with flit256 := true } }).host.flit256 = true) ∧
    (let s := stageS 5 0
     s.mg.stageAt + stageLimits.getD 5 0 * sec < s.now) ∧
    (up.now ≤ (stageS 5).mg.stageAt + stageLimits.getD 5 0 * sec) ∧
    (coolState up ≤ 1 ∧ acceptsB up agHost pgGlob 0x140 (1 + 0x7A5E * 2 ^ 16) = true ∧ acceptsB up agHost pgGlob 0x140 (2 + 0x7A5E * 2 ^ 16) = true ∧
      up.fld pgGlob 0 0x108 0 9 = up.fld pgGlob 0 0x108 16 9 ∧ up.mg.t1Lost = false) ∧
    (coolState (cooled 4) = 4 ∧ coolGood (cooled 4) = false ∧ acceptsB (cooled 4) agHost pgGlob 0x140 (1 + 0x7A5E * 2 ^ 16) = true) ∧
    (coolState (cooled 2) = 2 ∧ agHost ≠ agAmp ∧ acceptsB (cooled 2) agHost pgGlob 0x140 (2 + 0x7A5E * 2 ^ 16) = true) ∧
    acceptsB up agHost (pgTile 0) 0x100 511 = true ∧ tileResetOk agHost 0 511 up = true ∧ (up.tileP 0).seqs = [] ∧
    ((modTl 0 fun p => { p with seqs := [{ region := 3 }] }).tileP 0).seqs ≠ [] ∧
    tileResetOk agHost 0 511 retiring = false ∧ acceptsB up agHost (pgTile 0) 0x100 512 = true ∧ tileResetOk agHost 0 512 up = true := by decide +kernel

theorem witness_ReplayAndInputs :
    (let s := up.setFld pgReplay 0 0x100 4 4 1
     let t : State := { s with parts := [(1, { ps := .loaded })] }
     acceptsB s agHost pgReplay 0x11C 1 = true ∧ acceptsB s agHost pgReplay 0x11C 2 = true ∧
     let u : State := { t with fr := { recs := [{ time := 0, ty := 4, part := 0, seq := 0, at_ := 0, payload := leBytes 4 0 }] } }
     replayCode s 0 1 0 0 ≠ 0 ∧ replayCode u 0 1 (u.regN pgReplay 0 0x104) (u.regN pgReplay 0 0x108) = 0 ∧
     acceptsB u agHost pgReplay 0x11C 1 = true) ∧
    (let s : State := { up with rp := { busy := true } }
     s.rp.busy = true ∧ s.rp.steps = [] ∧ rpWarm s = none ∧ s.rp.flying = []) ∧
    (let s : State := { up with rp := { busy := true, steps := [⟨0, 0, 0, 0, []⟩] } }
     s.rp.steps ≠ []) ∧
    up.mg.perst = true ∧ (up.modMg fun m => { m with perst := false }).mg.perst = false ∧ up.mg.mainBad = false ∧ up.mg.auxBad = false ∧
    up.fld pgFault 0 0x100 1 1 = 1 ∧ up.fld pgPwrG 0 0x100 3 1 = 0 ∧ up.fld pgPwrG 0 0x100 4 1 = 0 ∧
    (up.setFld pgPwrG 0 0x100 3 1 1).fld pgPwrG 0 0x100 3 1 = 1 := by decide +kernel

/-! ### Ill-formed commands -/

/-- One term for each check of WellFormed, each just past its bound. -/
theorem test_illFormed : ([
    .registerWrite 4 0 0 4 0, .registerWrite agHost 0 (2 ^ 28 - 3) 4 0, .registerWrite agHost 1 0 4 0, .registerWrite agHost 0 0 3 0,
    .reg64LowWrite agHost 0 (2 ^ 28 - 3) 0, .reg64LowRead agHost 0 4 8, .reg64LowRead agHost 0 0 2, .earlyAccessDrop 1 0 true,
    .sidebandPageAccess agHost 2 true 0, .run agHost (2 ^ 18), .stopReq (0x1000 + sites) pgServ, .blockFault pgServ 31 0x4000 0 0,
    .blockFault pgServ 0 (2 ^ 16) 0 0, .linkTrain 2 5 true, .linkTrain 16 6 true, .hdmWrite 0 [1]] : List Instr).all (fun i => !i.wf) = true := by
  decide +kernel

theorem test_illFormed_queues : ([
    .doorbellWrite (2 ^ 23) 4 0, .doorbellWrite 0 5 0, .msixTableWrite 0x8000 4 0, .mbxClaim agHost 64, .mbxDataWrite agHost 0 16 0,
    .mbxDataRead agHost 0 15 8, .mbxDataRead agHost 0 1 8, .bmcMailboxMsg 0 [1], .stepBuild 16, .specOutcome 0 4096 0 [] [] [],
    .pageGrant 0 16384] : List Instr).all (fun i => !i.wf) = true := by decide +kernel

theorem test_illFormed_cores : ([
    .iAdd sites 0 {}, .queueTransferDone 0 24 [] [], .srCtrWrite agHost sites 0, .spadHoldWatchdog 0 2 0 0, .spadHoldWatchdog 0 0 16 0,
    .urgentScrub 0 (12288 * 64), .linkReplay 0 4, .flitForward 0 0 64 true, .redRoundTimeout 0 256, .e2eRetryTimer 0 1 2, .linkDead 0 4,
    .fabTableRead agHost tiles] : List Instr).all (fun i => !i.wf) = true := by decide +kernel

theorem test_illFormed_units : ([
    .t1Write 4 0 0 0 0 0 [], .t1Write 0 0 0 0 7 0 [], .t1Write 0 0 0 0 0 t1Bytes [1], .refresh 48 false, .emcHoldWatchdog 0 8 0,
    .adapterNewest 0 1024, .linkFrame 16 [] 0 0, .portTrainDone 0 true 16, .mlkWrite 0 4, .mlkRed 0 0, .mlkRetryTimer (2 ^ 32), .peerLost 64,
    .winCloseDone 256, .governorPeriod [{ site := sites, ro := 0, mw := 0 }] [], .governorPeriod [] [{ tile := 0, diode := 12, temp := 0 }],
    .telemetrySample 0 [] [(18, 0)], .contactTrip 90, .railFault 92, .trimSliceFail 0 56, .trimSliceFail tiles 0, .regionTurnOn 0 297,
    .recalDone 0 [] [], .vminSample 0 1024 0, .vminSample 0 0 144] : List Instr).all (fun i => !i.wf) = true := by decide +kernel

theorem test_illFormed_management : ([
    .sbRead 84 0 0 0, .sbRead 0 84 0 0, .sbRead 0 0 4096 0, .sbTimeSync 0 84 0 0, .getVersion 2, .zeroiseDisarm agHost 0x5A5A,
    .zeroiseDisarm agHost (2 ^ 16), .measSelect agHost 8, .evtWindowClose (2 + 2 ^ 20), .ledgerWindowCopy agHost 8 0,
    .ledgerWindowCopy agHost 0 (2 ^ 15), .bringupStageDone [.channel 48], .bringupStageDone [.slice 0 56], .clusterReset agHost 0 512,
    .rcRead agHost 0 2] : List Instr).all (fun i => !i.wf) = true := by decide +kernel
end Sys2Proof.Tests
end

section
/-! PROOF. Mailbox and host doorbell commands stay at their mailbox (02 R49-R56): each operation of Sys2Proof/Machine/MbxOps.lean
reaches register words, block headers, MSI-X state, outputs, doorbells and one mailbox, and composing such operations reaches
nothing more. -/

namespace Sys2Proof.Machine

/-- State `t` but for what the mailbox and doorbell commands reach: registers, headers, host link, mailboxes and outputs. -/
def beyondMbx (s t : State) : State :=
  { settled s t with regs := s.regs, blocks := s.blocks, host := s.host, mbx := s.mbx, out := s.out }

/-- From `s` to `t` nothing changes beyond the mailbox block and the registers, and of the mailboxes only `m`. -/
def AtMailbox (m : Nat) (s t : State) : Prop := beyondMbx s t = s ∧ ∀ j, j ≠ m → t.box j = s.box j

namespace AtMailbox

variable {m : Nat} {s t u : State}

/-- A change that leaves every mailbox's content alone is at whichever mailbox. -/
theorem of_boxes_eq (hb : beyondMbx s t = s) (hm : t.mbx.box = s.mbx.box) : AtMailbox m s t :=
  ⟨hb, fun j _ => by rw [State.box, hm, State.box]⟩

theorem refl (m : Nat) (s : State) : AtMailbox m s s := ⟨rfl, fun _ _ => rfl⟩

theorem trans (h1 : AtMailbox m s t) (h2 : AtMailbox m t u) : AtMailbox m s u := by
  obtain ⟨hst, boxSt⟩ := h1
  obtain ⟨htu, boxTu⟩ := h2
  refine ⟨?_, fun j hj => (boxTu j hj).trans (boxSt j hj)⟩
  calc beyondMbx s u = beyondMbx s (beyondMbx t u) := rfl
    _ = beyondMbx s t := by rw [htu]
    _ = s := hst

theorem ite {c : Prop} [Decidable c] (ht : AtMailbox m s t) (hu : AtMailbox m s u) : AtMailbox m s (if c then t else u) := by
  split
  · exact ht
  · exact hu

theorem foldl {α : Type} {g : State → α → State} (hg : ∀ t a, AtMailbox m t (g t a)) (l : List α) :
    ∀ s, AtMailbox m s (l.foldl g s) := by
  induction l with
  | nil => exact refl m
  | cons a l ih => exact fun s => (hg s a).trans (ih _)

/-- A command whose effect stays at a mailbox answers only states that do. -/
theorem of_act {ok : Bool} {f : State → State} (hf : AtMailbox m s (f s)) (h : act ok f s = .next t) : AtMailbox m s t := by
  obtain ⟨-, rfl⟩ := act_next s h
  exact hf

/-- A part of the state that `beyondMbx` does not replace is the same. -/
theorem same_part {α : Type} (h : AtMailbox m s t) (f : State → α) (hf : f (beyondMbx s t) = f t) : f t = f s :=
  hf.symm.trans (congrArg f h.1)

theorem samePlanes (h : AtMailbox m s t) : SamePlanes s t :=
  ⟨h.same_part State.serv rfl, h.same_part State.parts rfl, h.same_part State.spec rfl, h.same_part State.kv rfl,
    h.same_part State.we rfl, h.same_part State.mem rfl, h.same_part State.cores rfl, h.same_part State.fab rfl,
    h.same_part State.mlk rfl, h.same_part State.pwr rfl, h.same_part State.fr rfl, h.same_part State.rp rfl⟩

end AtMailbox

/-! ### The operations that mailbox and doorbell commands are made of -/

variable (m : Nat) (s : State)

theorem setBox_box_other (b : Mbx) {j : Nat} (h : j ≠ m) : (s.setBox m b).box j = s.box j := SMap.get_set_other _ _ b h

theorem setBox_atMailbox (b : Mbx) : AtMailbox m s (s.setBox m b) := ⟨rfl, fun _ => setBox_box_other m s b⟩

theorem modBox_atMailbox (f : Mbx → Mbx) : AtMailbox m s (s.modBox m f) := setBox_atMailbox m s _

theorem modMbx_atMailbox (f : MbxSt → MbxSt) (h : (f s.mbx).box = s.mbx.box) : AtMailbox m s (s.modMbx f) :=
  .of_boxes_eq rfl h

theorem setRegK_atMailbox (k : Nat) (v : W32) : AtMailbox m s (s.setRegK k v) := .of_boxes_eq rfl rfl

theorem setReg_atMailbox (pg u off : Nat) (v : W32) : AtMailbox m s (s.setReg pg u off v) :=
  setRegK_atMailbox m s (regKey pg u off) v

theorem reject_atMailbox (pg off cls r : Nat) : AtMailbox m s (s.reject pg off cls r) := .of_boxes_eq rfl rfl

theorem mbxReject_atMailbox (m' off cls r : Nat) : AtMailbox m s (mbxReject m' off cls r s) := reject_atMailbox m s ..

theorem emit_atMailbox (o : Out) : AtMailbox m s (s.emit o) := .of_boxes_eq rfl rfl

theorem msix_atMailbox (v : Nat) : AtMailbox m s (s.msix v) := .ite (.of_boxes_eq rfl rfl) (emit_atMailbox m s _)

theorem dropEarly_atMailbox : AtMailbox m s (dropEarly s) := setReg_atMailbox m s ..

theorem ring_atMailbox (rcv b : Nat) : AtMailbox m s (ring rcv b s) := by
  unfold ring
  split
  · have bell := setReg_atMailbox m s pgHostDb 0 0x100 (hostBell s ||| 1#32 <<< b)
    exact .ite (bell.trans (msix_atMailbox m _ b)) bell
  all_goals exact modMbx_atMailbox m s _ rfl

/-! ### Writes of a mailbox register -/

theorem mbxClaim_atMailbox (ag : Nat) : AtMailbox m s (mbxClaim ag m s) := .ite (.refl m s) (setBox_atMailbox m s _)

theorem mbxRelease_atMailbox (ag : Nat) : AtMailbox m s (mbxRelease ag m s) := .ite (setBox_atMailbox m s _) (.refl m s)

theorem mbxWithdraw_atMailbox (ag : Nat) : AtMailbox m s (mbxWithdraw ag m s) :=
  .ite (mbxReject_atMailbox m s ..) (.ite (.refl m s) (.ite (setBox_atMailbox m s _) (setBox_atMailbox m s _)))

theorem mbxSent_atMailbox (ag : Nat) : AtMailbox m s (mbxSent ag m s) :=
  (modBox_atMailbox m s _).trans (ring_atMailbox m _ _ _)

theorem mbxData_atMailbox (ag k : Nat) (v : W32) : AtMailbox m s (mbxData ag m k v s) :=
  have word := modBox_atMailbox m s _
  .ite (.ite (word.trans (mbxSent_atMailbox m _ ag)) word) (mbxReject_atMailbox m s ..)

theorem mbxCtrl_atMailbox (ag : Nat) (v : W32) : AtMailbox m s (mbxCtrl ag m v s) := by
  refine .ite (mbxReject_atMailbox m s ..) ?_
  have withdraw := AtMailbox.ite (c := v.getLsbD 1) (mbxWithdraw_atMailbox m s ag) (.refl m s)
  have release := fun t => AtMailbox.ite (c := v.getLsbD 2) (mbxRelease_atMailbox m t ag) (.refl m t)
  have claim := fun t => AtMailbox.ite (c := v.getLsbD 0) (mbxClaim_atMailbox m t ag) (.refl m t)
  exact (withdraw.trans (release _)).trans (claim _)

theorem mbxConfig_atMailbox (ag : Nat) (v : W32) : AtMailbox m s (mbxConfig ag m v s) :=
  .ite (mbxReject_atMailbox m s ..) (setBox_atMailbox m s _)

theorem mbxWrite_atMailbox (ag off : Nat) (v : W32) : AtMailbox m s (mbxWrite ag m off v s) :=
  .ite (mbxReject_atMailbox m s ..) <|
  .ite (mbxData_atMailbox m s ..) <|
  .ite (modBox_atMailbox m s _) <|
  .ite (mbxCtrl_atMailbox m s ag v) <|
  .ite (mbxConfig_atMailbox m s ag v) (.refl m s)

theorem bar4_atMailbox (ag : Nat) {f : State → State} (hf : AtMailbox m s (f s)) : AtMailbox m s (bar4 ag f s) :=
  .ite hf (.ite (dropEarly_atMailbox m s) (.refl m s))

theorem boxWrite_atMailbox {ag off : Nat} {v : W32} {t : State} (h : boxWrite ag m off v s = .next t) : AtMailbox m s t :=
  .of_act (bar4_atMailbox m s ag (mbxWrite_atMailbox m s ag off v)) h

/-! ### Reads, deliveries, expiry -/

theorem mbxTook_atMailbox (ag k : Nat) : AtMailbox m s (mbxTook ag m k s) := .ite (modBox_atMailbox m s _) (.refl m s)

theorem mbxRead_atMailbox (ag k n : Nat) : AtMailbox m s (mbxRead ag m k n s) :=
  have shown := emit_atMailbox m s
  .ite
    (.ite (((shown _).trans (mbxTook_atMailbox m _ ag k)).trans (mbxTook_atMailbox m _ ag (k + 1)))
      ((shown _).trans (mbxTook_atMailbox m _ ag k)))
    (.ite (shown _) (.refl m s))

theorem claimExpire_atMailbox : AtMailbox m s (claimExpire m s) := .ite (setBox_atMailbox m s _) (.refl m s)

theorem mbxDeliver_atMailbox : AtMailbox m s (mbxDeliver m s) :=
  .ite ((setBox_atMailbox m s _).trans (emit_atMailbox m _ _)) (.refl m s)

theorem mbxDelivered_atMailbox : AtMailbox m s (mbxDelivered m s) :=
  .ite ((setBox_atMailbox m s _).trans (modMbx_atMailbox m _ _ rfl)) (.refl m s)

/-! ### Host doorbell registers -/

theorem regCmd_atMailbox (ag pg off v : Nat) {f : State → State} (hf : AtMailbox m s (f s)) :
    AtMailbox m s (regCmd ag pg off v f s) := by
  obtain h | h | h | ⟨o, c, r, h⟩ := regCmd_cases s ag pg off v f <;> rw [h]
  · exact .refl m s
  · exact hf
  · exact dropEarly_atMailbox m s
  · exact reject_atMailbox m s ..

theorem hostBellClear_atMailbox (v : W32) : AtMailbox m s (hostBellClear v s) := setReg_atMailbox m s ..

theorem hostBellMaskSet_atMailbox (v : W32) : AtMailbox m s (hostBellMaskSet v s) :=
  (setReg_atMailbox m s ..).trans (.foldl (fun t b => .ite (msix_atMailbox m t b) (.refl m t)) _ _)

/-- Settles O15: each of the commands is made of operations that stay at its mailbox. -/
theorem mailboxFrame : Obligations.MailboxFrame := by
  unfold Obligations.MailboxFrame
  intro s t ag m k n v c hc h
  suffices stays : AtMailbox m s t from ⟨stays.samePlanes, stays.2, stays.same_part State.led rfl, stays.same_part State.mg rfl⟩
  obtain rfl | rfl | rfl | rfl | rfl | rfl | rfl | rfl | rfl | rfl | rfl | rfl := hc
  · exact boxWrite_atMailbox m s (ag := ag) (off := 0x48) (v := 1) h
  · exact .of_act (bar4_atMailbox m s ag (mbxWrite_atMailbox m s ag (4 * k) v)) h
  · exact boxWrite_atMailbox m s (ag := ag) (off := 0x3C) (v := v) h
  · exact .of_act (mbxRead_atMailbox m s ag k n) h
  · exact boxWrite_atMailbox m s (ag := ag) (off := 0x48) (v := 4) h
  · exact boxWrite_atMailbox m s (ag := ag) (off := 0x48) (v := 2) h
  · exact .of_act (claimExpire_atMailbox m s) h
  · exact boxWrite_atMailbox m s (ag := ag) (off := 0x4C) (v := v) h
  · exact .of_act (mbxDeliver_atMailbox m s) h
  · exact .of_act (mbxDelivered_atMailbox m s) h
  · exact .of_act (regCmd_atMailbox m s ag pgHostDb 0x100 v.toNat (hostBellClear_atMailbox m s v)) h
  · exact .of_act (regCmd_atMailbox m s ag pgHostDb 0x104 v.toNat (hostBellMaskSet_atMailbox m s v)) h

end Sys2Proof.Machine
end

section
/-! PROOF. Where a page is placed and how a chain grows by one slot (06 R158, R162, R164, R165): the order on holders that
the allocator's choice is first in, and what each operation on a pool leaves of its page table and its chains. -/

namespace Sys2Proof.Machine

/-! ### The choice of a holder -/

section Placement

variable (q : KvPool)

/-- The order in which holders are taken: more free frames first, then the lower core (06 R158). -/
def KvPool.Before (c d : Nat) : Prop := q.freeFrames d < q.freeFrames c ∨ (q.freeFrames d = q.freeFrames c ∧ c ≤ d)

variable {q} {a b c d : Nat}

theorem KvPool.Before.refl : q.Before c c := .inr ⟨rfl, Nat.le_refl c⟩

theorem KvPool.Before.trans (h1 : q.Before a b) (h2 : q.Before b c) : q.Before a c := by
  unfold KvPool.Before at *
  omega

/-- The better of two holders is one of them, before both. -/
theorem betterHolder_some (b c : Nat) :
    ∃ x, betterHolder q (some b) c = some x ∧ (x = b ∨ x = c) ∧ q.Before x b ∧ q.Before x c := by
  by_cases h : q.freeFrames b < q.freeFrames c ∨ (q.freeFrames b = q.freeFrames c ∧ c < b)
  · exact ⟨c, if_pos h, .inr rfl, by unfold KvPool.Before; omega, KvPool.Before.refl⟩
  · exact ⟨b, if_neg h, .inl rfl, KvPool.Before.refl, by unfold KvPool.Before; omega⟩

theorem foldl_betterHolder_some (l : List Nat) (b : Nat) :
    ∃ x, l.foldl (betterHolder q) (some b) = some x ∧ x ∈ b :: l ∧ ∀ d ∈ b :: l, q.Before x d := by
  induction l generalizing b with
  | nil => exact ⟨b, rfl, by simp, by simp [KvPool.Before.refl]⟩
  | cons c l ih =>
    obtain ⟨y, hy, hyOr, hyb, hyc⟩ := betterHolder_some (q := q) b c
    obtain ⟨x, hx, hmem, hall⟩ := ih y
    refine ⟨x, by rw [List.foldl_cons, hy, hx], ?_, ?_⟩
    · rcases List.mem_cons.1 hmem with rfl | h
      · rcases hyOr with rfl | rfl <;> simp
      · simp [h]
    · have hxy := hall y (by simp)
      intro d hd
      simp only [List.mem_cons] at hd
      rcases hd with rfl | rfl | hd
      · exact KvPool.Before.trans hxy hyb
      · exact KvPool.Before.trans hxy hyc
      · exact hall d (by simp [hd])

theorem mem_and_before_of_foldl {l : List Nat} (h : l.foldl (betterHolder q) none = some c) :
    c ∈ l ∧ ∀ d ∈ l, q.Before c d := by
  cases l with
  | nil => cases h
  | cons b l =>
    obtain ⟨x, hx, best⟩ := foldl_betterHolder_some (q := q) l b
    cases hx.symm.trans h
    exact best

theorem eq_nil_of_foldl {l : List Nat} (h : l.foldl (betterHolder q) none = none) : l = [] := by
  cases l with
  | nil => rfl
  | cons b l =>
    obtain ⟨x, hx, -⟩ := foldl_betterHolder_some (q := q) l b
    cases hx.symm.trans h

/-- A page is placed at the best fused member with a free frame, or where there is none at the best member with one (06 R158). -/
theorem place_cases {g : HGroup} (h : q.place g = some c) :
    let withRoom := g.members.filter fun c => decide (0 < q.freeFrames c)
    let fused := withRoom.filter fun c => (q.kvCore c).fused
    (c ∈ fused ∧ ∀ d ∈ fused, q.Before c d) ∨ (fused = [] ∧ c ∈ withRoom ∧ ∀ d ∈ withRoom, q.Before c d) := by
  intro withRoom fused
  unfold KvPool.place at h
  dsimp only at h
  split at h
  next x hx =>
    cases h
    exact .inl (mem_and_before_of_foldl hx)
  next hx => exact .inr ⟨eq_nil_of_foldl hx, mem_and_before_of_foldl h⟩

end Placement

/-! ### What the operations on a pool leave of its pages and chains -/

section Pools

variable (s : State) (p : Nat)

theorem pool_setPool (a : Nat) (q : KvPool) : (s.setPool a q).pool p = if p = a then q else s.pool p := SMap.get_set ..

@[simp] theorem pool_setPool_same (q : KvPool) : (s.setPool p q).pool p = q := SMap.get_set_same ..

@[simp] theorem pool_modPool_same (f : KvPool → KvPool) : (s.modPool p f).pool p = f (s.pool p) := pool_setPool_same ..

/-- A pool is the same where the page plane is. -/
theorem pool_congr {s t : State} (h : t.kv = s.kv) (p : Nat) : t.pool p = s.pool p := congrArg (fun m : SMap KvPool => SMap.get m {} p) h

@[simp] theorem pool_kvBump (a off n : Nat) : (kvBump s a off n).pool p = s.pool p := pool_congr (bump_kv ..) p

@[simp] theorem pool_removeNodesOf (a pg : Nat) : (removeNodesOf a pg s).pool p = s.pool p := pool_congr rfl p

theorem addFlit_kv (f : Flit) : (addFlit f s).kv = s.kv := by
  unfold addFlit
  dsimp only
  split <;> rfl

theorem addPacket_kv (f : Flit) (l : List (List Byte)) : (addPacket f l s).kv = s.kv := by
  have flits (l : List Flit) : ∀ u : State, (l.foldl (fun u f => addFlit f u) u).kv = u.kv := by
    induction l with
    | nil => exact fun _ => rfl
    | cons f l ih => exact fun u => (ih _).trans (addFlit_kv u f)
  exact flits _ _

theorem grantGoes_kv (g : Grant) : (grantGoes g s).kv = s.kv := by
  unfold grantGoes
  split
  · exact addPacket_kv ..
  · rfl

/-- From `s` to `t` the pages and the chains of pool `p` stay. -/
def SamePages (p : Nat) (s t : State) : Prop :=
  (t.pool p).pages = (s.pool p).pages ∧ (t.pool p).chains = (s.pool p).chains

theorem SamePages.trans {p : Nat} {s t u : State} (h1 : SamePages p s t) (h2 : SamePages p t u) : SamePages p s u :=
  ⟨h2.1.trans h1.1, h2.2.trans h1.2⟩

theorem samePages_grant (g : Grant) : SamePages p s (grant g s) := by
  unfold SamePages grant
  rw [pool_congr (grantGoes_kv ..), State.modPool, pool_setPool]
  split
  next h => subst h; exact ⟨rfl, rfl⟩
  next => exact ⟨rfl, rfl⟩

theorem samePages_kvBump (a off n : Nat) : SamePages p s (kvBump s a off n) := by
  unfold SamePages
  rw [pool_kvBump]
  exact ⟨rfl, rfl⟩

theorem samePages_setPool (q : KvPool) (hp : q.pages = (s.pool p).pages) (hc : q.chains = (s.pool p).chains) :
    SamePages p s (s.setPool p q) := by
  unfold SamePages
  rw [pool_setPool_same]
  exact ⟨hp, hc⟩

theorem samePages_lowWater : SamePages p s (lowWater p s) := by
  unfold lowWater
  dsimp only
  split
  · exact samePages_setPool s p _ rfl rfl
  · split
    · exact ⟨rfl, rfl⟩
    · refine (samePages_setPool s p { s.pool p with lowHit := true } rfl rfl).trans ?_
      unfold SamePages State.raise
      rw [pool_congr (raise_kv ..)]
      exact ⟨rfl, rfl⟩

theorem samePages_lowClear : SamePages p s (lowClear p s) := by
  unfold lowClear
  dsimp only
  split
  · exact samePages_setPool s p _ rfl rfl
  · exact ⟨rfl, rfl⟩

/-! ### Frames and allocation -/

theorem firstFree_free {used : Nat → Bool} {fuel i f : Nat} (h : firstFree used fuel i = some f) : used f = false := by
  induction fuel generalizing i with
  | zero => cases h
  | succ n ih =>
    unfold firstFree at h
    split at h
    next => exact ih h
    next hu => cases h; simpa using hu

theorem nextFrame_free {q : KvPool} {c f : Nat} (h : q.nextFrame c = some f) : SMap.find q.pages (pageNo c f) = none := by
  simpa using firstFree_free h

variable {s p} {t : State}

/-- An allocation enters an unshared page with one reference under a number that no page had (06 R158, R161). -/
theorem allocPage_enters {gi slot ten grp pos idx np : Nat} {on : Option Nat}
    (h : allocPage p gi slot ten grp pos idx on s = some (np, t)) :
    SMap.find (s.pool p).pages np = none ∧ (t.pool p).chains = (s.pool p).chains ∧
    ∃ e : Page, e.st = .priv ∧ e.refc = 1 ∧ (t.pool p).pages = SMap.put (s.pool p).pages np e := by
  unfold allocPage at h
  dsimp only at h
  split at h
  · cases h
  split at h
  · cases h
  split at h
  · cases h
  next c _ f hf =>
    cases h
    have told u g := ((samePages_kvBump u p p 0x180 1).trans (samePages_grant _ p g)).trans (samePages_lowWater _ p)
    exact ⟨nextFrame_free hf, (told _ _).2.trans (by rw [pool_setPool_same]), _, rfl, rfl,
      (told _ _).1.trans (by rw [pool_setPool_same])⟩

/-! ### A reference leaves a page -/

/-- A release takes the last reference's page out of the table, of more references the page loses one; no other page and no
chain changes (06 R165). -/
theorem releaseRef_leaves {pg : Nat} {g : Page} (hg : SMap.find (s.pool p).pages pg = some g) :
    ((releaseRef p pg s).pool p).chains = (s.pool p).chains ∧
    (∀ k, k ≠ pg → SMap.find ((releaseRef p pg s).pool p).pages k = SMap.find (s.pool p).pages k) ∧
    (g.refc ≤ 1 → SMap.find ((releaseRef p pg s).pool p).pages pg = none) ∧
    (1 < g.refc → ∃ h, SMap.find ((releaseRef p pg s).pool p).pages pg = some h ∧ h.refc = g.refc - 1) := by
  by_cases last : g.refc ≤ 1
  · obtain ⟨pages, chains⟩ := samePages_lowClear (s.setPool p { s.pool p with pages := SMap.del (s.pool p).pages pg }) p
    rw [pool_setPool_same] at pages chains
    simp only [releaseRef, hg, if_pos last, pool_removeNodesOf, pool_kvBump, pages, chains, SMap.find_del]
    exact ⟨trivial, fun k hk => if_neg hk, fun _ => if_pos trivial, fun more => absurd last (by omega)⟩
  · simp only [releaseRef, hg, if_neg last, pool_setPool_same, SMap.find_put]
    exact ⟨trivial, fun k hk => if_neg hk, fun h => absurd h last, fun _ => ⟨_, if_pos trivial, rfl⟩⟩

/-! ### Room for one slot at the end of a chain -/

/-- A chain that a pool is given reads back. -/
@[simp] theorem chain_setChain (q : KvPool) (sess gi : Nat) (c : Chain) : (q.setChain sess gi c).chain sess gi = c :=
  SMap.get_set_same ..

theorem chain_congr {q r : KvPool} (h : r.chains = q.chains) (sess gi : Nat) : r.chain sess gi = q.chain sess gi :=
  congrArg (fun m : SMap Chain => SMap.get m {} (chainKey sess gi)) h

/-- The pool with `c` as the chain and page `np` filled to `n` slots. -/
def KvPool.refilled (q : KvPool) (sess gi np n : Nat) (c : Chain) : KvPool :=
  { q with pages := SMap.mod q.pages np fun e => { e with fill := n } }.setChain sess gi c

theorem chain_refilled (q : KvPool) (sess gi np n : Nat) (c : Chain) : (q.refilled sess gi np n c).chain sess gi = c :=
  chain_setChain ..

theorem find_refilled (q : KvPool) (sess gi np n k : Nat) (c : Chain) :
    SMap.find (q.refilled sess gi np n c).pages k =
      if k = np then (SMap.find q.pages np).map (fun e => { e with fill := n }) else SMap.find q.pages k :=
  SMap.find_mod ..

variable {sess gi slot ten grp i sl pg : Nat} {c : Chain} {g : Page}

section
variable (hc : (s.pool p).chain sess gi = c) (hi : (c.len - c.removed) / (s.pool p).slots = i)
  (hsl : (c.len - c.removed) % (s.pool p).slots = sl) (hpg : c.pages[i]? = some pg)
  (hg : SMap.find (s.pool p).pages pg = some g) (grown : growOne p sess gi slot ten grp s = some t)
include hc hi hsl hpg hg grown

/-- On a page that the chain may write its fill rises and the chain is one longer (06 R164). -/
theorem growOne_writes (may : mayWrite g c.len (c.removed + i * (s.pool p).slots) sl = true) :
    (t.pool p).chain sess gi = { c with len := c.len + 1 } ∧
    SMap.find (t.pool p).pages pg = some { g with fill := Nat.min (s.pool p).slots (Nat.max g.fill (sl + 1)) } := by
  subst hc hi hsl
  simp only [growOne, hpg, hg, may, if_true, Option.some.injEq] at grown
  subst grown
  rw [pool_modPool_same, chain_setChain]
  refine ⟨rfl, ?_⟩
  simp [KvPool.setChain, SMap.find_mod, hg]

/-- Growing by a copy: the new page is allocated, filled and put into the chain, both holders are told, and the source loses its
reference (06 R161, R164). -/
theorem growOne_copies (may : mayWrite g c.len (c.removed + i * (s.pool p).slots) sl = false) :
    ∃ np s1 u a b, allocPage p gi slot ten grp g.firstPos i (some (pageCore pg)) s = some (np, s1) ∧
      u.pool p = (s1.pool p).refilled sess gi np (sl + 1) { c with len := c.len + 1, pages := c.pages.set i np } ∧
      t = releaseRef p pg (grant b (grant a (kvBump u p 0x18C))) := by
  subst hc hi hsl
  simp only [growOne, hpg, hg, may, Bool.false_eq_true, if_false] at grown
  split at grown
  · cases grown
  next np s1 alloc =>
    cases grown
    exact ⟨np, s1, _, _, _, alloc, pool_modPool_same .., rfl⟩

/-- On a page that the chain may not write a new unshared page takes its place, and the page loses a reference (06 R164, R165). -/
theorem growOne_replaces (may : mayWrite g c.len (c.removed + i * (s.pool p).slots) sl = false) :
    ∃ np e, np ≠ pg ∧ (t.pool p).chain sess gi = { c with len := c.len + 1, pages := c.pages.set i np } ∧
      SMap.find (t.pool p).pages np = some e ∧ e.st = .priv ∧ e.refc = 1 ∧ e.fill = sl + 1 ∧
      (g.refc ≤ 1 → SMap.find (t.pool p).pages pg = none) ∧
      (1 < g.refc → ∃ h, SMap.find (t.pool p).pages pg = some h ∧ h.refc = g.refc - 1) := by
  obtain ⟨np, s1, u, a, b, alloc, swapped, rfl⟩ := growOne_copies hc hi hsl hpg hg grown may
  obtain ⟨fresh, -, e, est, erefc, entered⟩ := allocPage_enters alloc
  have hne : np ≠ pg := by
    rintro rfl
    cases fresh.symm.trans hg
  obtain ⟨pages, chains⟩ := ((samePages_kvBump u p p 0x18C 1).trans (samePages_grant _ p a)).trans (samePages_grant _ p b)
  rw [swapped] at pages chains
  have source : SMap.find ((grant b (grant a (kvBump u p 0x18C))).pool p).pages pg = some g := by
    rw [pages, find_refilled, if_neg hne.symm, entered, SMap.find_put, if_neg hne.symm, hg]
  obtain ⟨chainsR, other, last, more⟩ := releaseRef_leaves source
  refine ⟨np, { e with fill := sl + 1 }, hne, ?_, ?_, est, erefc, rfl, last, more⟩
  · rw [chain_congr (chainsR.trans chains), chain_refilled]
  · rw [other np hne, pages, find_refilled, if_pos rfl, entered, SMap.find_put, if_pos rfl, Option.map_some]

end
end Pools

/-- Settles O31: the allocator's choice is first in the order on holders, and a chain grows in place or by a copy. -/
theorem pagePlacement : Obligations.PagePlacement := by
  unfold Obligations.PagePlacement
  refine ⟨fun q g c placed => ?_, ?_⟩
  · rcases place_cases placed with ⟨mem, best⟩ | ⟨none, mem, best⟩
    · obtain ⟨hmem, hfused, hfree⟩ : c ∈ g.members ∧ (q.kvCore c).fused = true ∧ 0 < q.freeFrames c := by simpa using mem
      refine ⟨hmem, hfree, fun _ _ _ _ => hfused, fun d hd free same => best d ?_⟩
      simp [hd, free, same, hfused]
    · obtain ⟨hmem, hfree⟩ : c ∈ g.members ∧ 0 < q.freeFrames c := by simpa using mem
      have notFused : ∀ d ∈ g.members, (q.kvCore d).fused = true → q.freeFrames d = 0 := by simpa using none
      refine ⟨hmem, hfree, fun d hd free fused => ?_, fun d hd free _ => best d (by simp [hd, free])⟩
      exact absurd (notFused d hd fused) (by omega)
  · intro s t p sess gi slot ten grp pg g q c i sl hpg hg grown
    refine ⟨?_, fun may => ?_, fun may => ?_⟩
    · cases may : mayWrite g c.len (c.removed + i * q.slots) sl
      · obtain ⟨np, e, -, chain, -⟩ := growOne_replaces rfl rfl rfl hpg hg grown may
        rw [chain]
      · rw [(growOne_writes rfl rfl rfl hpg hg grown may).1]
    · obtain ⟨chain, entry⟩ := growOne_writes rfl rfl rfl hpg hg grown may
      exact ⟨(congrArg Chain.pages chain :), entry⟩
    · obtain ⟨np, e, ne, chain, rest⟩ := growOne_replaces rfl rfl rfl hpg hg grown may
      exact ⟨np, e, ne, (congrArg Chain.pages chain :), rest⟩

end Sys2Proof.Machine
end

section
/-! PROOF. A FATT whose KV frames lie beyond the scratchpad (06 R157, 07 R194, 09 R246). The state gives a core the base of its KV
region as a plain number, and no condition of FATT bounds the frames that a page list names. A scratchpad has six bank groups and so
96 bank counters from 0x400 on; a bank conflict in group 48 counts at 0x1000 and beyond, a word that no instruction may change. -/

namespace Sys2Proof.Machine
namespace StrayFrames

/-- A fused site. -/
def site : Nat := 109

/-- Query rows at row 300 (4 elements), parameters at row 4 (2 elements): one page, one KV head, one query row. -/
def core : Core where
  on := true
  g := [(1, BitVec.ofNat 64 (300 + 3 * 2 ^ 32)), (2, BitVec.ofNat 64 (4 + 2 ^ 32))]
  spad := [(8192 + 4, 1), (8192 + 6, 1), (8192 + 18, 1)]

/-- The core runs in partition 0; its one frame starts at column 8 of row 98,304, in bank group 48. -/
def state : State :=
  { State.reset with
    blocks := [(pgCore site, { st := .running })]
    cores := [(site, core)]
    parts := [(0, { bind := [(0, site)] })]
    kv := [(0, { cores := [(0, { base := 32 * (64 * 98304 + 8), frames := 1, fused := true })] })] }

/-- FATT of the query region in g1 with the parameters in g2, into tiles 0 to 2. -/
def word : BitVec 56 := 1 + 2 * 2 ^ 5
def insn : Nat := insnOf 0x88 word
def args : FattArgs := fattArgs state site insn

/-- Where the conflict counter of group 48, bank 8 falls. -/
def key : Nat := regKey (pgCore site) 0 (0x400 + 4 * (16 * 48 + 8))

theorem issues : Issues state site {} := by
  unfold Issues
  decide +kernel

theorem passes : (fattChk state site insn args).all (fun x => !x.bad) = true := by decide +kernel

theorem untagged : fattTag state site args = none := by decide +kernel

theorem nothing_held :
    ((fattRanges state site core insn args).map fun r => (r, false)).all (fun o => !core.mustHold o) = true := by
  decide +kernel

/-- The register word at `key` after the command. -/
def counted : Option W32 :=
  match exec (.iFatt site word {}) state with
  | .next t => some (t.regK key)
  | _ => none

/-- One beat of the frame meets bank 8 of group 48 twice: in columns 56 to 63 of row 98,304 and 0 to 7 of the next. -/
theorem counted_eq : counted = some 1 := by decide +kernel

theorem key_before : state.regK key = 0 := by decide +kernel

theorem key_ne_ecc : key ≠ regKey pgFault 0 0x180 := by decide

/-- The word is none of the core page's that a FATT may change. -/
theorem key_ne_own (off : Nat) (h : 0x200 ≤ off ∧ off < 0x1000 ∨ off ∈ [0x130, 0x134]) : key ≠ regKey (pgCore site) 0 off := by
  rw [key, Ne, regKey_inj]
  simp only [List.mem_cons, List.not_mem_nil, or_false] at h
  omega

end StrayFrames

open StrayFrames in
/-- Refutes O36: a FATT over a KV frame beyond the scratchpad counts a bank conflict in a register word that the statement says
stays, because it is no counter of the core's page. -/
theorem not_tensorResults : ¬ Obligations.TensorResults := by
  unfold Obligations.TensorResults
  intro h
  obtain ⟨-, -, -, -, -, -, fatt⟩ := h state site word {} issues rfl
  obtain ⟨t, ran, ⟨-, -, stays⟩, -⟩ := fatt insn rfl passes untagged nothing_held
  have same : t.regK key = 0 := (stays key key_ne_ecc key_ne_own).trans key_before
  have moved : some (t.regK key) = some 1 := by
    rw [← counted_eq, counted, ran]
  rw [same] at moved
  exact absurd moved (by decide)

end Sys2Proof.Machine
end
